-- ==== Sys2Proof/Word.lean ====
section
/-! DEFINITION. The word types of the node: bytes and the little-endian words of R10 and R11. -/

namespace Sys2Proof

/-- One byte of memory, scratch or a message (R10). -/
abbrev Byte := BitVec 8
/-- A 16-bit field. -/
abbrev Word16 := BitVec 16
/-- A 32-bit field or register. -/
abbrev Word32 := BitVec 32
/-- A 64-bit word of a record (R11). -/
abbrev Word64 := BitVec 64

end Sys2Proof
end

