-- ==== Sys2Proof/Syntax.lean ====
section
/-! DEFINITION. The commands of the block: one constructor for each row of spec/opcode_table.json, in the table's
order, and the operand records they carry. The table gives its rows no fields: the operands are the model's
(assumption 2). Bytes that the host has written by the time of a doorbell arrive with the doorbell (assumption 3). -/

namespace Sys2Proof

/-- Bytes that the host's memory holds by the time of the command: pairs of an address and a byte. -/
abbrev HostBytes := List Host.Cell

/-- A descriptor as the ring fetcher reads it (R366): the function and ring, its SQ index, and its eight 64-bit
words. -/
structure Desc where
  fn : Nat
  ring : Nat
  idx : Nat
  words : List Word64
  deriving DecidableEq, Repr

/-- The rings of a doorbell page: eight ring pairs, the event ring and the receive ring (Table HI-5). -/
inductive RingName where
  | pair (r : Nat)
  | event
  | receive
  deriving DecidableEq, Repr

/-- A PTP Sync, Follow_Up or Delay_Resp as the node's clock takes it (R308): the sender's clock identity, the
sequence number, whether a Follow_Up is to come, the time stamp the message carries and the time of its arrival,
in ns of the PTP time. -/
structure PtpMsg where
  identity : Nat
  seqId : Nat
  twoStep : Bool
  stampNs : Nat
  rxNs : Nat
  deriving DecidableEq, Repr

/-- The data of a PTP Announce that the best master clock algorithm compares (R308). -/
structure PtpAnnounce where
  domain : Nat
  priority1 : Nat
  clockClass : Nat
  accuracy : Nat
  variance : Nat
  priority2 : Nat
  identity : Nat
  stepsRemoved : Nat
  deriving DecidableEq, Repr

/-- A tile command record (Table TL-4). `m`, `n` and `k` are the fields M, N and K, which hold the counts minus 1. -/
structure CmdRec where
  issue : Nat
  phase : Nat
  flags : Nat
  opcode : Nat
  aux : Nat
  dst : Nat
  src1 : Nat
  src0 : Nat
  fmt1 : Nat
  fmt0 : Nat
  k : Nat
  n : Nat
  m : Nat
  value : Nat
  stile : Nat
  ext : Nat
  /-- attribute descriptors (IX_ATTR) of the index whose words FILTER reads; they reach the tile beside the record
  (assumption 10) -/
  attr : Word64
  deriving DecidableEq, Repr

/-- Where an operation word on a stile comes from (R286, Table ST-8). -/
inductive StileSource where
  | doorbell | hostSpace | ludomFinal | roceImm | rmaSpace
  deriving DecidableEq, Repr

/-- An engine of the plan: a logical tile 64 × y + x, or a logical burrow 32 × stack + burrow. -/
inductive Engine where
  | tile (i : Nat)
  | burrow (i : Nat)
  deriving DecidableEq, Repr

/-- The faults that a warren detects (Table WA-10): bad symbols that were corrected, an uncorrectable block at a node
address, loss of the channel interface, a parity error of the burrow's memories, a datapath residue error, and a
parity error on the warren bus, first or again on the same message. -/
inductive WarrenKind where
  | corrected (symbols : Nat)
  | block (addr : Nat)
  | channel
  | parity
  | residue
  | bus (again : Bool)
  deriving DecidableEq, Repr

/-- A place on flash: die set, plane, block, page of the stream and byte offset in it (R248, R252). -/
structure FlashPlace where
  set : Nat
  plane : Nat
  block : Nat
  page : Nat
  off : Nat
  deriving DecidableEq, Repr

/-- A vector of the partner's answer to a flash read service request (R275). -/
structure RefillRow where
  vid : Word64
  row : List Byte
  scale : Word32
  norm : Word32
  lost : Bool
  deriving DecidableEq, Repr

/-- A log record of a replication batch: its bytes (Table TU-12), and, beside it, the format of a ROWWRITE's payload
and the update class, which the record's header does not hold (assumption 11). -/
structure LogRec where
  bytes : List Byte
  dfmt : Nat
  cls : Nat
  deriving DecidableEq, Repr

/-- The runtime faults of a tile (Table TL-9): a corrected single-bit error in scratch or in a flit, a double-bit error
in scratch, a parity error in the selection register or queue, a residue error, and a stuck or twice-bad link wire of
a physical tile and direction, with the number of the remote copy that it poisons. -/
inductive TileFaultKind where
  | corrected (flit : Bool)
  | double
  | parity
  | residue
  | wire (x p dir : Nat) (move : Option Nat)
  deriving DecidableEq, Repr

/-- A sheaf that is moved or read: a move of the plan by its number, the next sheaf of a LOAD, or the input of a SELECT, by
function, ring and SEQ. -/
inductive MoveRef where
  | plan (num : Nat)
  | load (fn ring : Nat) (seq : Word64)
  | select (fn ring : Nat) (seq : Word64)
  deriving DecidableEq, Repr

/-- Which host read failed (R355): a descriptor fetch of a ring, the data of a descriptor, the value of an item of a
COMMIT by its place in the transaction (R386), a T3 sheaf move. -/
inductive HostRead where
  | fetch (ring : Nat)
  | data (ring : Nat) (seq : Word64)
  | value (ring : Nat) (seq : Word64) (item : Nat)
  | move (m : MoveRef)
  deriving DecidableEq, Repr

/-- What a received frame carries (R303): the protocols the node takes, an unsupported one, or a pause-exempt
control. -/
inductive Proto where
  | ludom | roce | ptp | beacon | other
  deriving DecidableEq, Repr

/-- A received Ethernet frame as the port's parser sees it (R303, R304, R309, R350): its tags, VLAN id and priority, its
length, whether it is an IP fragment or carries IPv4 options or IPv6 extension headers, and the connection it names. -/
structure Frame where
  tags : Nat
  vid : Nat
  pcp : Nat
  len : Nat
  proto : Proto
  badIp : Bool
  multicast : Bool
  conn : Nat
  deriving DecidableEq, Repr

/-- Place of a RoCE packet in its message. -/
inductive MsgPos where
  | first | middle | last | only
  deriving DecidableEq, Repr

/-- A RoCEv2 RC packet as the published specification lays it out: PSN, place in the message, payload, virtual address,
R_Key and length of the RETH, immediate, acknowledge request, and the two operands of an atomic. -/
structure RocePkt where
  psn : Nat
  pos : MsgPos
  payload : List Byte
  va : Nat
  rkey : Nat
  len : Nat
  imm : Word32
  ackReq : Bool
  swapAdd : Word64
  compare : Word64
  deriving DecidableEq, Repr

/-- What a boot step found when it ended (R425, R427): which shepherd cores passed the ROM self-check; the array that
could not be repaired or mapped to a spare, and the tiles (column, physical row) and units (stack, physical unit) that
had to be mapped out; the units that failed training, and the stack that failed whole; the dies identified, each with what its
parameter page reports: speed in MT/s and blocks per plane; and whether a journal copy could be read; an end without a finding. -/
inductive BootReport where
  | rom (primary twin : Bool)
  | sram (array : Option Nat) (tiles units : List (Nat × Nat))
  | stacks (units : List (Nat × Nat)) (whole : Option Nat)
  | flash (dies : List (Nat × Nat × Nat)) (journal : Bool)
  | done
  deriving DecidableEq, Repr

/-- What the runs of a logic BIST found (R444, R450): failed tiles (column, physical row), routers and uncore blocks
whose MISR differs, the MISR fold of each run, and a column whose new mapping could not be written. -/
structure BistReport where
  tiles : List (Nat × Nat)
  routers : List Nat
  uncore : List Nat
  sigs : List Word64
  unwritten : Option Nat
  deriving DecidableEq, Repr

/-- JTAG instructions (R439, R499): those of IEEE 1149.1 that the spec names, internal scan, shepherd debug, and any
other code. -/
inductive JtagInstr where
  | bypass | idcode | sample | extest | clamp | highz | internalScan | shepherdDebug | other
  deriving DecidableEq, Repr

/-- A shard domain of the routing table that a composed node is given (R404): shard, and its two nodes. -/
structure DomainRec where
  shard : Nat
  node0 : Nat
  node1 : Nat
  deriving DecidableEq, Repr

/-- The vectors of a list as a seed carries them (R406, R430): function, index, list, and the LIST header's GENERATION. -/
structure SeedList where
  fn : Nat
  index : Nat
  list : Nat
  gen : Word32
  rows : List RefillRow
  deriving DecidableEq, Repr

/-- What a seed has brought (R406): the partner's tick that it stands for, the T1 bytes of the objects by node address,
the segments, and the watermarks of the lost node's origin: function, ring, SEQ. -/
structure Seed where
  tick : Word64
  cells : List Host.Cell
  lists : List SeedList
  marks : List (Nat × Nat × Word64)
  deriving DecidableEq, Repr

/-- The commands of the block, one constructor per row of the command table. -/
inductive Instr where
  | tickEdge (atNs : Nat)
  | quarantineEnd (stile : Nat)
  | rmaQuarantineEnd (entry : Nat)
  | ingestStart
  | ingestEnd
  | guardPhaseStart (lastEndNs : Nat)
  | egressWindowStart
  | completionWrite (fn ring : Nat)
  | exchangeWindowBClose
  | tickLineFrame (frame : Word64) (atNs : Nat)
  | lineLockLost
  | rootEdgeAnnounce (atNs : Nat)
  | ppsPulse (atNs : Nat)
  | beaconReceived (port : Nat) (payload : List Word64)
  | beaconLost
  | sourceSwitchBack
  | holdoverNotAligned
  | holdoverEnd
  | ptpSync (port : Nat) (msg : PtpMsg)
  | ptpFollowUp (port : Nat) (msg : PtpMsg)
  | ptpAnnounce (port : Nat) (ann : PtpAnnounce)
  | ptpDelayResp (port : Nat) (msg : PtpMsg)
  | ptpLockLost
  | planValidationDone
  | matmul (tile : Nat) (r : CmdRec)
  | dist (tile : Nat) (r : CmdRec)
  | lutb (tile : Nat) (r : CmdRec)
  | scan (tile : Nat) (r : CmdRec)
  | filter (tile : Nat) (r : CmdRec)
  | quant (tile : Nat) (r : CmdRec)
  | dqacc (tile : Nat) (r : CmdRec)
  | scaleRow (tile : Nat) (r : CmdRec)
  | scaleScalar (tile : Nat) (r : CmdRec)
  | scaleNorm (tile : Nat) (r : CmdRec)
  | topkArray (tile : Nat) (r : CmdRec)
  | topkRegister (tile : Nat) (r : CmdRec)
  | merge (tile : Nat) (r : CmdRec)
  | tileGather (tile : Nat) (r : CmdRec)
  | reduce (tile : Nat) (r : CmdRec)
  | copyLocal (tile : Nat) (r : CmdRec)
  | copyRemote (tile : Nat) (r : CmdRec)
  | remoteCopyLanding (id : Nat)
  | shload (tile : Nat) (r : CmdRec)
  | shstore (tile : Nat) (r : CmdRec)
  | sheafCommit (num : Nat)
  | tileSignal (tile : Nat) (r : CmdRec)
  | tileConsume (tile : Nat) (r : CmdRec)
  | tileSet (tile : Nat) (r : CmdRec)
  | tileWait (tile : Nat) (r : CmdRec)
  | tileWaitConsume (tile : Nat) (r : CmdRec)
  | stileWaitSatisfied (eng : Engine) (cycle : Nat)
  | scoreboardRelease (tile cycle : Nat)
  | tileFault (tile : Nat) (kind : TileFaultKind)
  | burrowSlotStart (burrow slot : Nat)
  | nextItem (burrow : Nat)
  | lutget (burrow : Nat)
  | lutPullLanded (burrow half : Nat)
  | lutw (burrow : Nat)
  | scanl (burrow : Nat)
  | emit (burrow : Nat)
  | gath (burrow : Nat)
  | rsub (burrow : Nat)
  | sig (burrow : Nat)
  | waits (burrow : Nat)
  | bcopy (burrow : Nat)
  | jump (burrow : Nat)
  | endSlot (burrow : Nat)
  | throttleLevelChange (stack temp power : Nat) (cool calm : Bool)
  | refreshRateChange (stack temp : Nat)
  | warrenFault (stack unit : Nat) (kind : WarrenKind)
  | unitRefillComplete (stack : Nat)
  | sheafMoveStart (num : Nat)
  | sheafLanding (m : MoveRef) (poisoned : Bool)
  | sheafMoveDeadline (m : MoveRef)
  | search (d : Desc)
  | shardQuery (payload : List Byte)
  | shardResult (payload : List Byte)
  | flashReadIssue (id : Nat)
  | flashReadNotIssued (id : Nat)
  | flashReadReturn (id errors : Nat) (decoded : Bool)
  | flashReadDeadline (id : Nat)
  | flashReconstructDone (cw : FlashPlace) (unreadable : List Nat)
  | programDone (cw : FlashPlace) (ok : Bool)
  | eraseDone (cw : FlashPlace) (bad : List Nat)
  | dieFailed (die : Nat)
  | dieRetired (die : Nat)
  | segmentAgeWarn (fn index list : Nat)
  | segmentPastBound (fn index list : Nat)
  | checkpoint
  | rootPageWrite
  | flashReadServiceRequest (fn index : Nat) (ids : List Word64)
  | refillResponse (fn index : Nat) (rows : List RefillRow)
  | select (d : Desc)
  | gather (d : Desc)
  | pklookup (d : Desc)
  | exchangeRequest (payload : List Byte) (atNs : Nat)
  | exchangeResponse (payload : List Byte) (atNs : Nat)
  | insert (d : Desc)
  | delete (d : Desc)
  | load (d : Desc)
  | rowwrite (d : Desc)
  | rowdelete (d : Desc)
  | replicationBatch (tick : Word64) (logged : Option Word64) (recs : List LogRec)
  | format (d : Desc)
  | stileSignal (src : StileSource) (fn : Nat) (addressed : Option Nat) (w : Word64)
  | stileConsume (src : StileSource) (fn : Nat) (addressed : Option Nat) (w : Word64)
  | stileSet (src : StileSource) (fn : Nat) (addressed : Option Nat) (w : Word64)
  | stileClearFlags (src : StileSource) (fn : Nat) (addressed : Option Nat) (w : Word64)
  | stileRead (fn off size : Nat) (stile : Nat)
  | stileEccError (stile : Nat) (double : Bool)
  | frameReceived (port : Nat) (frame : Frame)
  | pfcPauseReceived (port tc : Nat) (pause : Bool)
  | pfcStorm (port tc : Nat)
  | pfcStormEnd (port tc : Nat)
  | laneFailure (port lane : Nat)
  | portDown (port : Nat)
  | portUp (port : Nat)
  | connect (port tc : Nat) (pkt : List Byte)
  | connectAck (port tc : Nat) (pkt : List Byte)
  | ludomWrite (port tc : Nat) (pkt : List Byte) (atNs : Nat)
  | readReq (port tc : Nat) (pkt : List Byte)
  | readResp (port tc : Nat) (pkt : List Byte)
  | ludomAck (port tc : Nat) (pkt : List Byte)
  | ludomNak (port tc : Nat) (pkt : List Byte)
  | notReady (port tc : Nat) (pkt : List Byte)
  | ludomClose (port tc : Nat) (pkt : List Byte)
  | ludomRtoExpiry (conn psn : Nat)
  | nrWaitExpiry (conn psn : Nat)
  | batchAged (conn batch : Nat)
  | roceSend (conn : Nat) (p : RocePkt)
  | rdmaWrite (conn : Nat) (p : RocePkt)
  | rdmaWriteWithImmediate (conn : Nat) (p : RocePkt)
  | rdmaRead (conn : Nat) (p : RocePkt)
  | fetchAdd (conn : Nat) (p : RocePkt)
  | cmpSwap (conn : Nat) (p : RocePkt)
  | roceAck (conn : Nat) (p : RocePkt)
  | roceNak (conn : Nat) (p : RocePkt) (code : Nat)
  | rnrNak (conn : Nat) (p : RocePkt)
  | udSend (conn qkey : Nat) (payload : List Byte)
  | ceMark (conn : Nat) (atNs : Nat)
  | cnp (conn : Nat)
  | ceRateRecovery (conn : Nat)
  | contextFetchDone (conn : Nat)
  | sysconnRetry (conn : Nat)
  | egressFrameStart (port offPs : Nat)
  | shaperRefill (us : Nat)
  | policerRefill (us : Nat)
  | gateOpen (index : Nat)
  | gateClose (index : Nat)
  | scanRequest (payload : List Byte) (atNs : Nat)
  | scanResponse (payload : List Byte) (atNs : Nat)
  | nodeFault (row part : Nat)
  | rejoinWindowExpiry
  | seedComplete (seed : Seed)
  | sqTailDoorbell (fn ring : Nat) (value : Word64) (host : HostBytes)
  | cqHeadDoorbell (fn ring : Nat) (value : Word64)
  | evHeadDoorbell (fn : Nat) (value : Word64)
  | rxTailDoorbell (fn : Nat) (value : Word64) (host : HostBytes)
  | ringCfgWrite (fn : Nat) (ring : RingName) (value : Word64)
  | hostReadFail (fn : Nat) (what : HostRead)
  | eventRecordWrite
  | beginTxn (d : Desc)
  | setItem (d : Desc)
  | commit (d : Desc)
  | rollback (d : Desc)
  | planStage (d : Desc)
  | connOpen (d : Desc)
  | connClose (d : Desc)
  | quiesceOwn (d : Desc)
  | quiesceAll (d : Desc)
  | quiesceRemote (d : Desc)
  | quiesceMessage (sender func : Nat) (quiesce : Bool)
  | resume (d : Desc)
  | watch (d : Desc)
  | watchDumpDone
  | compositionLoad (host : HostBytes) (domains : List DomainRec)
  | compositionCheckDone
  | flr (fn : Nat)
  | perstN
  | pwrGoodRise (rails : List (Nat × Nat))
  | pwrGoodFall
  | supplyFault (rail mv us : Nat)
  | pllLockTimeout (pll : Nat)
  | pllLockLoss (pll : Nat)
  | avsChange (temp target : Nat)
  | avsLate (mv : Nat)
  | dieWarn (sensor temp : Nat)
  | dieWarnEnd (sensor temp : Nat)
  | thermalTrip (onStack : Bool) (sensor temp : Nat)
  | coldReset
  | warmReset
  | bootStepComplete (r : BootReport)
  | shepherdSolo (core kind : Nat)
  | fallowEnter
  | wakeComplete
  | bistCurrentSample (amps mv mhz : Nat)
  | bistComplete (r : BistReport)
  | toTest
  | toProvisioned
  | toDeployed
  | toReturned
  | toDead
  | lcEraseComplete (bad : List (Nat × Nat × Nat))
  | countImageWrite (fn : Nat)
  | traceWrap
  | traceStatusWrite
  | traceLostRecord
  | readItem (fn : Nat) (arg : Word64)
  | readPlan (arg : Word64)
  | readSpares (arg : Word64)
  | readSnapshots (arg : Word64)
  | mailboxCommandEnd
  | smbusRead (off : Nat) (pec : Bool)
  | smbusWrite (off : Nat) (value : Word32) (pec : Bool)
  | dbMemDataRead
  | dbMemDataWrite (value : Word64)
  | rcRegisterRead (page : Option Nat) (off size : Nat)
  | registerWrite (page : Option Nat) (off size : Nat) (value : Word64)
  | jtagInstruction (code : JtagInstr)
  | jtagTrst
  | sysRstNRise
  | perstNRelease
  | hostLinkStateChange (up flit : Bool) (width rate : Nat)
  | connectionNumberReuse (conn : Nat)
  | ptpDelayReq (port : Nat) (txNs : Nat)
  | roceRetryTimeout (conn psn : Nat)
  | avsTargetSeen (mv : Nat)
  deriving DecidableEq, Repr

end Sys2Proof
end

