-- ==== Sys2Proof/Decode.lean ====
section
/-! DEFINITION. The decoder of the command table. No row of the table has bits: the block's commands are events and
register writes, and nothing spells them as words. -/

namespace Sys2Proof

/-- The command that a word of `nbits` bits spells by the command table: none, since no row gives bits. -/
def decodeTableWord (_nbits _w : Nat) : Option Instr := none

end Sys2Proof
end

