-- ==== Sys2Proof/Config.lean ====
section
/-! DEFINITION. What one implementation fixes and the spec leaves open: every constant here is opaque, so that
nothing proved of the model rests on a value of it. -/

namespace Sys2Proof.Config

/-- A byte of tile scratch that no command has written since the swath began is undefined (R93): tile, swath
number, scratch address. DESIGN CHOICE of form, assumption 7. -/
opaque scratchByte : Nat → Nat → Nat → BitVec 8
/-- A fresh 64-bit value that the spec leaves open, one for each value of the model's counter of free values
(assumption 8): a nonce (R441), a VOLUME_ID (Table FL-10), a starting PSN (R325). -/
opaque freshWord : Nat → BitVec 64
/-- The CODE of an event for which no table of the spec gives a code: event class, number of the cause
(assumption 9). -/
opaque eventCode : Nat → Nat → BitVec 8
/-- The SOURCE and DETAIL words of an event whose record fields no table of the spec gives: number of the cause,
which word, and what the event names (assumption 9). -/
opaque eventWord : Nat → Nat → List Nat → BitVec 64

/-- The connection that the plan gives to messages of a traffic class for a peer node: the records of FABRIC_GATES name
connections, and no record of the node ties a connection to a node id (assumption 14). -/
opaque planConn : Nat → Nat → Nat
/-- Where the peer's plan lands a message of a connection, and the operation word of its FINAL, in a tick: both belong to
the peer's plan (assumption 14). -/
opaque peerAddr : Nat → Nat → Nat
opaque peerSignal : Nat → Nat → BitVec 64
/-- A class's share of a port's ingress buffer, bytes: port, class (assumption 15). -/
opaque ingressShare : Nat → Nat → Nat
/-- The TK_NODE_ID of the peer of a connection, which CONNECTION events report (assumption 14). -/
opaque peerNode : Nat → Nat

/-- Where the plan's program lets a work item find its delivery block and leave its results (Table WA-8), as the plan lays
them out for a query or lookup slot of a function and class; no record of the image names them (assumption 18). Which of
0 STILE, 1 destination tile, 2 DST_ADDR, 3 LUT tile, 4 LUT address, 5 LUT-ready cycle; function, class, slot, burrow. -/
opaque itemPlan : Nat → Nat → Nat → Nat → Nat → Nat

/-- The probe count of a search class, and the issue cycles that its forced burrow path needs, by which validation judges
a forced split (R23, R139); no record of the image gives them (assumption 20). Function, class; and index. -/
opaque probeCount : Nat → Nat → Nat
opaque burrowDemand : Nat → Nat → Nat → Nat

/-- How many items of an update class the plan lets one apply take: R240 says that the plan fixes the number, and no record
of the image gives it (assumption 20). Plan image, function, class. -/
opaque applyCount : List (BitVec 8) → Nat → Nat → Nat

/-- The PRPG seed of the mask ROM (R444, R449), which the spec does not give. -/
opaque romSeed : BitVec 64

end Sys2Proof.Config
end

