-- ==== Sys2Proof/Machine/Bits.lean ====
section
/-! DEFINITION. Bit fields, little-endian bytes (R10, R11), serial comparison, and the checks CRC-8 (R30),
CRC-32C (R157) and CRC-64. -/

namespace Sys2Proof.Machine

/-- Bits [lo + len − 1 : lo] of a word, as a number (R11). -/
def field (w : Nat) (lo len : Nat) : Nat := (w >>> lo) % 2 ^ len

/-- Bit `i` of a word. -/
def bitOf (w : Nat) (i : Nat) : Bool := w.testBit i

/-- A word built from fields: (lowest bit, width, value). Values are cut to their widths. -/
def word (fs : List (Nat × Nat × Nat)) : Word64 :=
  BitVec.ofNat 64 (fs.foldl (fun a f => a + (f.2.2 % 2 ^ f.2.1) * 2 ^ f.1) 0)

/-- 1 for true, 0 for false: a flag as a field. -/
def flag (b : Bool) : Nat := if b then 1 else 0

/-- The bytes of a number, lowest first (R10). -/
def leBytes : Nat → Nat → List Byte
  | 0, _ => []
  | n + 1, v => BitVec.ofNat 8 v :: leBytes n (v / 256)

/-- The number whose bytes, lowest first, are these (R10). -/
def leNat : List Byte → Nat
  | [] => 0
  | b :: r => b.toNat + 256 * leNat r

/-- The number whose bytes, highest first, are these (a published standard's order, R10). -/
def beNat (bs : List Byte) : Nat := bs.foldl (fun a b => a * 256 + b.toNat) 0

/-- The bytes of a number, highest first. -/
def beBytes (n v : Nat) : List Byte := (leBytes n v).reverse

/-- `n` bytes from offset `off` of a byte list; bytes beyond its end read as 0. -/
def bytesAt (bs : List Byte) (off n : Nat) : List Byte :=
  let got := (bs.drop off).take n
  got ++ List.replicate (n - got.length) 0

/-- The little-endian number of `n` bytes at offset `off`. -/
def natAt (bs : List Byte) (off n : Nat) : Nat := leNat (bytesAt bs off n)

/-- The 64-bit word at byte offset `off` of a record (R11). -/
def wordAt (bs : List Byte) (off : Nat) : Nat := natAt bs off 8

/-- The bytes of a record of 64-bit words. -/
def wordsBytes (ws : List Word64) : List Byte := ws.flatMap fun w => leBytes 8 w.toNat

/-- The 64-bit words of a record; a short last word is completed with zeros. -/
def bytesWords : Nat → List Byte → List Word64
  | 0, _ => []
  | n + 1, bs => BitVec.ofNat 64 (natAt bs 0 8) :: bytesWords n (bs.drop 8)

/-- Word `i` of a record of words; 0 where the record has none. -/
def nth (ws : List Word64) (i : Nat) : Nat := (ws.getD i 0).toNat

/-- A list cut into pieces of `n`. -/
def chunksOf {α : Type} (n : Nat) : Nat → List α → List (List α)
  | 0, _ => []
  | _ + 1, [] => []
  | k + 1, xs => xs.take n :: chunksOf n k (xs.drop n)

/-- Quotient rounded up. -/
def ceilDiv (a b : Nat) : Nat := (a + b - 1) / b

/-- Serial comparison in a space of 2^n: the forward distance from `a` to `b`. -/
def serialDist (n a b : Nat) : Nat := (b % 2 ^ n + 2 ^ n - a % 2 ^ n) % 2 ^ n

/-- One bit of an MSB-first CRC of width `n` with polynomial `poly`. -/
def crcBit (n poly : Nat) (c : Nat) (b : Bool) : Nat :=
  let top := (c.testBit (n - 1)) != b
  let c2 := (c * 2) % 2 ^ n
  if top then c2 ^^^ poly else c2

/-- The bits [hi : lo] of a word in transmission order, highest first. -/
def bitsMsb (w : Nat) (lo len : Nat) : List Bool :=
  (List.range len).map fun i => w.testBit (lo + len - 1 - i)

/-- CRC-8 of R30 over bits [63:8] of a frame: x⁸ + x² + x + 1, initial value 0, not inverted. -/
def crc8 (frame : Nat) : Nat := (bitsMsb frame 8 56).foldl (crcBit 8 0x07) 0

/-- One byte of an LSB-first (reflected) CRC with reflected polynomial `poly`. -/
def crcReflByte (poly : Nat) (c : Nat) (b : Byte) : Nat :=
  (List.range 8).foldl (fun a _ => if a % 2 = 1 then (a / 2) ^^^ poly else a / 2) (c ^^^ b.toNat)

/-- CRC-32C (Castagnoli) over bytes, reflected, initial value and final inversion all ones. -/
def crc32c (bs : List Byte) : Nat := (bs.foldl (crcReflByte 0x82F63B78) 0xFFFFFFFF) ^^^ 0xFFFFFFFF

end Sys2Proof.Machine
end

