-- ==== Sys2Proof/Machine/State.lean ====
section
/-! DEFINITION. The state of the node: every register, buffer, counter, mode and pin that the spec gives it, as
plain data; the queue of waiting commands; and the state after reset. -/

namespace Sys2Proof.Machine

/-! ## Events (12 R331, 14 R376) -/

/-- The event classes of Table HI-15. -/
inductive EvClass where
  | port | link | connection | media | memory | compute | tick | thermal | power | config
  deriving DecidableEq, Repr

/-- What raises an event. Each cause has its class and, where a table of the spec gives one, its code. -/
inductive Cause where
  -- TICK (02, 12 R308): no table gives these a code
  | lineLost | sourcesDiffer | edgeOff | startBehind | relockBehind | relockAhead | overrun | ptpLocked | ptpLost
  -- PORT, LINK, CONNECTION (Table FB-9)
  | portDown | portUp | pfcStorm | pfcStormEnd | laneDegrade | laneRestored
  | connFatal | connPeerReset | connAccess | mcastPartial
  -- MEDIA (10): no table gives these a code
  | dieState | mediaLost | segmentWarn | segmentPast | eraseTrouble | mediaRefill
  -- MEMORY (05, 15)
  | eccBlock | channelLoss | sheafFault | redirectStart | redirectEnd
  -- COMPUTE (04, 05, 11, 15, 16)
  | tileFault | unitFault | busFault | stileFlag | stileForeign | stileEntry | nodeFault | spareMapped | shepherdSolo
  -- THERMAL and POWER (Table PW-11)
  | dieWarn | dieWarnEnd | dieTrip | stackLevel5 | stackTrip
  | supplyFault | avsChange | avsLate | fallowEnter | fallowExit
  -- CONFIG (09, 06, 07, 14, 15)
  | ringHalt | txnAbort | hostLink | quiescePartial | solo | soloEnd | rejoinRefused | catchupDone
  | deadShare | tableMismatch | shedStep | shedRestore | exhaustive
  deriving DecidableEq, Repr

/-- A raised event, with the fields of its record (Table FB-8) and the function whose ring it goes to. -/
structure Event where
  tick : Word64
  cause : Cause
  fn : Nat
  source : Word32
  detail0 : Word64
  detail1 : Word64
  deriving DecidableEq, Repr

/-! ## Ticks (02) and PTP (12 R308) -/

/-- The phases of Table TK-3, with the time before the first boundary. -/
inductive Phase where
  | none | boundary | ingest | work | egress | guard
  deriving DecidableEq, Repr

/-- The tick source in use (SRC_USED of Table MP-7). -/
inductive Source where
  | none | line | beacon
  deriving DecidableEq, Repr

/-- The tick-line receiver (R29–R33). -/
structure Line where
  /-- in lock under R31 -/
  locked : Bool
  /-- good frames in a row while searching, 0–2 -/
  run : Nat
  /-- TICK of the last accepted frame -/
  tick40 : Nat
  /-- arrival of the last frame's first bit, ns -/
  lastAt : Nat
  /-- consecutive ignored frames while in lock -/
  ignored : Nat
  /-- ticks for which lock has held -/
  lockTicks : Nat
  /-- the edge that the last EDGE frame announces: its extended number and its instant, ns -/
  edge : Option (Word64 × Nat)
  /-- treated as lost under R41: a relock that gave a number behind the flywheel count -/
  refused : Bool
  deriving DecidableEq, Repr

/-- The root beacon as a tick source (R35, R36). -/
structure BeaconSource where
  /-- a valid root beacon came in this tick -/
  seen : Bool
  /-- consecutive ticks with a valid root beacon -/
  lockTicks : Nat
  /-- consecutive ticks without one -/
  missed : Nat
  /-- the edge that the last one announces: number and instant, ns -/
  edge : Option (Word64 × Nat)
  deriving DecidableEq, Repr

/-- What the node has heard from one peer's beacons (R35, R62). -/
structure PeerBeacon where
  node : Nat
  flags : Nat
  tick : Word64
  planDigest : Word64
  slack : Nat
  carried : Nat
  /-- ticks since the last beacon: 0 when this tick brought one -/
  age : Nat
  /-- it came in the tick that is running -/
  fresh : Bool
  deriving DecidableEq, Repr

/-- The tick, its sources and the node's beacon flags (02). -/
structure TickState where
  count : Word64
  lenCur : Nat
  lenNext : Nat
  lenSched : Option (Nat × Word64)
  phase : Phase
  src : Source
  line : Line
  beacon : BeaconSource
  peers : List PeerBeacon
  hold : Bool
  notAligned : Bool
  /-- accumulated worst-case holdover error, ps (R38) -/
  holdErrPs : Nat
  overrun : Bool
  straggler : Bool
  /-- slack of the last completed tick, µs, and of the last 16 -/
  slack : Nat
  slackHist : List Nat
  /-- slack of the running tick, once its guard phase has started -/
  slackNow : Option Nat
  /-- ticks of continued disagreement of the two sources (R37) -/
  diffRun : Nat
  /-- instant of the last edge on the node's time base, ns -/
  edgeNs : Nat
  lineErr : Word64
  beaconErr : Word64
  srcDiff : Word64
  lenErr : Word64
  /-- the last frame sent on TICK_OUT, and the bytes of the last beacon sent -/
  tickOut : Option Word64
  beaconOut : List Word64
  /-- last PPS_IN rising edge on the time base, ns (R33) -/
  pps : Option Nat
  /-- ticks run since the last cold or warm boot, for the 64-snapshot rule and the first swap (R428) -/
  swapped : Bool
  deriving DecidableEq, Repr

/-- The slave-only PTP clock (R308). -/
structure Ptp where
  locked : Bool
  /-- consecutive Sync messages with an offset below 100 ns, up to 16 -/
  good : Nat
  /-- the chosen master's Announce and the port it came on -/
  master : Option (PtpAnnounce × Nat)
  /-- a two-step Sync that waits for its Follow_Up: port, identity, sequence, arrival -/
  pendingSync : Option (Nat × PtpMsg)
  /-- transmit time of the outstanding Delay_Req: port, time -/
  delayReq : Option (Nat × Nat)
  /-- stamp and arrival of the last complete Sync -/
  lastSync : Option (Nat × Nat)
  /-- measured mean path delay, ns -/
  delay : Nat
  /-- offset from the master, ns -/
  offset : Int
  deriving DecidableEq, Repr

/-! ## Plans (02) -/

/-- One plan slot: the bytes of an image, and whether they passed validation. -/
structure PlanSlot where
  image : List Byte
  valid : Bool
  deriving DecidableEq, Repr

/-- The PLAN_STAGE whose image is being copied and validated (R49). -/
structure Staging where
  fn : Nat
  ring : Nat
  seq : Word64
  image : List Byte
  deriving DecidableEq, Repr

/-- The two plan slots and TK_PLAN_STATUS (02, Table MP-8). -/
structure PlanState where
  active : Option PlanSlot
  staging : Option PlanSlot
  validating : Option Staging
  reason : Nat
  section_ : Nat
  record : Nat
  /-- committed swap: DIGEST_0 and tick (R50) -/
  swap : Option (Word64 × Word64)
  deriving DecidableEq, Repr

/-! ## Configuration items and transactions (14 R382–R387, 19 R479) -/

/-- An item record (Table HI-18). -/
structure ItemRec where
  block : Nat
  func : Bool
  number : Nat
  reserved : Nat
  index : Nat
  v0 : Word64
  v1 : Word64
  v2 : Word64
  deriving DecidableEq, Repr

/-- An item instance in force: the function that set it (0 for a node-wide item), its values and the boundary that
applied them (Table MP-5). -/
structure Item where
  fn : Nat
  block : Nat
  number : Nat
  index : Nat
  v0 : Word64
  v1 : Word64
  v2 : Word64
  tick : Word64
  deriving DecidableEq, Repr

/-- An open transaction of a function: SEQ of its BEGIN, and the recorded SETs (R383). -/
structure Txn where
  fn : Nat
  beginSeq : Word64
  sets : List (Nat × Nat)
  deriving DecidableEq, Repr

/-- A validated COMMIT that waits for its boundary (R386). -/
structure Commit where
  fn : Nat
  ring : Nat
  seq : Word64
  beginSeq : Word64
  items : List ItemRec
  /-- item words of the result block: the keys that R387 returns -/
  keys : List Word64
  /-- host data that items name, read at COMMIT, one per item -/
  data : List (List Byte)
  result : Nat
  apply : Word64
  deriving DecidableEq, Repr

/-! ## Host interface (14) -/

/-- Ring states (Table HI-7). -/
inductive RingState where
  | disabled | enabled | draining | halted
  deriving DecidableEq, Repr

/-- One ring pair (Tables HI-5 to HI-9). -/
structure Ring where
  sqBase : Word64
  cqBase : Word64
  rsbAddr : Word64
  cfg : Word64
  resumeSeq : Word64
  state : RingState
  haltReason : Nat
  /-- SQ index of the next descriptor to fetch -/
  sqHead : Nat
  /-- last HI_SQ_TAIL written, and its value sampled at ingest -/
  tail : Nat
  sampled : Nat
  /-- SEQ expected next -/
  nextSeq : Word64
  /-- next CQ index, its phase bit, and the last HI_CQ_HEAD -/
  cqIdx : Nat
  phase : Bool
  cqHead : Nat
  acceptSeq : Word64
  acceptIdx : Nat
  doneSeq : Word64
  /-- descriptors at or below it complete LATE (R375) -/
  lateThrough : Option Word64
  /-- history of R369: the written SEQs that no HI_CQ_HEAD covers yet, oldest first; none before the first enable -/
  history : Option (List Word64)
  /-- a field of the ring status block changed; a completion was written in this window -/
  dirty : Bool
  wrote : Bool
  deriving DecidableEq, Repr

/-- An event ring or a receive ring (Table HI-5). -/
structure SideRing where
  base : Word64
  sbAddr : Word64
  cfg : Word64
  state : RingState
  haltReason : Nat
  /-- next index to write -/
  idx : Nat
  phase : Bool
  /-- the driver's doorbell: HEAD of the event ring, TAIL of the receive ring -/
  bell : Nat
  /-- event ring: entries written that HEAD has not freed -/
  used : Nat
  lost : Nat
  deriving DecidableEq, Repr

/-- What one function has besides its queues: its doorbell page (Tables HI-5, MP-13, MP-14), its quiesce flag and its
administration watermark. -/
structure Fn where
  id : Nat
  rings : List Ring
  ev : SideRing
  rx : SideRing
  foreign : Bool
  stSel : Nat
  /-- the nine counters of Table MP-14 -/
  counters : List Word64
  /-- MSI-X table, 64 entries of 16 bytes, and the pending bits -/
  msix : List (List Byte)
  pba : Word64
  quiesced : Bool
  /-- quiesce or resume that the next boundary applies -/
  quiesceNext : Option Bool
  adminMark : Option Word64
  deriving DecidableEq, Repr

/-- How a descriptor ended (Table HI-11). -/
structure Comp where
  status : Nat
  flags : Nat
  result : Word64
  deriving DecidableEq, Repr

/-- An accepted descriptor (R366, R370): where it came from, what it holds, and, once it has ended, its completion
and the host bytes that precede it. -/
structure Work where
  fn : Nat
  ring : Nat
  idx : Nat
  seq : Word64
  opcode : Nat
  cls : Nat
  words : List Word64
  admitTick : Word64
  late : Bool
  /-- the command of its opcode has run -/
  started : Bool
  done : Option Comp
  bufs : List (Nat × List Byte)
  /-- candidates scanned, for the class counts -/
  scanned : Nat
  /-- host reads of its data that failed (R355) -/
  readFails : Nat
  /-- admission slots of its function and class that it takes (R59, R221) -/
  slots : Nat
  /-- carried into the tick that runs (R57, R59) -/
  carried : Bool
  deriving DecidableEq, Repr

/-- The composition record in force (Tables HI-3 and HI-4) and the registers of Table MP-10. -/
structure Composition where
  record : Option (List Byte)
  recAddr : Word64
  recLen : Word32
  loading : Option (List Byte)
  busy : Bool
  done : Bool
  accepted : Bool
  reason : Nat
  loadIgnored : Word64
  fnSel : Nat
  deriving DecidableEq, Repr

/-- The PCIe link (Table MP-9): now, and as the last boundary took it (R356). -/
structure HostLink where
  up : Bool
  flit : Bool
  width : Nat
  rate : Nat
  lastWidth : Nat
  lastRate : Nat
  /-- PERST_N is asserted -/
  perst : Bool
  deriving DecidableEq, Repr

/-- A QUIESCE or RESUME with TARGET 2 that waits for its peer (R379). -/
structure RemoteQuiesce where
  fn : Nat
  ring : Nat
  seq : Word64
  peer : Nat
  func : Nat
  quiesce : Bool
  /-- the connection it went out on, the PSN of its last packet, and whether the connection has given up -/
  conn : Nat
  psn : Nat
  failed : Bool
  deriving DecidableEq, Repr

/-- The host interface. -/
structure HostIf where
  fns : List Fn
  work : List Work
  txns : List Txn
  commits : List Commit
  comp : Composition
  link : HostLink
  /-- MSI-X messages sent: function and vector, newest first -/
  msixSent : List (Nat × Nat)
  /-- the function's receive ring took a SEND in this tick, so its status block and vector are due -/
  rxDirty : List Nat
  /-- completed administration and update work, from which a completion is rebuilt after a reset (R375) -/
  past : List Work
  /-- remote quiesces in progress -/
  remoteQuiesce : List RemoteQuiesce
  /-- peers whose quiesce or resume the next boundary applies and acknowledges -/
  quiesceAcks : List Nat
  deriving DecidableEq, Repr

/-! ## Stiles (11) -/

/-- Stile states (Table ST-1). -/
inductive StileState where
  | free | planned | function | quarantine
  deriving DecidableEq, Repr

/-- One stile: the fields of its state word (Table ST-1), what its STILE_ALLOC record adds (Table ST-10), and the tick
of the boundary that ends its quarantine (R282). -/
structure Stile where
  owner : Nat
  state : StileState
  homeKind : Nat
  gen : Nat
  misuse : Bool
  underflow : Bool
  overflow : Bool
  count : Nat
  home : Nat
  host : Bool
  remote : Bool
  init : Nat
  quarEnd : Word64
  deriving DecidableEq, Repr

/-- The stile engine. Stiles that are not listed are FREE at their reset values. -/
structure StileEngine where
  table : List (Nat × Stile)
  /-- FUNCTION stiles of a function under FLR, which enter QUARANTINE at the next boundary (R374) -/
  flrMarked : List Nat
  /-- stiles with a double-bit error, remapped at the next boundary (R300) -/
  broken : List Nat
  /-- counters 0–7 of Table ST-11, and spare entries in use -/
  counters : List Word64
  sparesUsed : Nat
  deriving DecidableEq, Repr

/-! ## Tiles (04) -/

/-- An entry of the selection register: its partition, sortable key and index. -/
structure SelEntry where
  part : Nat
  key : Nat
  idx : Nat
  deriving DecidableEq, Repr

/-- A scoreboard entry: a landing into scratch, its region, and whether its last byte has landed (R96). -/
structure Landing where
  id : Nat
  base : Nat
  len : Nat
  landed : Bool
  deriving DecidableEq, Repr

/-- The five counts of a command (R119). -/
structure Counts where
  sat : Nat
  nan : Nat
  sund : Nat
  range : Nat
  ecc : Nat
  deriving DecidableEq, Repr

/-- One logical tile (Table TL-1). -/
structure Tile where
  id : Nat
  /-- bytes written to scratch since the swath began; the others are undefined (R93) -/
  scratch : List Host.Cell
  /-- the candidates of the selection register, and its partitioning while it is not empty (R94) -/
  sel : List SelEntry
  part : Option Nat
  /-- records that wait behind a WAIT or a scoreboard hold, oldest first -/
  queue : List CmdRec
  /-- the scoreboard held the record at the head (R96) -/
  held : Bool
  /-- completion cycle of the last command, counted from the edge (R95) -/
  lastDone : Nat
  board : List Landing
  /-- counts and hold bit of the last completed command (R119, R455) -/
  counts : Counts
  hold : Bool
  /-- fenced after a fault until the next boundary (R391) -/
  fenced : Bool
  deriving DecidableEq, Repr

/-- A remote COPY in flight: landing number, destination tile and address, bytes, and the stile that SIGDONE
signals (R118). -/
structure RemoteCopy where
  id : Nat
  dst : Nat
  addr : Nat
  bytes : List Byte
  signal : Option (Nat × Nat)
  poisoned : Bool
  deriving DecidableEq, Repr

/-- The tile mesh. Tiles that are not listed are idle since the edge. -/
structure Mesh where
  tiles : List Tile
  copies : List RemoteCopy
  /-- number for the next landing -/
  nextId : Nat
  /-- swaths begun, which name the undefined contents of scratch (R93) -/
  epoch : Nat
  /-- physical tiles mapped out: column, physical row (R98) -/
  mappedOut : List (Nat × Nat)
  /-- links that run on their spare wire: physical tile row and column, direction (R99) -/
  spareWires : List (Nat × Nat × Nat)
  /-- corrected single-bit errors in flits, not owned by a command -/
  flitEcc : Word64
  deriving DecidableEq, Repr

/-! ## Warrens (05) -/

/-- What a burrow's micro-program waits for. -/
inductive BurrowWait where
  | none
  /-- LUTW: the half that must hold the current item's delivery block -/
  | lut (half : Nat)
  /-- WAITS: the stile and its threshold -/
  | stile (i t : Nat)
  deriving DecidableEq, Repr

/-- A work item bound to a burrow slot (Table WA-8), with the function, class, index or table and snapshot of the
query or lookup it belongs to. -/
structure BurrowItem where
  slot : Nat
  kind : Nat
  cap : Nat
  stile : Nat
  dstTile : Nat
  dstAddr : Nat
  lutTile : Nat
  lutAddr : Nat
  /-- the 8-byte entries of R136 -/
  entries : List Word64
  lutReady : Nat
  fn : Nat
  cls : Nat
  object : Nat
  snapshot : Word64
  /-- row items: FP32 weight of each entry, for RSUB -/
  weights : List Word32
  /-- row items: the number of leaves of the lookup's reduce tree -/
  leaves : Nat
  deriving DecidableEq, Repr

/-- One logical burrow (Tables WA-2 and WA-3). -/
structure Burrow where
  id : Nat
  /-- micro-program store -/
  store : List Word64
  /-- the slot that runs, and its next micro-op -/
  running : Option Nat
  pc : Nat
  wait : BurrowWait
  /-- items bound to slots, in bind order: slot number and item -/
  bound : List (Nat × BurrowItem)
  item : Option BurrowItem
  cursor : Nat
  /-- local top-k: entries kept of the entry last scanned -/
  topk : List (Nat × Nat)
  /-- LUT/state SRAM halves, their ready flags, and pulls under way: half and what is pulled -/
  lut0 : List Byte
  lut1 : List Byte
  ready0 : Option Nat
  ready1 : Option Nat
  /-- the half that the current item's scans read -/
  half : Nat
  /-- cursor position of the entry last scanned -/
  last : Nat
  pulls : List (Nat × BurrowItem)
  basePairs : List Byte
  filter : List Byte
  /-- planned bus copy landing area, 64 words (512 bytes) -/
  landing : List Word64
  /-- counts, candidates scanned and issue cycles of the current slot -/
  counts : Counts
  scanned : Nat
  cycles : Nat
  fenced : Bool
  deriving DecidableEq, Repr

/-- One memory stack and its warren (Table WA-12). -/
structure Stack where
  temp : Nat
  power : Nat
  level : Nat
  thermal : Nat
  powerLevel : Nat
  doubleRefresh : Bool
  /-- physical units that failed or were mapped out, in that order -/
  failed : List Nat
  /-- units that the last cold boot mapped out, and logical channels that have moved since, each to its unit -/
  bootOut : List Nat
  moved : List (Nat × Option Nat)
  secondLoss : Bool
  spareUsed : Bool
  /-- logical channel whose spare unit is being refilled -/
  refill : Option Nat
  /-- next offset of that channel to be read from the partner -/
  refillNext : Nat
  eccCorr : Word64
  throttleTicks : Word64
  level5Tick : Option Word64
  /-- uncorrectable blocks: logical channel and tick -/
  badBlocks : List (Nat × Word64)
  deriving DecidableEq, Repr

/-- The warrens. Burrows that are not listed hold no program and no item. -/
structure Warren where
  dram : List Stack
  burrows : List Burrow
  /-- stacks whose bus is resending a message after a parity error (Table WA-10) -/
  resending : List Nat
  deriving DecidableEq, Repr

/-! ## Sheaves and capacity (06) -/

/-- A sheaf move under way (R168): its number, the tile and record that started it when a tile did, the engine's
staged bytes of an SHSTORE, and whether it has been retried (Table TI-6). -/
structure Move where
  num : Nat
  tile : Option Nat
  landing : Nat
  dst : Nat
  aux : Nat
  stile : Nat
  value : Nat
  /-- SHSTORE: header copy and payload taken from scratch -/
  staged : Option (List Byte × List Byte)
  retried : Bool
  tick : Word64
  deriving DecidableEq, Repr

/-- Moves under way, bindings of tile sheaf slots, and the capacity of the tiers. -/
structure Tiers where
  moves : List Move
  /-- bindings of tile sheaf slots in this tick: slot, function, object, list id -/
  bindings : List (Nat × Nat × Nat × Nat)
  /-- capacity in force: per stack logical channels with full contents; T2, and T3R and T3W, in
  MB/s as fractions -/
  channels : List Nat
  capT2 : Nat × Nat
  capT3 : Nat × Nat
  /-- T1 regions in use: logical channel, offset, length, function, object -/
  allocs : List (Nat × Nat × Nat × Nat × Nat)
  /-- regions that nothing but retained snapshots refer to: node address, tick from which no new work does -/
  retired : List (Nat × Word64)
  /-- shedding steps taken, in the order taken, and the factor of step 5 (R175) -/
  shed : List Nat
  shedNum : Nat
  shedDen : Nat
  deriving DecidableEq, Repr

/-! ## Counters, trace and watches (18) -/

/-- The class counts of Table OB-4 for one function and class. -/
structure ClassCounts where
  fn : Nat
  cls : Nat
  words : List Word64
  deriving DecidableEq, Repr

/-- The trace engine (R460–R463). -/
structure Trace where
  /-- instant at which the tile PLL first locked, ns on the time base -/
  start : Option Nat
  epoch : Word64
  /-- records staged: TIME, ENGINE rank, word 0, word 1 -/
  staged : List (Nat × Nat × Word64 × Word64)
  lost : Nat
  lostTime : Nat
  written : Word64
  sinceStatus : Nat
  deriving DecidableEq, Repr

/-- An admitted or armed watch (R464). -/
structure Watch where
  fn : Nat
  ring : Nat
  seq : Word64
  armed : Bool
  dump : Bool
  atTick : Bool
  tRing : Nat
  tensor : Nat
  object : Nat
  target : Word64
  first : Nat
  count : Nat
  raddr : Nat
  daddr : Nat
  dlen : Nat
  /-- a DUMP that has fired: the bytes still to write -/
  dumping : Option (List Byte)
  deriving DecidableEq, Repr

/-- The observing hardware. -/
structure Obs where
  /-- Table OB-3, words 0 to 20 -/
  totals : List Word64
  classes : List ClassCounts
  /-- count images: function, SINCE, IMAGE_SEQ -/
  images : List (Nat × Word64 × Word64)
  trace : Trace
  watches : List Watch
  deriving DecidableEq, Repr

/-! ## Faults, redirects and membership (15) -/

/-- Parts that a spare of Table FS-2 replaces at a boundary. -/
inductive Part where
  /-- physical tile: column and physical row -/
  | tile (x p : Nat)
  /-- mesh link wire: physical tile column and row, direction -/
  | wire (x p d : Nat)
  /-- burrow unit and its DRAM channel: stack and physical unit -/
  | unit (stack u : Nat)
  | stile (i : Nat)
  | die (d : Nat)
  deriving DecidableEq, Repr

/-- A redirect of a logical channel to the partner (R397): first tick, whether it lasts for the replay only, the
partner. -/
structure Redirect where
  chan : Nat
  start : Word64
  replayOnly : Bool
  partner : Nat
  deriving DecidableEq, Repr

/-- A shard domain in a front node's routing table: its two nodes and their routing weights (R62), and whether SOLO
holds (R402). -/
structure Domain where
  shard : Nat
  node0 : Nat
  node1 : Nat
  w0 : Nat
  w1 : Nat
  solo : Bool
  deriving DecidableEq, Repr

/-- What the node does to rejoin its domain (R405, R406). -/
inductive Rejoin where
  | none
  /-- catching up: the next tick whose batch is needed, batches applied, tick at which the node fell behind -/
  | catchUp (nextTick : Word64) (applied : Nat) (since : Word64) (live : Option Word64)
  /-- being seeded from the partner -/
  | seeding
  /-- REJOIN_REFUSED: out of routing until the next re-composition -/
  | refused
  deriving DecidableEq, Repr

/-- Faults that wait for the next boundary, spares in use, redirects, routing. -/
structure FaultState where
  /-- parts fenced since they failed, decided at the next boundary (R391, R392) -/
  fenced : List Part
  /-- spares in use: pool of Table FS-2 counted from 1, physical part, logical part; as configuration flash keeps
  them -/
  mapped : List (Nat × Nat × Nat)
  redirects : List Redirect
  domains : List Domain
  rejoin : Rejoin
  /-- the peer of this domain has been lost since this tick, and its log records are kept (R405) -/
  peerLost : Option Word64
  keepLog : Bool
  /-- redirect responses that leave in window B of this tick: the node that asked, the message (R397) -/
  serving : List (Nat × List Byte)
  deriving DecidableEq, Repr

/-! ## Power, clocks, reset, boot, fallow (16) -/

/-- Which shepherd cores run (R432). -/
inductive Shepherd where
  | both | primary | twin
  deriving DecidableEq, Repr

/-- Power, clocks, reset and boot. -/
structure Power where
  /-- STEP, FAIL and DETAIL of Table PW-7 -/
  step : Nat
  fail : Nat
  detail : Nat
  pwrGood : Bool
  sysRstN : Bool
  /-- rails 0–6: reading in mV, current in 100 mA -/
  rails : List (Nat × Nat)
  dieTemp : Nat
  avsTarget : Nat
  avsOld : Nat
  avsRead : Nat
  avsPending : Bool
  thermWarn : Bool
  trip : Bool
  /-- PW_RESET_COUNT, two halves -/
  resetBad : Nat
  restarts : Nat
  /-- the fallow item asks for fallow; fetching has stopped (R27) -/
  fallowAsked : Bool
  /-- tick of entry while fallow -/
  fallowSince : Option Word64
  /-- instant at which wake began, ns on the time base (R434) -/
  wakeNs : Option Nat
  shepherd : Shepherd
  /-- the boot in progress or last run was warm; a BIST has passed since the last cold reset (R448) -/
  warm : Bool
  bistPassed : Bool
  /-- erases that power-down suspended (R415) -/
  clocksStopped : Bool
  deriving DecidableEq, Repr

/-! ## Built-in self-test and life cycle (17) -/

/-- Life-cycle states (Table BT-1). -/
inductive LcState where
  | blank | test | provisioned | deployed | returned | dead
  deriving DecidableEq, Repr

/-- BIST and life cycle (Tables BT-5 to BT-7). -/
structure SelfTest where
  lc : LcState
  keyFused : Bool
  keyHash : List Byte
  erasePending : Bool
  /-- target of an erase under way -/
  eraseTo : Option LcState
  /-- a state fused at once that takes effect at the next cold boot -/
  nextLc : Option LcState
  nonce : Word64
  refused : Word64
  auth : List Byte
  code : Nat
  arg : Nat
  peak : Nat
  tripGroup : Nat
  fallback : Bool
  uncoreFail : Bool
  done : Bool
  running : Bool
  timeMs : Nat
  cfg : Word64
  seed : Word64
  groupSig : List Word64
  /-- failed tiles: column, physical row -/
  tileFail : List (Nat × Nat)
  board : List Byte
  /-- BT_ILIMIT in A as the last BIST step took it (Table MP-11) -/
  limit : Nat
  /-- supply samples taken since the BIST step began: ten of the check, then 400 to a run (R445, R447) -/
  samples : Nat
  /-- blocks whose life-cycle erase failed, as configuration flash keeps them: die, plane, block (R442) -/
  badBlocks : List (Nat × Nat × Nat)
  /-- JTAG instruction in force (R499) -/
  jtag : JtagInstr
  deriving DecidableEq, Repr

/-! ## Set-up registers not given elsewhere (19) -/

/-- Registers of the mailbox, identification, selection windows, debug block and SMBus. -/
structure Regs where
  serialLo : Word64
  serialHi : Word64
  macBase : Word64
  avsFuse : Nat
  badAccess : Word64
  mbxCmd : Word64
  mbxArg : Word64
  /-- SH_MBX_STATUS: STATE 0–3 and ERROR -/
  mbxState : Nat
  mbxError : Nat
  mbxResp : List Word64
  mbxIgnored : Word64
  stSel : Nat
  dbAddr : Word64
  /-- the latched high half of an SMBus read, with the offset that returns it -/
  smbusLatch : Option (Nat × Word32)
  /-- what the last read of a register, a stile or the mailbox returned -/
  readData : Word64
  deriving DecidableEq, Repr

/-! ## Vector search (07) and selection (08) -/

/-- A row of a matrix kind as the node holds it: stored bytes and effective scale in FP32 (1.0 where the format has
none). -/
structure FpRow where
  row : Nat
  bytes : List Byte
  scale : Word32
  deriving DecidableEq, Repr

/-- An index of a function (Table VS-1, R177–R182). -/
structure Index where
  fn : Nat
  obj : Nat
  metric : Nat
  dims : Nat
  vfmt : Nat
  scale : Nat
  cfmt : Nat
  code : Nat
  cells1 : Nat
  cells2 : Nat
  /-- IX_CELLMAP's bytes, and the logical channel of each first-level cell -/
  cellmap : List Byte
  attr : Word64
  delta : Nat
  shard : Nat
  deadWarn : Nat
  /-- fixed when the last CENTROIDS or CODEBOOK row lands (R179) -/
  digest : Option Word64
  cents : List FpRow
  books : List FpRow
  /-- node address of the LHEADS sheaf of each first-level cell -/
  cellBase : List Nat
  /-- apply tick, list and position of the kills of the last 64 applies (R240) -/
  kills : List (Word64 × Nat × Nat)
  /-- apply tick and list of the inserts of those applies, which an older snapshot does not see -/
  adds : List (Word64 × Nat)
  /-- whole percent that DEAD_SHARE last reported (R182) -/
  shareTold : Option Nat
  /-- SEQ of the transaction that created it (R375) -/
  txnSeq : Word64
  /-- removed by IX_DROP; it stays for the carried work that refers to it (R25, R177) -/
  dropped : Bool
  deriving DecidableEq, Repr

/-- A candidate in a merged list: sortable key, list, position, EFLAGS (Table VS-13). -/
structure Cand where
  key : Nat
  list : Nat
  pos : Nat
  eflags : Nat
  deriving DecidableEq, Repr

/-- A shard result as it stands at the front node: entries with their vector ids, and its header's counts. -/
structure ShardRes where
  shard : Nat
  status : Nat
  flags : Nat
  snap : Word64
  snapHi : Word64
  scanned : Nat
  passed : Nat
  reranked : Nat
  gleaned : Nat
  lost : Nat
  /-- sortable key, vector id, EFLAGS -/
  entries : List (Nat × Word64 × Nat)
  deriving DecidableEq, Repr

/-- What a search asks (Tables VS-8 and VS-11). -/
structure Ask where
  seq : Word64
  fn : Nat
  index : Nat
  cls : Nat
  k : Nat
  nprobe : Nat
  rerank : Nat
  exDepth : Nat
  qfmt : Nat
  query : List Byte
  /-- 128-byte filter program; empty when none -/
  filter : List Byte
  lists : List Nat
  digest : Word64
  local_ : Bool
  reissue : Bool
  front : Nat
  tick : Word64
  deriving DecidableEq, Repr

/-- A search at its front node. -/
structure FrontQuery where
  ring : Nat
  ask : Ask
  cells : Nat
  raddr : Nat
  tag : Word32
  /-- shard, replica asked last, tick of that asking, result -/
  shards : List (Nat × Nat × Word64 × Option ShardRes)
  /-- the coarse stage has run and the shard queries have been sent -/
  sent : Bool
  /-- flags that the front's own stages give -/
  flags : Nat
  deriving DecidableEq, Repr

/-- A re-rank read that a shard query waits for: its flash read, the candidate, the pieces still out, the bytes read. -/
structure RerankWait where
  cand : Nat
  readIds : List Nat
  got : List (Nat × List Byte)
  scale : Word32
  norm : Word32
  crc : Word32
  failed : Bool
  deriving DecidableEq, Repr

/-- A shard query at a shard node: its number here; `own` marks a query of this node's own front part, with its ring. -/
structure ShardJob where
  id : Nat
  ask : Ask
  own : Bool
  ring : Nat
  /-- tick of the snapshot, once it has one -/
  snap : Option Word64
  scanned : Bool
  /-- pairs that passed more than CAP candidates, for R196, and whether they are to be scanned again with a cap of k -/
  overCap : List Nat
  rescan : Bool
  merged : List Cand
  scannedCount : Nat
  passedCount : Nat
  waits : List RerankWait
  reranked : Nat
  gleaned : Nat
  lost : Nat
  flags : Nat
  /-- the run of an EXHAUSTIVE span that comes next, from 1 (R206) -/
  run : Nat
  carried : Bool
  late : Bool
  deriving DecidableEq, Repr

/-- A select in progress (R220–R223). -/
structure SelectJob where
  fn : Nat
  ring : Nat
  seq : Word64
  tick : Word64
  k : Nat
  rows : Nat
  len : Nat
  fmt : Nat
  desc : Bool
  iaddr : Nat
  raddr : Nat
  tag : Word32
  input : List Byte
  landed : Bool
  retried : Bool
  deriving DecidableEq, Repr

/-- Vector search and selection. -/
structure Search where
  indexes : List Index
  front : List FrontQuery
  shard : List ShardJob
  selects : List SelectJob
  /-- shard results ready to leave in the next egress window: the query, and the ring of a query of this node's own front
  part -/
  outResults : List (Ask × Option Nat × ShardRes)
  /-- snapshot ticks retained for carried work (R60) -/
  snapshots : List Word64
  /-- partial lists that redirected channels owe: number of the shard query here, logical channel (R397) -/
  redirected : List (Nat × Nat)
  /-- number of the next shard query -/
  nextJob : Nat
  deriving DecidableEq, Repr

/-! ## Tables and updates (09) -/

/-- A history entry of a table row (R237): local row, tick of the apply that replaced it, bytes, scale, dead bit. -/
structure HistRow where
  row : Nat
  tick : Word64
  bytes : List Byte
  scale : Word32
  dead : Bool
  deriving DecidableEq, Repr

/-- A table of a function (Table TU-1, R224–R228, R242). -/
structure TableDef where
  fn : Nat
  obj : Nat
  pkey : Bool
  rows : Nat
  elems : Nat
  fmt : Nat
  scale : Nat
  range : Bool
  owners : Nat
  /-- node ids of replica 0 and replica 1 of each owner's domain -/
  nodes : List (Nat × Nat)
  bounds : List Nat
  self : Option Nat
  history : Nat
  keys1 : Nat
  keys2 : Nat
  dims : Nat
  kfmt : Nat
  /-- node address of the table's region and of its dead bitmap in each logical channel -/
  base : List Nat
  deadBase : List Nat
  gen : Word32
  /-- generations left at recent applies: tick of the apply and the generation before it -/
  gens : List (Word64 × Word32)
  /-- pass in progress: generation, ARG, items applied (R242) -/
  pass : Option (Word32 × Word64 × Nat)
  hist : List HistRow
  subkeys : List FpRow
  /-- drop counters NEGATIVE, RANGE, UNOWNED, DEAD (R230) -/
  drops : List Word64
  txnSeq : Word64
  /-- removed by TB_DROP; it stays for the carried lookups that refer to it (R224) -/
  dropped : Bool
  deriving DecidableEq, Repr

/-- What a lookup knows of one of its rows. -/
inductive RowState where
  | wanted
  | placed (bytes : List Byte) (scale : Word32) (gen : Word32)
  | dead
  | dropped
  | missing
  deriving DecidableEq, Repr

/-- One row of a lookup: table row, HOST weight or SCORE, its owner and how it stands. -/
structure LookRow where
  row : Nat
  score : Word32
  owner : Option Nat
  st : RowState
  deriving DecidableEq, Repr

/-- A lookup in progress (R229–R237). -/
structure Lookup where
  fn : Nat
  ring : Nat
  seq : Word64
  cls : Nat
  table : Nat
  pk : Bool
  ofmt : Nat
  wmode : Nat
  k : Nat
  want : Nat
  raddr : Nat
  tag : Word32
  tick : Word64
  rows : List LookRow
  dropped : Nat
  nan : Bool
  /-- saturations counted so far -/
  sats : Nat
  /-- drops so far: NEGATIVE, RANGE, UNOWNED, DEAD (R230, R459) -/
  drops : List Nat
  /-- a row item of it was spilled in this tick (R138) -/
  spilled : Bool
  /-- replica asked last of each owner, for a carried lookup -/
  asked : List (Nat × Nat)
  late : Bool
  deriving DecidableEq, Repr

/-- An update item, as its log record holds it (R244), with the format of a ROWWRITE's payload and the class. -/
structure UpItem where
  origin : Nat
  fn : Nat
  ring : Nat
  seq : Word64
  item : Nat
  op : Nat
  obj : Nat
  cls : Nat
  target : Word64
  pass : Word32
  scale : Word32
  attr : Word64
  payload : List Byte
  dfmt : Nat
  tick : Word64
  held : Bool
  deriving DecidableEq, Repr

/-- The outcome of an update descriptor (R243). -/
structure UpResult where
  origin : Nat
  fn : Nat
  ring : Nat
  seq : Word64
  tick : Word64
  status : Nat
  words : List (Nat × Word64)
  applied : Nat
  late : Bool
  saturated : Bool
  /-- not yet complete: waits for the partner's LOGGED (R239) -/
  open_ : Bool
  deriving DecidableEq, Repr

/-- A LOAD that waits for its tick (R240): its sheaves as they landed. -/
structure LoadJob where
  fn : Nat
  ring : Nat
  seq : Word64
  obj : Nat
  count : Nat
  daddr : Nat
  raddr : Nat
  tag : Word32
  arg : Word64
  /-- header and uncompressed payload of each sheaf that has passed its check -/
  landed : List (List Byte × List Byte)
  /-- host address of the next sheaf, and whether its landing has failed once -/
  next : Nat
  failed : Bool
  deriving DecidableEq, Repr

/-- A request message that an owner has taken in window A: sender, entries (Table TU-6). -/
structure ExchReq where
  sender : Nat
  tick : Word64
  entries : List (Word64 × Word64)
  deriving DecidableEq, Repr

/-- Tables, lookups and updates. -/
structure Tables where
  defs : List TableDef
  lookups : List Lookup
  requests : List ExchReq
  /-- updates fetched or taken, in order, that no apply has taken yet -/
  queue : List UpItem
  results : List UpResult
  loads : List LoadJob
  /-- lists that compaction writes in this tick: function, index, list (R241) -/
  compacting : List (Nat × Nat × Nat)
  /-- last partner batch taken, last tick whose partner records are durable here, LOGGED last received -/
  partnerTick : Option Word64
  loggedHere : Option Word64
  loggedThere : Option Word64
  lagging : Bool
  /-- origin, function, ring, highest SEQ applied (R245) -/
  watermarks : List (Nat × Nat × Nat × Word64)
  duplicates : Word64
  /-- table and owner for which TABLE_MISMATCH was raised in this tick -/
  mismatched : List (Nat × Nat × Nat)
  /-- ticks for which the requests and the responses of the exchange have been sent -/
  exchA : Option Word64
  exchB : Option Word64
  deriving DecidableEq, Repr

/-! ## Flash (10) -/

/-- Die states (Table FL-4). -/
inductive DieState where
  | absent | good | failed | retired
  deriving DecidableEq, Repr

/-- A die in the state of Table FL-14. Dies that are not listed are ABSENT. -/
structure Die where
  id : Nat
  state : DieState
  rebuild : Bool
  volume : Nat
  mtS : Nat
  /-- reserve blocks left in each of the four planes -/
  reserve : List Nat
  /-- ticks of its uncorrectable codewords (R255) -/
  bad : List Word64
  deriving DecidableEq, Repr

/-- What a superblock is doing. -/
inductive SbState where
  | free | open_ | full | erasing | unknown
  deriving DecidableEq, Repr

/-- A superblock: die set, plane, block, erase count, state, pages programmed. Superblocks that are not listed are
free with erase count 0. -/
structure Superblock where
  set : Nat
  plane : Nat
  block : Nat
  erases : Nat
  state : SbState
  /-- next stream page and byte of the stream -/
  page : Nat
  off : Nat
  /-- stream pages whose program is done -/
  programmed : List Nat
  /-- an erase on it is suspended -/
  suspended : Bool
  deriving DecidableEq, Repr

/-- A codeword on flash (R250): die set, plane, block, stream page, byte offset, user bytes and metadata. -/
structure Codeword where
  set : Nat
  plane : Nat
  block : Nat
  page : Nat
  off : Nat
  user : List Byte
  scale : Word32
  norm : Word32
  tag : Word32
  crc : Word32
  deriving DecidableEq, Repr

/-- A record of the insert log (R262): log sequence number, the record's bytes, where it stands, what vector it holds
(function, index, list, position) once it is applied, whether it is durable, whose it is. -/
structure LogEntry where
  lsn : Nat
  bytes : List Byte
  set : Nat
  plane : Nat
  block : Nat
  page : Nat
  /-- byte offset of its first codeword in the stream page -/
  off : Nat
  durable : Bool
  partner : Bool
  vec : Option (Nat × Nat × Nat × Nat)
  deriving DecidableEq, Repr

/-- A segment of a list (R257, R263). -/
structure Segment where
  fn : Nat
  obj : Nat
  list : Nat
  map : Nat
  writeTick : Word64
  gen : Word32
  warned : Bool
  /-- tick of the last event past the bound -/
  pastTick : Option Word64
  deriving DecidableEq, Repr

/-- A lost codeword (R254, R275): where it stands, the vector id it holds, the BLOCK_CRC recorded, and how its refill
stands: none, asked in a tick, refilled with a log number from a tick on, given up. -/
inductive RefillState where
  | none
  | asked (tick : Word64)
  | refilled (lsn : Nat) (fromTick : Word64)
  | gaveUp
  deriving DecidableEq, Repr

structure LostWord where
  fn : Nat
  obj : Nat
  vid : Word64
  crc : Word32
  refill : RefillState
  deriving DecidableEq, Repr

/-- A planned re-rank read (R260, R261): number, class, whose it is (shard query, candidate), vector id and piece,
the codeword, and whether it has been issued. -/
structure FlashRead where
  id : Nat
  fn : Nat
  cls : Nat
  job : Nat
  cand : Nat
  vid : Word64
  piece : Nat
  set : Nat
  plane : Nat
  block : Nat
  page : Nat
  off : Nat
  issued : Bool
  /-- its piece has come back and passed its checks -/
  returned : Bool
  retries : Nat
  deriving DecidableEq, Repr

/-- A mounted volume: WEAR_MODE, die sets, VOLUME_ID and tick of FORMAT (Table FL-10). -/
structure Volume where
  format : Nat
  wear : Nat
  diesets : Word32
  volumeId : Word32
  formatTick : Word64
  deriving DecidableEq, Repr

/-- A journal record (Table FL-11). -/
structure JRec where
  type : Nat
  serial : Nat
  tick : Word64
  args : List Word64
  deriving DecidableEq, Repr

/-- A FORMAT in progress: descriptor, die sets, superblocks still to erase. -/
structure FormatJob where
  fn : Nat
  ring : Nat
  seq : Word64
  mask : Nat
  deriving DecidableEq, Repr

/-- The flash tier. -/
structure Flash where
  dies : List Die
  sbs : List Superblock
  vols : List Volume
  words : List Codeword
  log : List LogEntry
  nextLsn : Nat
  /-- log superblock that is open: die set, plane, block -/
  logOpen : Option (Nat × Nat × Nat)
  /-- superblock that takes segments -/
  segOpen : Option (Nat × Nat × Nat)
  segs : List Segment
  lost : List LostWord
  reads : List FlashRead
  nextRead : Nat
  /-- codewords under reconstruction: die set, plane, block, stream page, offset -/
  recon : List (Nat × Nat × Nat × Nat × Nat)
  /-- codewords that reconstruction has given back, which later reads take from it (R253) -/
  rebuilt : List FlashPlace
  formats : List FormatJob
  serial : Nat
  /-- records of this tick, and the records that both copies hold -/
  jPending : List JRec
  journal : List JRec
  /-- tick of the newest checkpoint, and of the newest root page -/
  checkpoint : Option Word64
  rootPage : Option Word64
  /-- bad blocks replaced: die, plane, block, reserve block -/
  remaps : List (Nat × Nat × Nat × Nat)
  /-- uncorrectable codewords of a block: die, plane, block, tick (R268) -/
  blockBad : List (Nat × Nat × Nat × Word64)
  /-- a write refused for overprovisioning has raised its event in this tick (R269) -/
  opTold : Bool
  /-- planned reads issued in this tick: function, class, number (R260) -/
  issued : List (Nat × Nat × Nat)
  counters : List Word64
  deriving DecidableEq, Repr

/-! ## Fabric (12) -/

/-- Kinds of connection (Table HI-15A); system and plan connections are Ludom connections with `sys` set. -/
inductive ConnKind where
  | roceRc | ordered | relaxed | udGroup
  deriving DecidableEq, Repr

/-- What a connection is doing: it opens at the next boundary; it waits for CONNECT_ACK; it is established; in error;
it closes at the next boundary. -/
inductive ConnState where
  | opening | connecting | open_ | error | closing
  deriving DecidableEq, Repr

/-- A packet that waits for its acknowledgement: PSN, header and payload, times sent, whether the current FB_RTO has
seen a resend for a gap (R319), and the multicast write and member it belongs to. -/
structure SentPkt where
  psn : Nat
  bytes : List Byte
  tries : Nat
  resent : Bool
  mcast : Option (Nat × Nat)
  deriving DecidableEq, Repr

/-- An open batch of a receiver (R318): its number, arrival of its first write, settled writes, whether one was
refused, and a FINAL that waits. -/
structure RxBatch where
  num : Nat
  firstNs : Nat
  settled : Nat
  failed : Bool
  final : Option (List Byte × Nat)
  deriving DecidableEq, Repr

/-- A RoCE message in progress at a receiver: bytes of a SEND so far, or the target of a WRITE. -/
structure RxMsg where
  send : List Byte
  va : Nat
  rkey : Nat
  left : Nat
  deriving DecidableEq, Repr

/-- A read that this node has outstanding: PSNs still to come, node address that the data goes to. -/
structure OwnRead where
  first : Nat
  count : Nat
  addr : Nat
  deriving DecidableEq, Repr

/-- A connection context (R315–R329, R380). -/
structure Conn where
  num : Nat
  fn : Nat
  kind : ConnKind
  /-- configured by FB_SYSCONN: plan and system connections of function 0 -/
  sys : Bool
  tc : Nat
  ports : Nat
  port : Nat
  peerHi : Word64
  peerLo : Word64
  peerMac : Nat
  peerConn : Nat
  mtu : Nat
  qkey : Nat
  state : ConnState
  cgen : Nat
  nextPsn : Nat
  /-- next expected PSN, and PSNs placed beyond it -/
  expPsn : Nat
  placed : List Nat
  /-- packets since the last ACK -/
  sinceAck : Nat
  sent : List SentPkt
  nextBatch : Nat
  batches : List RxBatch
  /-- reads of the peer in service, and reads of this node -/
  serving : Nat
  reads : List OwnRead
  rx : RxMsg
  /-- CONTROL packets that may still be sent (R304) -/
  credits : Nat
  /-- send rate in Mb/s (R327); none while unlimited -/
  rate : Option Nat
  /-- a mark arrived since the last ACK; tick and instant of the last CNP sent -/
  ceEcho : Bool
  lastCnp : Option Nat
  marked : Bool
  /-- tick of the last ACCESS event -/
  accessTick : Option Word64
  /-- resident context; a spilled context is on chip, and modified -/
  resident : Bool
  cached : Bool
  dirty : Bool
  deriving DecidableEq, Repr

/-- A multicast write in progress (R324): its number, group, tick, members' connections and delivery bitmap. -/
structure McastWrite where
  id : Nat
  group : Nat
  tick : Word64
  members : List Nat
  delivered : Nat
  given : Nat
  deriving DecidableEq, Repr

/-- What an entry of the RMA region table is doing (R311, R312). -/
inductive RmaState where
  | free | used | quarantine
  deriving DecidableEq, Repr

/-- An entry of the RMA region table. Entries that are not listed are free with GEN 0. -/
structure Rma where
  entry : Nat
  state : RmaState
  fn : Nat
  slot : Nat
  base : Nat
  len : Nat
  stile : Bool
  rights : Nat
  tag : Nat
  gen : Nat
  quarEnd : Word64
  deriving DecidableEq, Repr

/-- A port (Table FB-11, R304–R307): failed lanes, classes paused by the partner, classes in storm, ingress occupancy
of each class, classes for which XOFF has been sent, and the counters of Table FB-12. -/
structure Port where
  up : Bool
  degraded : Bool
  half : Nat
  failed : Nat
  paused : Nat
  storm : Nat
  occ : List Nat
  xoff : Nat
  counters : List Word64
  deriving DecidableEq, Repr

/-- A message of the plan, given to the plan's connection of a class: class, peer node, bytes. -/
structure OutMsg where
  tc : Nat
  node : Nat
  bytes : List Byte
  deriving DecidableEq, Repr

/-- A packet that waits for the context of its connection (R329). -/
inductive WaitPkt where
  | ludom (conn port tc : Nat) (pkt : List Byte) (atNs : Nat)
  | roce (conn op code : Nat) (p : RocePkt)
  deriving DecidableEq, Repr

/-- The fabric. -/
structure Fabric where
  ports : List Port
  counters : List Word64
  conns : List Conn
  /-- released numbers that are not given out again: number, last CGEN, tick of the end (R321) -/
  released : List (Nat × Nat × Word64)
  rma : List Rma
  mcast : List (Nat × List Nat)
  mwrites : List McastWrite
  nextMcast : Nat
  /-- cached spilled connections, least recently used first, and packets that wait for a context -/
  lru : List Nat
  waiting : List WaitPkt
  /-- messages of the plan in the order given, newest last -/
  out : List OutMsg
  /-- FB_RESIDENT, FB_CTX_BASE and FB_CTX_COUNT as the last cold boot took them (Table FB-10) -/
  residents : Nat
  ctxBase : Nat
  ctxCount : Nat
  /-- system connections whose retry is due (R330) -/
  retrying : List Nat
  deriving DecidableEq, Repr

/-! ## Egress (13) -/

/-- A frame in a class queue: the connection it belongs to, its length from destination address to FCS, its bytes as
given to the port. -/
structure EgFrame where
  conn : Option Nat
  len : Nat
  bytes : List Byte
  /-- the last response of a read in service -/
  endsRead : Bool
  deriving DecidableEq, Repr

/-- The egress of one port: queues TC0–TC7, deficits and place in the round of TC0–TC5, shaper buckets, end of the frame
in progress (ps from the edge), whether the head of each queue has been counted as a gate wait, counters of Table
EG-6. -/
structure EgPort where
  queues : List (List EgFrame)
  deficits : List Nat
  round : Nat
  /-- the visit of the round in which the class at `round` has taken its quantum -/
  visiting : Bool
  buckets : List Nat
  busyPs : Nat
  waited : List Bool
  counters : List (List Word64)
  deriving DecidableEq, Repr

/-- A function's policer: bucket and FB_POLICE_DROP. -/
structure Policer where
  fn : Nat
  bucket : Nat
  drops : Word64
  deriving DecidableEq, Repr

/-- The egress scheduler and the ingress policers. -/
structure Egress where
  ports : List EgPort
  /-- open SEND records of the active plan, by index -/
  gates : List Nat
  /-- shaper rate and burst in use of TC0–TC5 (R342) -/
  shapers : List (Nat × Nat)
  /-- policer rate and burst in use of a function, where they differ from the defaults -/
  rates : List (Nat × Nat × Nat)
  policers : List Policer
  deriving DecidableEq, Repr

/-! ## The state of the node -/

/-- The state of the node. -/
structure State where
  tick : TickState
  ptp : Ptp
  plan : PlanState
  items : List Item
  host : HostIf
  events : List Event
  stiles : StileEngine
  mesh : Mesh
  warren : Warren
  tiers : Tiers
  search : Search
  tables : Tables
  flash : Flash
  fabric : Fabric
  egress : Egress
  /-- stacked memory: node addresses below 2^39 -/
  t1 : List Host.Cell
  /-- host memory, the shared tier's window included -/
  hostMem : List Host.Cell
  faults : FaultState
  power : Power
  test : SelfTest
  regs : Regs
  obs : Obs
  /-- number of free values taken so far: the model's own field (assumption 8) -/
  free : Nat
  /-- commands that wait, first in, first out: the block's queue (assumption 1) -/
  pending : List Instr
  deriving DecidableEq, Repr

/-- No command of the model ends in a fault: every stop that the spec describes is an effect on the state. -/
inductive Fault where
  deriving DecidableEq, Repr

/-- Why a command has no meaning here. -/
inductive Refusal where
  /-- Raised by `exec` for a command that is not modelled; safe. -/
  | notModelled (mnemonic : String)
  deriving DecidableEq, Repr

/-! ## Reset

The node after a cold reset, before power is good. A register that the spec gives no reset value holds the value of
assumptions 5 and 6. -/

/-- The tick engine after reset. -/
def tickReset : TickState :=
  { count := 0, lenCur := 20, lenNext := 0, lenSched := none, phase := .none, src := .none
    line := { locked := false, run := 0, tick40 := 0, lastAt := 0, ignored := 0, lockTicks := 0, edge := none,
              refused := false }
    beacon := { seen := false, lockTicks := 0, missed := 0, edge := none }
    peers := [], hold := false, notAligned := false, holdErrPs := 0, overrun := false, straggler := false, slack := 0
    slackHist := [], slackNow := none, diffRun := 0, edgeNs := 0, lineErr := 0, beaconErr := 0, srcDiff := 0, lenErr := 0
    tickOut := none, beaconOut := [], pps := none, swapped := false }

/-- The PTP clock after reset. -/
def ptpReset : Ptp :=
  { locked := false, good := 0, master := none, pendingSync := none, delayReq := none, lastSync := none, delay := 0
    offset := 0 }

/-- The plan slots after reset: both empty. -/
def planReset : PlanState :=
  { active := none, staging := none, validating := none, reason := 0, section_ := 0, record := 0, swap := none }

/-- The composition registers after reset. -/
def compositionReset : Composition :=
  { record := none, recAddr := 0, recLen := 0, loading := none, busy := false, done := false, accepted := false
    reason := 0, loadIgnored := 0, fnSel := 0 }

/-- The host link after reset. -/
def linkReset : HostLink :=
  { up := false, flit := false, width := 0, rate := 0, lastWidth := 0, lastRate := 0, perst := false }

/-- The host interface after reset: no function listed, so every function at its own reset values. -/
def hostReset : HostIf :=
  { fns := [], work := [], txns := [], commits := [], comp := compositionReset, link := linkReset, msixSent := []
    rxDirty := [], past := [], remoteQuiesce := [], quiesceAcks := [] }

/-- The stile engine after a cold reset: every stile FREE, every counter 0. -/
def stilesReset : StileEngine :=
  { table := [], flrMarked := [], broken := [], counters := List.replicate 9 0, sparesUsed := 0 }

/-- The tile mesh after reset. -/
def meshReset : Mesh :=
  { tiles := [], copies := [], nextId := 0, epoch := 0, mappedOut := [], spareWires := [], flitEcc := 0 }

/-- A memory stack after reset. -/
def stackReset : Stack :=
  { temp := 0, power := 0, level := 0, thermal := 0, powerLevel := 0, doubleRefresh := false, failed := []
    bootOut := [], moved := [], secondLoss := false, spareUsed := false, refill := none, refillNext := 0, eccCorr := 0, throttleTicks := 0, level5Tick := none
    badBlocks := [] }

/-- The warrens after reset. -/
def warrenReset : Warren := { dram := List.replicate 8 stackReset, burrows := [], resending := [] }

/-- Moves and capacity after reset. -/
def tiersReset : Tiers :=
  { moves := [], bindings := [], channels := [], capT2 := (0, 1), capT3 := (0, 1), allocs := [], retired := [], shed := [], shedNum := 1
    shedDen := 1 }

/-- Search, tables and flash after reset. -/
def searchReset : Search :=
  { indexes := [], front := [], shard := [], selects := [], outResults := [], snapshots := [], redirected := [], nextJob := 0 }

/-- Tables and updates after reset. -/
def tablesReset : Tables :=
  { defs := [], lookups := [], requests := [], queue := [], results := [], loads := [], compacting := []
    partnerTick := none, loggedHere := none, loggedThere := none, lagging := false, watermarks := [], duplicates := 0
    mismatched := [], exchA := none, exchB := none }

/-- The flash tier after reset: every die ABSENT until the FLASH step identifies it. -/
def flashReset : Flash :=
  { dies := [], sbs := [], vols := [], words := [], log := [], nextLsn := 0, logOpen := none, segOpen := none, segs := [], lost := []
    reads := [], nextRead := 0, recon := [], rebuilt := [], formats := [], serial := 0, jPending := [], journal := []
    checkpoint := none, rootPage := none, remaps := [], blockBad := [], opTold := false, issued := []
    counters := List.replicate 12 0 }

/-- A port after reset: down. -/
def portReset : Port :=
  { up := false, degraded := false, half := 0, failed := 0, paused := 0, storm := 0, occ := List.replicate 8 0, xoff := 0
    counters := List.replicate 5 0 }

/-- The fabric after reset. -/
def fabricReset : Fabric :=
  { ports := List.replicate 8 portReset, counters := List.replicate 12 0, conns := [], released := [], rma := []
    mcast := [], mwrites := [], nextMcast := 0, lru := [], waiting := [], out := [], residents := 4096, ctxBase := 0, ctxCount := 0, retrying := [] }

/-- A port's egress after reset: queues empty, buckets full (assumption 5). -/
def egPortReset : EgPort :=
  { queues := List.replicate 8 [], deficits := List.replicate 6 0, round := 5, visiting := false
    buckets := List.replicate 6 65536, busyPs := 0, waited := List.replicate 8 false
    counters := List.replicate 8 (List.replicate 4 0) }

/-- The egress scheduler after reset: the shapers at the defaults of Table EG-7. -/
def egressReset : Egress :=
  { ports := List.replicate 8 egPortReset, gates := []
    shapers := [(100, 65536), (200, 65536), (0, 65536), (0, 65536), (0, 65536), (0, 65536)], rates := [], policers := [] }

/-- The observing hardware after reset. -/
def obsReset : Obs :=
  { totals := List.replicate 21 0, classes := [], images := []
    trace := { start := none, epoch := 0, staged := [], lost := 0, lostTime := 0, written := 0, sinceStatus := 0 }
    watches := [] }

/-- Faults and membership after reset. -/
def faultsReset : FaultState :=
  { fenced := [], mapped := [], redirects := [], domains := [], rejoin := .none, peerLost := none, keepLog := false, serving := [] }

/-- Power and boot after reset: the supply is not good, the die at its fused AVS value. -/
def powerReset : Power :=
  { step := 0, fail := 0, detail := 0, pwrGood := false, sysRstN := true, rails := List.replicate 7 (0, 0), dieTemp := 0
    avsTarget := 750, avsOld := 750, avsRead := 0, avsPending := false, thermWarn := false, trip := false, resetBad := 0
    restarts := 0, fallowAsked := false, fallowSince := none, wakeNs := none, shepherd := .both, warm := false
    bistPassed := false, clocksStopped := false }

/-- BIST and life cycle after reset. -/
def testReset : SelfTest :=
  { lc := .deployed, keyFused := true, keyHash := List.replicate 48 0, erasePending := false, eraseTo := none
    nextLc := none, nonce := 0, refused := 0, auth := List.replicate 192 0, code := 0, arg := 0, peak := 0
    tripGroup := 15, fallback := false, uncoreFail := false, done := false, running := false, timeMs := 0, cfg := 0
    seed := 0, groupSig := List.replicate 18 0, tileFail := [], board := 30 :: List.replicate 63 0, limit := 300, samples := 0
    badBlocks := [], jtag := .idcode }

/-- The other registers after reset. -/
def regsReset : Regs :=
  { serialLo := 0, serialHi := 0, macBase := 0, avsFuse := 700, badAccess := 0, mbxCmd := 0, mbxArg := 0, mbxState := 0
    mbxError := 0, mbxResp := List.replicate 4 0, mbxIgnored := 0, stSel := 0, dbAddr := 0, smbusLatch := none
    readData := 0 }

/-- The node right after reset. -/
def State.reset : State :=
  { tick := tickReset, ptp := ptpReset, plan := planReset, items := [], host := hostReset, events := []
    stiles := stilesReset, mesh := meshReset, warren := warrenReset, tiers := tiersReset, search := searchReset, tables := tablesReset
    flash := flashReset, fabric := fabricReset, egress := egressReset, t1 := [], hostMem := []
    faults := faultsReset, power := powerReset, test := testReset, regs := regsReset, obs := obsReset, free := 0
    pending := [] }

end Sys2Proof.Machine
end

