-- ==== Sys2Proof/Machine/Flags.lean ====
section
/-! DEFINITION. Status codes, completion flags (Tables HI-12 and HI-13), event classes and codes (Tables HI-15, FB-9,
ST-4, HI-16, FS-7, PW-11), the bytes of an event record (Table FB-8), and the stile state word (Table ST-1). -/

namespace Sys2Proof.Machine

/-! ### Completion status and flags -/

def stOk : Nat := 0x00
def stBad : Nat := 0x10
def stNotPermitted : Nat := 0x11
def stOverQuota : Nat := 0x12
def stNoIndex : Nat := 0x20
def stNoTable : Nat := 0x21
def stPlanMismatch : Nat := 0x30
def stRejected : Nat := 0x3F

def fGlean : Nat := 0x01
def fLate : Nat := 0x02
def fPartial : Nat := 0x04
def fMediaLost : Nat := 0x08
def fNanSeen : Nat := 0x10
def fInvalid : Nat := 0x20
def fSaturated : Nat := 0x40

/-! ### Events -/

/-- The class of a cause. -/
def Cause.cls : Cause → EvClass
  | .lineLost | .sourcesDiffer | .edgeOff | .startBehind | .relockBehind | .relockAhead | .overrun | .ptpLocked
  | .ptpLost => .tick
  | .portDown | .portUp | .pfcStorm | .pfcStormEnd => .port
  | .laneDegrade | .laneRestored => .link
  | .connFatal | .connPeerReset | .connAccess | .mcastPartial => .connection
  | .dieState | .mediaLost | .segmentWarn | .segmentPast | .eraseTrouble | .mediaRefill => .media
  | .eccBlock | .channelLoss | .sheafFault | .redirectStart | .redirectEnd => .memory
  | .tileFault | .unitFault | .busFault | .stileFlag | .stileForeign | .stileEntry | .nodeFault | .spareMapped
  | .shepherdSolo => .compute
  | .dieWarn | .dieWarnEnd | .dieTrip | .stackLevel5 | .stackTrip => .thermal
  | .supplyFault | .avsChange | .avsLate | .fallowEnter | .fallowExit => .power
  | .ringHalt | .txnAbort | .hostLink | .quiescePartial | .solo | .soloEnd | .rejoinRefused | .catchupDone
  | .deadShare | .tableMismatch | .shedStep | .shedRestore | .exhaustive => .config

/-- The class code of Table HI-15. -/
def EvClass.code : EvClass → Nat
  | .port => 1 | .link => 2 | .connection => 3 | .media => 4 | .memory => 5 | .compute => 6 | .tick => 7
  | .thermal => 8 | .power => 9 | .config => 10

/-- The code that a table of the spec gives a cause; none where no table does. -/
def Cause.stated : Cause → Option Nat
  | .portDown => some 0x01 | .portUp => some 0x02 | .pfcStorm => some 0x03 | .pfcStormEnd => some 0x04
  | .laneDegrade => some 0x01 | .laneRestored => some 0x02
  | .connFatal => some 0x01 | .connPeerReset => some 0x02 | .connAccess => some 0x03 | .mcastPartial => some 0x04
  | .stileFlag => some 0x30 | .stileForeign => some 0x31
  | .nodeFault => some 0x70 | .spareMapped => some 0x71 | .shepherdSolo => some 0x72
  | .redirectStart => some 0x70 | .redirectEnd => some 0x71
  | .dieWarn => some 0x01 | .dieWarnEnd => some 0x02 | .dieTrip => some 0x03
  | .stackLevel5 => some 0x10 | .stackTrip => some 0x11
  | .supplyFault => some 0x01 | .avsChange => some 0x02 | .avsLate => some 0x03 | .fallowEnter => some 0x04
  | .fallowExit => some 0x05
  | .ringHalt => some 0x40 | .txnAbort => some 0x41 | .hostLink => some 0x42 | .quiescePartial => some 0x43
  | .solo => some 0x50 | .soloEnd => some 0x51 | .rejoinRefused => some 0x52 | .catchupDone => some 0x53
  | .deadShare => some 0x60 | .tableMismatch => some 0x61
  | _ => none

/-- A number for each cause, the argument of the opaque code and words of causes without a table. -/
def Cause.num : Cause → Nat
  | .lineLost => 0 | .sourcesDiffer => 1 | .edgeOff => 2 | .startBehind => 3 | .relockBehind => 4 | .relockAhead => 5
  | .overrun => 6 | .ptpLocked => 7 | .ptpLost => 8 | .dieState => 9 | .mediaLost => 10 | .segmentWarn => 11
  | .segmentPast => 12 | .eraseTrouble => 13 | .mediaRefill => 14 | .eccBlock => 15 | .channelLoss => 16
  | .sheafFault => 17 | .tileFault => 18 | .unitFault => 19 | .busFault => 20 | .stileEntry => 21 | .shedStep => 22
  | .shedRestore => 23 | .exhaustive => 24 | _ => 25

/-- The CODE byte of an event record: the table's, or the opaque one of Config. -/
def Cause.code (c : Cause) : Nat :=
  match c.stated with
  | some k => k
  | none => (Config.eventCode c.cls.code c.num).toNat

/-- The 32 bytes of an event record (Table FB-8). -/
def Event.bytes (e : Event) : List Byte :=
  wordsBytes [e.tick,
    word [(56, 8, e.cause.cls.code), (48, 8, e.cause.code), (36, 12, e.fn), (0, 32, e.source.toNat)],
    e.detail0, e.detail1]

/-! ### Stile state word (Table ST-1) -/

/-- STATE as the word encodes it. -/
def StileState.code : StileState → Nat
  | .free => 0 | .planned => 1 | .function => 2 | .quarantine => 3

/-- A stile at its cold-reset values. -/
def stileReset : Stile :=
  { owner := 0, state := .free, homeKind := 0, gen := 0, misuse := false, underflow := false, overflow := false,
    count := 0, home := 0, host := false, remote := false, init := 0, quarEnd := 0 }

/-- The state word that READ returns: OWNER only in PLANNED and FUNCTION, HOME_KIND only in PLANNED. -/
def Stile.stateWord (t : Stile) : Word64 :=
  word [(52, 12, if t.state = .planned ∨ t.state = .function then t.owner else 0), (50, 2, t.state.code),
    (48, 2, if t.state = .planned then t.homeKind else 0), (40, 8, t.gen), (34, 1, flag t.misuse),
    (33, 1, flag t.underflow), (32, 1, flag t.overflow), (0, 24, t.count)]

end Sys2Proof.Machine
end

