-- ==== Sys2Proof/Machine/Ops.lean ====
section
/-! DEFINITION. The named operations over the state that commands share: memory, counters, events, functions, free
values, node addresses. -/

namespace Sys2Proof.Machine

/-! ### Sparse memory in canonical form

A memory is a list of (address, byte) with strictly rising addresses and no byte equal to 0, which is what an
unlisted address reads as (assumptions 3 and 4). -/

/-- What an unlisted address of stacked memory and of host memory reads as. -/
def memDefault : Byte := 0

/-- The byte at an address. -/
def memRead : List Host.Cell → Nat → Byte
  | [], _ => memDefault
  | (k, b) :: r, a => if a = k then b else if a < k then memDefault else memRead r a

/-- Put a byte, keeping the canonical form. -/
def memWrite : List Host.Cell → Nat → Byte → List Host.Cell
  | [], a, b => if b = memDefault then [] else [(a, b)]
  | (k, c) :: r, a, b =>
    if a < k then (if b = memDefault then (k, c) :: r else (a, b) :: (k, c) :: r)
    else if a = k then (if b = memDefault then r else (a, b) :: r)
    else (k, c) :: memWrite r a b

/-- Put bytes from an address upwards. -/
def memWriteBytes (m : List Host.Cell) : Nat → List Byte → List Host.Cell
  | _, [] => m
  | a, b :: r => memWriteBytes (memWrite m a b) (a + 1) r

/-- Get `n` bytes from an address upwards. -/
def memReadBytes (m : List Host.Cell) (a n : Nat) : List Byte := (List.range n).map fun i => memRead m (a + i)

/-- Put a list of single bytes. -/
def memWriteCells (m : List Host.Cell) (cs : List Host.Cell) : List Host.Cell :=
  cs.foldl (fun m c => memWrite m c.1 c.2) m

/-- The canonical form: addresses strictly rising, no default byte listed. -/
def memWf : List Host.Cell → Bool
  | [] => true
  | [(_, b)] => b != memDefault
  | (k, b) :: (k2, b2) :: r => b != memDefault && decide (k < k2) && memWf ((k2, b2) :: r)

/-- Number of `n` little-endian bytes at an address. -/
def memNat (m : List Host.Cell) (a n : Nat) : Nat := leNat (memReadBytes m a n)

/-! ### Counters -/

/-- A 64-bit counter that saturates at 2⁶⁴ − 1. -/
def bump (c : Word64) (n : Nat) : Word64 := if c.toNat + n ≥ 2 ^ 64 then BitVec.allOnes 64 else c + BitVec.ofNat 64 n

/-- Counter `i` of a block raised by n. -/
def bumpAt (cs : List Word64) (i n : Nat) : List Word64 := cs.modify i fun c => bump c n

/-! ### Free values (assumption 8) -/

/-- The next free word of the model. -/
def State.freshWord (s : State) : Word64 := Config.freshWord s.free
/-- The free word i places on, where one step needs several. -/
def State.freshAt (s : State) (i : Nat) : Word64 := Config.freshWord (s.free + i)
/-- The counter of free values moved on. -/
def State.tookFresh (s : State) : State := { s with free := s.free + 1 }
/-- The counter of free values moved on by n. -/
def State.tookMany (s : State) (n : Nat) : State := { s with free := s.free + n }

/-! ### Events (R331, R376) -/

/-- An event is raised: it joins the events that wait to be written to their function's ring. -/
def State.raise (s : State) (c : Cause) (fn : Nat) (source d0 d1 : Nat) : State :=
  let e : Event :=
    { tick := s.tick.count, cause := c, fn := fn, source := BitVec.ofNat 32 source,
      detail0 := BitVec.ofNat 64 d0, detail1 := BitVec.ofNat 64 d1 }
  { s with events := s.events ++ [e] }

/-- A node-wide event whose record fields no table gives: its words are opaque functions of what it names. -/
def State.raiseNamed (s : State) (c : Cause) (names : List Nat) : State :=
  s.raise c 0 (Config.eventWord c.num 0 names).toNat (Config.eventWord c.num 1 names).toNat
    (Config.eventWord c.num 2 names).toNat

/-! ### Functions and their doorbell pages -/

/-- A ring pair at reset. -/
def ringReset : Ring :=
  { sqBase := 0, cqBase := 0, rsbAddr := 0, cfg := 0, resumeSeq := 0, state := .disabled, haltReason := 0, sqHead := 0,
    tail := 0, sampled := 0, nextSeq := 0, cqIdx := 0, phase := true, cqHead := 0, acceptSeq := 0, acceptIdx := 0,
    doneSeq := 0, lateThrough := none, history := none, dirty := false, wrote := false }

/-- An event or receive ring at reset. -/
def sideReset : SideRing :=
  { base := 0, sbAddr := 0, cfg := 0, state := .disabled, haltReason := 0, idx := 0, phase := true, bell := 0, used := 0,
    lost := 0 }

/-- An MSI-X table entry after reset: masked, as PCIe gives it. -/
def msixEntryReset : List Byte := List.replicate 12 0 ++ [1, 0, 0, 0]

/-- A function at reset. -/
def fnReset (f : Nat) : Fn :=
  { id := f, rings := List.replicate 8 ringReset, ev := sideReset, rx := sideReset, foreign := false, stSel := 0,
    counters := List.replicate 9 0, msix := List.replicate 64 msixEntryReset, pba := 0, quiesced := false,
    quiesceNext := none, adminMark := none }

/-- What a function holds; a function that is not listed is at reset. -/
def State.fn (s : State) (f : Nat) : Fn := (s.host.fns.find? fun x => x.id == f).getD (fnReset f)

/-- Replace a listed entry, or add it in ascending order of its key. -/
def putBy {α : Type} (key : α → Nat) (x : α) : List α → List α
  | [] => [x]
  | y :: r => if key x < key y then x :: y :: r else if key x = key y then x :: r else y :: putBy key x r

/-- Put a function back. -/
def State.setFn (s : State) (x : Fn) : State := { s with host := { s.host with fns := putBy Fn.id x s.host.fns } }

/-- One ring pair of a function. -/
def State.ring (s : State) (f r : Nat) : Ring := (s.fn f).rings.getD r ringReset

/-- Put a ring pair back. -/
def State.setRing (s : State) (f r : Nat) (x : Ring) : State :=
  let g := s.fn f
  s.setFn { g with rings := g.rings.set r x }

/-- Function counter `i` of Table MP-14 raised by one. -/
def State.bumpFn (s : State) (f i : Nat) : State :=
  let g := s.fn f
  s.setFn { g with counters := bumpAt g.counters i 1 }

/-! ### Node addresses (Table TI-2, Table WA-1) -/

/-- The regions of the node address map. -/
inductive Region where
  | t1 (a : Nat)
  | scratch (tile off : Nat)
  | scratchHole (tile : Nat)
  | stile (i off : Nat)
  | mirror (off : Nat)
  | unmapped
  deriving DecidableEq, Repr

/-- Decode a 40-bit node address. -/
def regionOf (a : Nat) : Region :=
  if a < 0x8000000000 then .t1 a
  else if a < 0x8100000000 then
    let t := (a - 0x8000000000) / 0x100000
    let o := a % 0x100000
    if o < 0x10000 then .scratch t o else .scratchHole t
  else if 0xC000000000 ≤ a && a < 0xC000100000 then .stile ((a - 0xC000000000) / 64) (a % 64)
  else if 0xE000000000 ≤ a && a < 0xE004000000 then .mirror (a - 0xE000000000)
  else .unmapped

/-- Logical channel 32 × stack + channel of a stacked-memory address. -/
def channelOf (a : Nat) : Nat := a / 0x80000000
/-- Byte offset in the channel. -/
def chanOff (a : Nat) : Nat := a % 0x80000000
/-- First offset of a channel's work area (R125). -/
def workArea : Nat := 0x7FF00000
/-- The node address of an offset in a logical channel. -/
def chanAddr (ch off : Nat) : Nat := ch * 0x80000000 + off

end Sys2Proof.Machine
end

