-- ==== Sys2Proof/Machine/Items.lean ====
section
/-! DEFINITION. The composition record in force (Tables HI-3, HI-4) and the configuration items in force with their
defaults (Table MP-15 and the chapters' item tables). -/

namespace Sys2Proof.Machine

/-! ### The composition in force -/

/-- The record in force, as bytes; empty when none is. -/
def State.compBytes (s : State) : List Byte := s.host.comp.record.getD []

/-- Function entries of a composition record (Table HI-4), 64 bytes each. -/
def compEntries (rec : List Byte) : List (List Byte) :=
  let n := field (wordAt rec 0) 0 13
  (List.range n).map fun i => bytesAt rec (0x140 + 64 * i) 64

/-- A function's entry in a record. -/
def compEntryOf (rec : List Byte) (f : Nat) : Option (List Byte) :=
  (compEntries rec).find? fun e => field (wordAt e 0) 52 12 == f

/-- A function's entry in the composition in force. -/
def State.compEntry (s : State) (f : Nat) : Option (List Byte) :=
  match s.host.comp.record with
  | none => none
  | some rec => compEntryOf rec f

/-- TILES, T1_MIB, FLASH_GIB, STILE_FIRST, STILE_COUNT, SLOTS, TRAFFIC, RESIDENT and SPILLED of an entry. -/
def entTiles (e : List Byte) : Nat := field (wordAt e 0) 32 13
def entT1 (e : List Byte) : Nat := field (wordAt e 0) 0 11
def entFlash (e : List Byte) : Nat := field (wordAt e 8) 32 32
def entStileFirst (e : List Byte) : Nat := field (wordAt e 8) 18 14
def entStileCount (e : List Byte) : Nat := field (wordAt e 8) 3 15
def entSlots (e : List Byte) : Nat := field (wordAt e 0x10) 44 20
def entTraffic (e : List Byte) : Nat := field (wordAt e 0x10) 0 13
def entResident (e : List Byte) : Nat := field (wordAt e 0x18) 48 16
def entSpilled (e : List Byte) : Nat := field (wordAt e 0x18) 22 21

/-- Whether a stile lies in a function's composed range (R361). -/
def State.stileInRange (s : State) (f i : Nat) : Bool :=
  match s.compEntry f with
  | none => false
  | some e => entStileFirst e ≤ i && i < entStileFirst e + entStileCount e

/-- The T3 window: base and length (R152). -/
def State.t3Window (s : State) : Nat × Nat :=
  (wordAt s.compBytes 0x10, wordAt s.compBytes 0x18)

/-- Whether a span of host addresses lies in the T3 window. -/
def State.inT3 (s : State) (a n : Nat) : Bool :=
  let (b, l) := s.t3Window
  decide (b ≤ a) && decide (a + n ≤ b + l)

/-! ### Items in force -/

/-- The instance of an item in force: function (0 for node-wide items), block, number, index. -/
def State.itemAt (s : State) (fn block number index : Nat) : Option Item :=
  s.items.find? fun i => i.fn == fn && i.block == block && i.number == number && i.index == index

/-- VALUE0 of an item, or its default. -/
def State.item0 (s : State) (fn block number index default : Nat) : Nat :=
  match s.itemAt fn block number index with
  | some i => i.v0.toNat
  | none => default

/-- VALUE0 to VALUE2 that an item has when no transaction has set it (R4): the defaults of Tables HI-19, OB-11,
TK-11, FS-6, WA-11, FL-13, FB-10, EG-7, VS-1, TU-1 and R437. -/
def State.itemDefault (s : State) (block number index : Nat) : Nat × Nat × Nat :=
  let c := s.compBytes
  match block, number with
  | 0x01, 0x03 => (0, 63 * 256, 1)
  | 0x02, 0x03 => (field (wordAt c 8) 32 32, 0, 0)
  | 0x02, 0x04 => (field (wordAt c 8) 0 32, 0, 0)
  | 0x02, 0x05 => (20, 0, 0)
  | 0x02, 0x07 => (30, 0, 0)
  | 0x02, 0x08 => (64, 0, 0)
  | 0x02, 0x0A => (50, 0, 0)
  | 0x02, 0x0B => (600, 0, 0)
  | 0x02, 0x0C => (25, 0, 0)
  | 0x03, 0x00 => (55, 0, 0)
  | 0x03, 0x01 => (4, 0, 0)
  | 0x04, 0x00 => (7, 0, 0)
  | 0x04, 0x01 => (1, 0, 0)
  | 0x04, 0x02 => (200, 0, 0)
  | 0x04, 0x03 => (4, 0, 0)
  | 0x04, 0x04 => (4, 0, 0)
  | 0x05, 0x00 =>
    let e := bytesAt c (0x40 + 32 * index) 32
    (beNat (bytesAt e 0 4), natAt e 16 8, natAt e 24 8)
  | 0x05, 0x01 => (1, 0, 0)
  | 0x05, 0x02 => (((List.range 8).map fun n => n * 2 ^ (3 * n)).sum, 0, 0)
  | 0x05, 0x03 => (0x3E, 0, 0)
  | 0x05, 0x04 => (500, 0, 0)
  | 0x05, 0x06 => (46496, 0, 0)
  | 0x05, 0x07 => (50, 0, 0)
  | 0x05, 0x08 => (20, 0, 0)
  | 0x05, 0x09 => (7, 0, 0)
  | 0x05, 0x0A => (1000, 0, 0)
  | 0x05, 0x0B => (4096, 0, 0)
  | 0x05, 0x10 => ([4352, 8192, 8192, 32768, 16384, 16384].getD index 0, 0, 0)
  | 0x05, 0x11 => ([100, 200].getD index 0, 0, 0)
  | 0x05, 0x12 => (65536, 0, 0)
  | 0x05, 0x13 => ((s.compEntry index).elim 0 entTraffic, 0, 0)
  | 0x05, 0x14 => (262144, 0, 0)
  | 0x07, 0x43 => (1024, 0, 0)
  | 0x07, 0x44 => (3, 0, 0)
  | 0x07, 0x45 => (1, 0, 0)
  | 0x07, 0x46 => (3, 0, 0)
  | 0x07, 0x47 => (32, 0, 0)
  | 0x07, 0x48 => (4096, 0, 0)
  | 0x07, 0x49 => (256, 0, 0)
  | 0x07, 0x4C => (128, 0, 0)
  | 0x07, 0x4E => (10, 0, 0)
  | 0x08, 0x46 => (1, 0, 0)
  | 0x08, 0x48 => (1, 0, 0)
  | 0x08, 0x4B => (0x7F, 0, 0)
  | 0x08, 0x4C => (4096, 0, 0)
  | 0x08, 0x4F => (256, 0, 0)
  | 0x08, 0x50 => (3, 0, 0)
  | 0x09, 0x00 => (100, 0, 0)
  | _, _ => (0, 0, 0)

/-- The values of an item instance in force: those that a transaction set, or the defaults. -/
def State.itemVals (s : State) (fn block number index : Nat) : Nat × Nat × Nat :=
  match s.itemAt fn block number index with
  | some i => (i.v0.toNat, i.v1.toNat, i.v2.toNat)
  | none => s.itemDefault block number index

/-- VALUE0 of a node-wide item in force. -/
def State.cfg (s : State) (block number index : Nat) : Nat := (s.itemVals 0 block number index).1

/-! The items that many commands read, by name. -/

def State.tkRoot (s : State) : Bool := (s.cfg 2 0 0).testBit 0
def State.tkSrc (s : State) : Nat := s.cfg 2 1 0 % 4
def State.tkLineDelay (s : State) : Nat := s.cfg 2 2 0
def State.nodeId (s : State) : Nat := s.cfg 2 3 0
def State.beaconNode (s : State) : Nat := s.cfg 2 4 0
def State.slackLow (s : State) : Nat := s.cfg 2 7 0
def State.stragWeight (s : State) : Nat := s.cfg 2 8 0
/-- FB_PKT_LIFE in ms. -/
def State.pktLifeMs (s : State) : Nat := s.cfg 5 7 0
/-- STRICT (true) or BOUNDED for a function and class (Table HI-19). -/
def State.strict (s : State) (f cls : Nat) : Bool := (s.itemVals f 1 0x40 cls).1.testBit 0

/-! ### What the node is doing -/

/-- A swath runs: STEP is RUNNING (Table PW-6). -/
def State.running (s : State) : Bool := s.power.step == 0x09
/-- The node is in the fault hold (R390). -/
def State.inHold (s : State) : Bool := s.power.step == 0x0C
/-- The node is in the safe state (R453). -/
def State.inSafe (s : State) : Bool := s.power.step == 0x0D
/-- The node is fallow (R433). -/
def State.isFallow (s : State) : Bool := s.power.step == 0x0A
/-- Ticks run and rings are served: from the PLAN step on, running, fallow and waking (R428, R381). -/
def State.ticking (s : State) : Bool := 0x08 ≤ s.power.step && s.power.step ≤ 0x0B
/-- FAULT_N is asserted (R491). -/
def State.faultN (s : State) : Bool := s.power.fail ≠ 0 || s.inHold || s.inSafe
/-- THERM_N is asserted (R421). -/
def State.thermN (s : State) : Bool := s.power.trip

/-- The fault hold of R390 for a fault of row `kind` of Table FS-1: the swath stops, ports stop, FAULT_N is asserted
through STEP and FAIL, and NODE_FAULT is raised to function 0. `fail` is the code of Table PW-7. A node held in reset
or in the safe state has no swath to stop and stays as it is. -/
def State.faultHold (s : State) (fail detail kind part : Nat) : State :=
  if s.power.step = 0x0D || s.power.step = 0x00 then s
  else
    let s1 := { s with power := { s.power with step := 0x0C, fail := fail, detail := detail } }
    s1.raise .nodeFault 0 kind part 0

/-! ### Tick lengths -/

/-- The tick length in force, ns. -/
def State.tickNs (s : State) : Nat := s.tick.lenCur * 50000
/-- A time of Table TK-3, given in µs of the default map, in ns from the edge (R43). -/
def State.mapNs (s : State) (us : Nat) : Nat := us * s.tick.lenCur * 50
/-- End of the boundary phase and start of ingest: at least 20 µs (R43). -/
def State.boundaryEndNs (s : State) : Nat := max 20000 (s.mapNs 20)
/-- The number of ticks that cover a time in ms, rounded up. -/
def State.ticksOfMs (s : State) (ms : Nat) : Nat := ceilDiv (ms * 1000000) s.tickNs

end Sys2Proof.Machine
end

