-- ==== Sys2Proof/Machine/Stile.lean ====
section
/-! DEFINITION. The stile engine: operations, checks, flags, events and counters (11). -/

namespace Sys2Proof.Machine

/-- The state of stile `i`; a stile that is not listed is FREE at its reset values. -/
def State.stile (s : State) (i : Nat) : Stile :=
  match s.stiles.table.find? fun p => p.1 == i with
  | some p => p.2
  | none => stileReset

/-- Put a stile back. -/
def State.setStile (s : State) (i : Nat) (t : Stile) : State :=
  { s with stiles := { s.stiles with table := putBy Prod.fst (i, t) s.stiles.table } }

/-- Node counter `i` of Table ST-11 raised by one. -/
def State.bumpStile (s : State) (i : Nat) : State :=
  { s with stiles := { s.stiles with counters := bumpAt s.stiles.counters i 1 } }

/-- The most that COUNT holds. -/
def stileMax : Nat := 16777215

/-- One operation of a stile-engine cycle (Table ST-6). -/
inductive StileOp where
  | signal (n : Nat)
  | consume (n : Nat)
  | set (v : Nat)
  | clear (mask : Nat)
  deriving DecidableEq, Repr

/-- The amount that a list of operations signals. -/
def signalSum (ops : List StileOp) : Nat := (ops.map fun | .signal n => n | _ => 0).sum

/-- The first SET of a cycle, in requester order. -/
def firstSet : List StileOp → Option Nat
  | [] => none
  | .set v :: _ => some v
  | _ :: r => firstSet r

/-- The union of the CLEAR_FLAGS masks of a cycle. -/
def clearMask : List StileOp → Nat
  | [] => 0
  | .clear m :: r => m ||| clearMask r
  | _ :: r => clearMask r

/-- The CONSUMEs of a cycle, each in turn: count, clamps. -/
def consumeAll : List StileOp → Nat → Nat × Nat
  | [], c => (c, 0)
  | .consume n :: r, c =>
    let (c', k) := consumeAll r (c - n)
    (c', k + flag (n > c))
  | _ :: r, c => consumeAll r c

/-- One stile-engine cycle of R286, operations given in requester order: SET, CLEAR_FLAGS, the sum of the SIGNALs,
each CONSUME. The new stile, whether the sum saturated, and how many CONSUMEs clamped. -/
def stileCycle (t : Stile) (ops : List StileOp) : Stile × Bool × Nat :=
  let c0 := (firstSet ops).getD t.count
  let m := clearMask ops
  let sum := c0 + signalSum ops
  let sat := decide (sum > stileMax)
  let (c, clamps) := consumeAll ops (min sum stileMax)
  ({ t with
      count := c
      overflow := (t.overflow && !m.testBit 0) || sat
      underflow := (t.underflow && !m.testBit 1) || decide (clamps > 0)
      misuse := t.misuse && !m.testBit 2 }, sat, clamps)

/-- An event for a flag of stile `i` that rose (R287): 0 OVERFLOW, 1 UNDERFLOW, 2 MISUSE. -/
def State.flagRose (s : State) (i : Nat) (t : Stile) (was now : Bool) (n : Nat) : State :=
  if now && !was then s.raise .stileFlag t.owner i t.gen n else s

/-- Apply the operations of one stile-engine cycle to stile `i`, with its counters and events (R285–R287). -/
def State.stileApply (s : State) (i : Nat) (ops : List StileOp) : State :=
  let t := s.stile i
  let (t', sat, clamps) := stileCycle t ops
  let s1 := s.setStile i t'
  let s2 := if sat then (s1.bumpStile 0).bumpFn t.owner 0 else s1
  let s3 := (List.range clamps).foldl (fun s _ => (s.bumpStile 1).bumpFn t.owner 1) s2
  let kept (flagOld : Bool) (bit : Nat) : Bool := flagOld && !(clearMask ops).testBit bit
  (s3.flagRose i t (kept t.overflow 0) t'.overflow 0).flagRose i t (kept t.underflow 1) t'.underflow 1

/-- A plan operation: it acts on a PLANNED stile of the active plan, without generation or tick (R288). -/
def State.planSignal (s : State) (i n : Nat) : State := s.stileApply i [.signal n]

/-! ### Operations from outside the plan (R288) -/

/-- How a generation compares with the stile's (R281). -/
inductive GenCheck where
  | current | stale | future
  deriving DecidableEq, Repr

/-- Serial comparison of generations modulo 256 (R281). -/
def genCheck (gen g : Nat) : GenCheck :=
  let d := (gen + 256 - g % 256) % 256
  if d = 0 then .current else if d ≤ 128 then .stale else .future

/-- The operation that an operation word names (Table ST-5); none for a reserved OP. -/
def opOf (w : Nat) : Option StileOp :=
  let n := field w 0 24
  match field w 60 4 with
  | 1 => some (.signal n)
  | 2 => some (.consume n)
  | 3 => some (.set n)
  | 4 => some (.clear n)
  | _ => none

/-- Table ST-8: the operations that a source may issue on a stile in PLANNED or FUNCTION. -/
def sourceMay (src : StileSource) (t : Stile) (op : StileOp) : Bool :=
  match src, t.state, op with
  | .doorbell, .planned, .signal _ => t.host
  | .hostSpace, .planned, .signal _ => t.host
  | .doorbell, .planned, .clear _ => true
  | .hostSpace, .planned, .clear _ => true
  | .doorbell, .function, _ => true
  | .hostSpace, .function, _ => true
  | .ludomFinal, .planned, .signal _ => t.remote
  | .ludomFinal, .function, .signal _ => true
  | .roceImm, .function, .signal _ => true
  | .rmaSpace, .function, .signal _ => true
  | _, _, _ => false

/-- Reserved bits, the stile number of an addressed stile, and the mask of CLEAR_FLAGS (Table ST-5). -/
def wordFormed (w : Nat) (addressed : Option Nat) : Bool :=
  field w 58 2 == 0 && (addressed.getD (field w 44 14) == field w 44 14) &&
    (field w 60 4 != 4 || field w 3 21 == 0)

/-- Whether a source sends from another node, so that TICK_LO counts on a PLANNED stile (R299). -/
def remoteSource : StileSource → Bool
  | .doorbell | .hostSpace => false
  | _ => true

/-- What the checks of Table ST-7 decide. -/
inductive StileVerdict where
  | foreign
  | misuse
  | stale
  | future
  | late
  | apply (op : StileOp)
  deriving DecidableEq, Repr

/-- The checks of Table ST-7, in order; a stile of a function under FLR is checked as in QUARANTINE (R374). -/
def stileCheck (s : State) (src : StileSource) (fn : Nat) (addressed : Option Nat) (w : Nat) : StileVerdict :=
  let i := addressed.getD (field w 44 14)
  let t := s.stile i
  let held := (t.state = .planned || t.state = .function) && !s.stiles.flrMarked.contains i
  if !(held && t.owner = fn) then .foreign
  else
    match opOf w with
    | none => .misuse
    | some op =>
      if !(sourceMay src t op && wordFormed w addressed) then .misuse
      else
        match genCheck t.gen (field w 36 8) with
        | .stale => .stale
        | .future => .future
        | .current =>
          if remoteSource src && t.state = .planned && field w 24 12 ≠ s.tick.count.toNat % 4096 then .late
          else .apply op

/-- MISUSE set on stile `i`, with its event on the rising edge. -/
def State.stileMisuse (s : State) (i : Nat) : State :=
  let t := s.stile i
  (s.setStile i { t with misuse := true }).flagRose i t t.misuse true 2

/-- The outcome of a verdict (Table ST-7), with both sets of counters (R477). -/
def State.stileVerdict (s : State) (fn i gen : Nat) (v : StileVerdict) : State :=
  let owner := (s.stile i).owner
  match v with
  | .foreign =>
    let s1 := (s.bumpStile 5).bumpFn fn 5
    let f := s1.fn fn
    let s2 := s1.setFn { f with foreign := true }
    if f.foreign then s2 else s2.raise .stileForeign fn i gen 0
  | .misuse => ((s.bumpStile 2).bumpFn owner 2).stileMisuse i
  | .stale => ((s.bumpStile 3).bumpFn owner 3).stileMisuse i
  | .future => ((s.bumpStile 4).bumpFn owner 4).stileMisuse i
  | .late => (s.bumpStile 6).bumpFn owner 6
  | .apply op => s.stileApply i [op]

/-- An operation word from outside the plan, checked and applied. -/
def State.stileOutside (s : State) (src : StileSource) (fn : Nat) (addressed : Option Nat) (w : Nat) : State :=
  let i := addressed.getD (field w 44 14)
  s.stileVerdict fn i (field w 36 8) (stileCheck s src fn addressed w)

/-- An operation word with its OP replaced. -/
def withOp (w : Word64) (op : Nat) : Nat := (w.toNat % 2 ^ 60) + op * 2 ^ 60


/-! ### The commands on stiles -/

/-- STILE_SIGNAL (R285). -/
def execStileSignal (src : StileSource) (fn : Nat) (addressed : Option Nat) (w : Word64) (s : State) :
    Host.Outcome State Fault Refusal :=
  .next (s.stileOutside src fn addressed (withOp w 1))

/-- STILE_CONSUME (R285). -/
def execStileConsume (src : StileSource) (fn : Nat) (addressed : Option Nat) (w : Word64) (s : State) :
    Host.Outcome State Fault Refusal :=
  .next (s.stileOutside src fn addressed (withOp w 2))

/-- STILE_SET (R285). -/
def execStileSet (src : StileSource) (fn : Nat) (addressed : Option Nat) (w : Word64) (s : State) :
    Host.Outcome State Fault Refusal :=
  .next (s.stileOutside src fn addressed (withOp w 3))

/-- STILE_CLEAR_FLAGS (R285). -/
def execStileClearFlags (src : StileSource) (fn : Nat) (addressed : Option Nat) (w : Word64) (s : State) :
    Host.Outcome State Fault Refusal :=
  .next (s.stileOutside src fn addressed (withOp w 4))

end Sys2Proof.Machine
end

