-- ==== Sys2Proof/Machine/Net.lean ====
section
/-! DEFINITION. Connections, Ludom headers (Table FB-5) and the sending of packets (12 R315–R321, R328, 13 R349). -/

namespace Sys2Proof.Machine

/-! ### Ports, connections and their counters -/

/-- A port. -/
def State.port (s : State) (p : Nat) : Port := s.fabric.ports.getD p portReset
/-- Put a port back. -/
def State.setPort (s : State) (p : Nat) (x : Port) : State :=
  { s with fabric := { s.fabric with ports := s.fabric.ports.set p x } }
/-- Counter i of a port (Table FB-12) raised by n. -/
def State.bumpPort (s : State) (p i n : Nat) : State :=
  let x := s.port p
  s.setPort p { x with counters := bumpAt x.counters i n }
/-- Node-wide fabric counter i raised by one. -/
def State.bumpFabric (s : State) (i : Nat) : State :=
  { s with fabric := { s.fabric with counters := bumpAt s.fabric.counters i 1 } }
/-- An open connection by its number. -/
def State.conn (s : State) (n : Nat) : Option Conn := s.fabric.conns.find? fun c => c.num == n
/-- Put a connection back. -/
def State.setConn (s : State) (c : Conn) : State :=
  { s with fabric := { s.fabric with conns := putBy Conn.num c s.fabric.conns } }
/-- Remove a connection. -/
def State.dropConn (s : State) (n : Nat) : State :=
  { s with fabric := { s.fabric with conns := s.fabric.conns.filter fun c => c.num != n } }
/-- The egress of a port. -/
def State.egPort (s : State) (p : Nat) : EgPort := s.egress.ports.getD p egPortReset
/-- Put the egress of a port back. -/
def State.setEgPort (s : State) (p : Nat) (x : EgPort) : State :=
  { s with egress := { s.egress with ports := s.egress.ports.set p x } }
/-- Egress counter i of a port and class (Table EG-6) raised by n. -/
def EgPort.bump (x : EgPort) (tc i n : Nat) : EgPort :=
  { x with counters := x.counters.set tc (bumpAt (x.counters.getD tc []) i n) }

/-- The fabric runs: from the LOCK step of boot until a fault hold (R390, R425). -/
def State.fabricOn (s : State) : Bool := decide (6 ≤ s.power.step) && decide (s.power.step ≤ 0x0B)

/-- Resident and spilled connection numbers (R328). -/
def State.connUsed (s : State) (n : Nat) : Bool :=
  decide (n < s.fabric.residents) || (decide (8192 ≤ n) && decide (n < 8192 + s.fabric.ctxCount))

/-- A connection that holds nothing yet. -/
def connBase (n f tc ports : Nat) (kind : ConnKind) (sys : Bool) : Conn :=
  { num := n, fn := f, kind := kind, sys := sys, tc := tc, ports := ports, port := 0, peerHi := 0, peerLo := 0
    peerMac := 0, peerConn := 0, mtu := 4096, qkey := 0, state := .opening, cgen := 0, nextPsn := 0, expPsn := 0
    placed := [], sinceAck := 0, sent := [], nextBatch := 1, batches := [], serving := 0, reads := []
    rx := { send := [], va := 0, rkey := 0, left := 0 }, credits := 8, rate := none, ceEcho := false, lastCnp := none
    marked := false, accessTick := none, resident := decide (n < 8192), cached := true, dirty := false }

/-- Ports from (connection number mod 8) onwards (R315, R349). -/
def portOrder (n : Nat) : List Nat := (List.range 8).map fun i => (n + i) % 8

/-- The sending port of a connection (R315): the first up port of its mask. -/
def State.firstUp (s : State) (c : Conn) : Option Nat :=
  (portOrder c.num).find? fun p => c.ports.testBit p && (s.port p).up

/-- The sending port that a boundary chooses for a plan or system connection of TC2–TC5 (R349): up and not degraded
before up and degraded. -/
def State.planPort (s : State) (c : Conn) : Option Nat :=
  match (portOrder c.num).find? fun p => c.ports.testBit p && (s.port p).up && !(s.port p).degraded with
  | some p => some p
  | none => s.firstUp c

/-! ### Frames -/

/-- Whether an address is ::ffff:a.b.c.d. -/
def Conn.v4 (c : Conn) : Bool := c.peerHi == 0 && c.peerLo.toNat % 2 ^ 32 == 0xFFFF0000

/-- Length of a frame from destination address to FCS that carries `n` bytes of UDP payload (assumption 16): Ethernet
header and tag 18, IP 20 or 40, UDP 8, FCS 4. -/
def Conn.frameLen (c : Conn) (n : Nat) : Nat := 30 + (if c.v4 then 20 else 40) + n

/-- A frame joins a class queue (R335). -/
def State.enqueue (s : State) (p tc : Nat) (f : EgFrame) : State :=
  let x := s.egPort p
  s.setEgPort p { x with queues := x.queues.set tc (x.queues.getD tc [] ++ [f]) }

/-- A datagram of a connection goes to its port's queue of a class. A UDP payload is what the connection's protocol
puts after the UDP header. -/
def State.sendOn (s : State) (c : Conn) (tc : Nat) (bytes : List Byte) (endsRead : Bool) : State :=
  s.enqueue c.port tc { conn := some c.num, len := c.frameLen bytes.length, bytes := bytes, endsRead := endsRead }

/-! ### Ludom packets (Table FB-5) -/

/-- A parsed Ludom packet. -/
structure LPkt where
  op : Nat
  flags : Nat
  cgen : Nat
  dst : Nat
  psn : Nat
  batch : Nat
  earlier : Nat
  addr : Word64
  key : Word32
  len : Nat
  sigWord : Word64
  src : Nat
  payload : List Byte
  deriving DecidableEq, Repr

/-- FLAGS bits. -/
def LPkt.isFinal (p : LPkt) : Bool := p.flags.testBit 0
def LPkt.isRelaxed (p : LPkt) : Bool := p.flags.testBit 1
def LPkt.hasSig (p : LPkt) : Bool := p.flags.testBit 2
def LPkt.ceEcho (p : LPkt) : Bool := p.flags.testBit 4
def LPkt.ackReq (p : LPkt) : Bool := p.flags.testBit 5

/-- The header and payload of a packet, without its CRC. -/
def LPkt.body (p : LPkt) : List Byte :=
  wordsBytes [word [(60, 4, 1), (56, 4, p.op), (48, 8, p.flags), (36, 12, p.cgen), (0, 21, p.dst)],
    word [(40, 24, p.psn), (24, 16, p.batch), (12, 12, p.earlier)], p.addr,
    word [(32, 32, p.key.toNat), (0, 17, p.len)], p.sigWord, word [(0, 21, p.src)]] ++ p.payload

/-- A packet as it travels: header, payload, CRC-32C (R315). -/
def LPkt.bytes (p : LPkt) : List Byte := p.body ++ leBytes 4 (crc32c p.body)

/-- Whether the payload's length is what the operation carries: LEN bytes of a write or a response, none of the others. -/
def payloadFits (op len n : Nat) : Bool :=
  if op = 3 || op = 5 then len == n && decide (n ≤ 4096) else n == 0

/-- The packet that bytes hold; none where its CRC, VERSION, reserved bits or reserved encodings are wrong (R315). -/
def lPkt (bs : List Byte) : Option LPkt :=
  let w (i : Nat) : Nat := wordAt bs (8 * i)
  let body := bs.take (bs.length - 4)
  let op := field (w 0) 56 4
  let p : LPkt :=
    { op := op, flags := field (w 0) 48 8, cgen := field (w 0) 36 12, dst := field (w 0) 0 21
      psn := field (w 1) 40 24, batch := field (w 1) 24 16, earlier := field (w 1) 12 12, addr := BitVec.ofNat 64 (w 2)
      key := BitVec.ofNat 32 (field (w 3) 32 32), len := field (w 3) 0 17, sigWord := BitVec.ofNat 64 (w 4)
      src := field (w 5) 0 21, payload := body.drop 48 }
  let ok := decide (52 ≤ bs.length) && natAt bs (bs.length - 4) 4 == crc32c body && field (w 0) 60 4 == 1 &&
    field (w 0) 21 15 == 0 && field (w 0) 54 2 == 0 && field (w 1) 0 12 == 0 && field (w 3) 17 15 == 0 &&
    field (w 5) 21 43 == 0 && decide (1 ≤ op) && decide (op ≤ 9) && payloadFits op p.len p.payload.length &&
    (p.isFinal || p.earlier == 0) &&
    (!(op == 3 || op == 4) || field (w 2) 40 24 == 0) && (op ≠ 4 || (decide (1 ≤ p.len) && decide (p.len ≤ 65536))) &&
    (!(op == 6 || op == 7) || field (w 2) 0 32 == 0) && (p.hasSig || op == 6 || w 4 == 0)
  if ok then some p else none

/-- A packet of a connection with an operation and PSN, other fields 0. -/
def Conn.pkt (c : Conn) (op psn : Nat) : LPkt :=
  { op := op, flags := 0, cgen := c.cgen, dst := c.peerConn, psn := psn % 2 ^ 24, batch := 0, earlier := 0, addr := 0
    key := 0, len := 0, sigWord := 0, src := c.num, payload := [] }

/-- A packet on TC7 (CONNECT, CLOSE and ACK traffic, Table FB-2). -/
def State.sendControl (s : State) (c : Conn) (p : LPkt) : State := s.sendOn c 7 p.bytes false

/-- ACK_PSN: the highest PSN up to which every packet has been placed. -/
def Conn.ackPsn (c : Conn) : Nat := (c.expPsn + 2 ^ 24 - 1) % 2 ^ 24

/-- The SACK bitmap (R317): bit i for PSN ACK_PSN + 2 + i. -/
def Conn.sack (c : Conn) : Word64 :=
  BitVec.ofNat 64 (((List.range 64).filter fun i => c.placed.contains ((c.expPsn + 1 + i) % 2 ^ 24)).foldl
    (fun a i => a + 2 ^ i) 0)

/-- An ACK or, with a code, a NAK of a connection: its ACK_PSN, bitmap and mark echo (R317, R327). -/
def State.sendAck (s : State) (c : Conn) (nak : Option Nat) : State :=
  let op := match nak with | some _ => 7 | none => 6
  let p := { c.pkt op 0 with
    addr := word [(40, 24, c.ackPsn), (32, 8, nak.getD 0)]
    sigWord := if nak.isNone then c.sack else 0
    flags := if c.ceEcho then 16 else 0 }
  let s1 := s.setConn { c with sinceAck := 0, ceEcho := false }
  s1.sendControl c p

/-- A packet of the stream: it is sent, and kept until it is acknowledged (R319). A CONTROL packet of TC7 spends a credit,
and waits unsent while the connection has none (R304). -/
def State.sendStream (s : State) (n : Nat) (psns : Nat) (mk : Conn → LPkt) (mcast : Option (Nat × Nat)) : State :=
  match s.conn n with
  | none => s
  | some c =>
    let p := mk c
    let wait := c.tc == 7 && c.credits == 0
    let k : SentPkt := { psn := c.nextPsn, bytes := p.body, tries := flag (!wait), resent := false, mcast := mcast }
    let c1 := { c with
      nextPsn := (c.nextPsn + psns) % 2 ^ 24, sent := c.sent ++ [k], dirty := true
      credits := if c.tc = 7 then c.credits - 1 else c.credits }
    if wait then s.setConn c1 else (s.setConn c1).sendOn c c.tc p.bytes false

/-- The pieces of a message: at most 4,096 bytes each. -/
def pieces (bs : List Byte) : List (List Byte) := chunksOf 4096 (bs.length / 4096 + 1) bs

/-- A message as a relaxed batch (R236, R318): its body in writes, then `final` as the FINAL with an operation word. -/
def State.sendBatch (s : State) (n addr : Nat) (body final : List Byte) (sig : Word64) : State :=
  match s.conn n with
  | none => s
  | some c =>
    let ps := pieces body
    let base (c : Conn) : LPkt := { c.pkt 3 c.nextPsn with batch := c.nextBatch, flags := 2 }
    let one (s : State) (x : List Byte × Nat) : State :=
      s.sendStream n 1 (fun c => { base c with
        addr := BitVec.ofNat 64 ((addr + final.length + 4096 * x.2) % 2 ^ 40), len := x.1.length, payload := x.1 }) none
    let s1 := ps.zipIdx.foldl one s
    let s2 := s1.sendStream n 1 (fun c => { base c with
      addr := BitVec.ofNat 64 (addr % 2 ^ 40), len := final.length, payload := final, flags := 7, sigWord := sig
      earlier := ps.length }) none
    match s2.conn n with
    | some c2 => s2.setConn { c2 with nextBatch := if c.nextBatch = 65535 then 1 else c.nextBatch + 1 }
    | none => s2

/-- A message of the plan goes to a peer node on the class's connection (assumption 14): the first 64 bytes as the FINAL,
the rest as the body. -/
def State.sendPlan (s : State) (tc node : Nat) (bytes : List Byte) : State :=
  let m : OutMsg := { tc := tc, node := node, bytes := bytes }
  let s1 := { s with fabric := { s.fabric with out := s.fabric.out ++ [m] } }
  let n := Config.planConn tc node
  match s.conn n with
  | none => s1
  | some c =>
    if c.sys && c.tc = tc && c.state = .open_ then
      s1.sendBatch n (Config.peerAddr n s.tick.count.toNat) (bytes.drop 64) (bytes.take 64)
        (Config.peerSignal n s.tick.count.toNat)
    else s1

/-- The queued frames of a connection are discarded and counted (R348). -/
def State.discardFrames (s : State) (n : Nat) : State :=
  (List.range 8).foldl (fun s p =>
    let x := s.egPort p
    let y := (List.range 8).foldl (fun (y : EgPort) tc =>
      let q := y.queues.getD tc []
      let keep := q.filter fun f => f.conn != some n
      ({ y with queues := y.queues.set tc keep }).bump tc 2 (q.length - keep.length)) x
    s.setEgPort p y) s

/-- A connection enters ERROR (R319): FATAL is raised, and its queued frames are discarded. -/
def State.connError (s : State) (n : Nat) : State :=
  match s.conn n with
  | none => s
  | some c =>
    let s1 := s.setConn { c with state := .error, sent := [], batches := [], reads := [], serving := 0 }
    let s2 := s1.raise .connFatal c.fn n ((c.nextPsn + 2 ^ 24 - 1) % 2 ^ 24) (Config.peerNode n)
    let given := s2.host.remoteQuiesce.map fun q => if q.conn = n then { q with failed := true } else q
    { s2 with host := { s2.host with remoteQuiesce := given } }.discardFrames n

/-- A connection number is released: it is not given out again for 2 × FB_PKT_LIFE (R321). -/
def State.releaseConn (s : State) (n : Nat) : State :=
  match s.conn n with
  | none => s
  | some c =>
    let t := s.tick.count + BitVec.ofNat 64 (s.ticksOfMs (2 * s.pktLifeMs))
    let s1 := s.dropConn n
    { s1 with fabric := { s1.fabric with released := s1.fabric.released ++ [(n, c.cgen, t)] } }

end Sys2Proof.Machine
end

