-- ==== Sys2Proof/Machine/Crypto.lean ====
section
/-! DEFINITION. The published functions that the spec names: SHA-256 (R46, R179, R359), SHA-384 and the ECDSA
P-384 verification of a life-cycle command (R441). They follow FIPS 180-4 and FIPS 186-5; the spec gives them by
name only. -/

namespace Sys2Proof.Machine

/-- The round constants of SHA-512; SHA-256 takes the high halves of the first 64. -/
def shaK : List Nat :=
  [0x428A2F98D728AE22, 0x7137449123EF65CD, 0xB5C0FBCFEC4D3B2F, 0xE9B5DBA58189DBBC,
    0x3956C25BF348B538, 0x59F111F1B605D019, 0x923F82A4AF194F9B, 0xAB1C5ED5DA6D8118,
    0xD807AA98A3030242, 0x12835B0145706FBE, 0x243185BE4EE4B28C, 0x550C7DC3D5FFB4E2,
    0x72BE5D74F27B896F, 0x80DEB1FE3B1696B1, 0x9BDC06A725C71235, 0xC19BF174CF692694] ++
  [0xE49B69C19EF14AD2, 0xEFBE4786384F25E3, 0xFC19DC68B8CD5B5, 0x240CA1CC77AC9C65,
    0x2DE92C6F592B0275, 0x4A7484AA6EA6E483, 0x5CB0A9DCBD41FBD4, 0x76F988DA831153B5,
    0x983E5152EE66DFAB, 0xA831C66D2DB43210, 0xB00327C898FB213F, 0xBF597FC7BEEF0EE4,
    0xC6E00BF33DA88FC2, 0xD5A79147930AA725, 0x6CA6351E003826F, 0x142929670A0E6E70] ++
  [0x27B70A8546D22FFC, 0x2E1B21385C26C926, 0x4D2C6DFC5AC42AED, 0x53380D139D95B3DF,
    0x650A73548BAF63DE, 0x766A0ABB3C77B2A8, 0x81C2C92E47EDAEE6, 0x92722C851482353B,
    0xA2BFE8A14CF10364, 0xA81A664BBC423001, 0xC24B8B70D0F89791, 0xC76C51A30654BE30,
    0xD192E819D6EF5218, 0xD69906245565A910, 0xF40E35855771202A, 0x106AA07032BBD1B8] ++
  [0x19A4C116B8D2D0C8, 0x1E376C085141AB53, 0x2748774CDF8EEB99, 0x34B0BCB5E19B48A8,
    0x391C0CB3C5C95A63, 0x4ED8AA4AE3418ACB, 0x5B9CCA4F7763E373, 0x682E6FF3D6B2B8A3,
    0x748F82EE5DEFB2FC, 0x78A5636F43172F60, 0x84C87814A1F0AB72, 0x8CC702081A6439EC,
    0x90BEFFFA23631E28, 0xA4506CEBDE82BDE9, 0xBEF9A3F7B2C67915, 0xC67178F2E372532B] ++
  [0xCA273ECEEA26619C, 0xD186B8C721C0C207, 0xEADA7DD6CDE0EB1E, 0xF57D4F7FEE6ED178,
    0x6F067AA72176FBA, 0xA637DC5A2C898A6, 0x113F9804BEF90DAE, 0x1B710B35131C471B,
    0x28DB77F523047D84, 0x32CAAB7B40C72493, 0x3C9EBE0A15C9BEBC, 0x431D67C49C100D4C,
    0x4CC5D4BECB3E42B6, 0x597F299CFC657E2A, 0x5FCB6FAB3AD6FAEC, 0x6C44198C4A475817]

/-- The initial hash value of SHA-256. -/
def sha256Init : List Nat :=
  [0x6A09E667, 0xBB67AE85, 0x3C6EF372, 0xA54FF53A,
    0x510E527F, 0x9B05688C, 0x1F83D9AB, 0x5BE0CD19]

/-- The initial hash value of SHA-384. -/
def sha384Init : List Nat :=
  [0xCBBB9D5DC1059ED8, 0x629A292A367CD507, 0x9159015A3070DD17, 0x152FECD8F70E5939,
    0x67332667FFC00B31, 0x8EB44A8768581511, 0xDB0C2E0D64F98FA7, 0x47B5481DBEFA4FA4]

/-- Rotate right in a word of `n` bits. -/
def rotr (n x k : Nat) : Nat := (x >>> k) ||| ((x <<< (n - k)) % 2 ^ n)

/-- The rotations and shifts that tell SHA-256 from SHA-512. -/
structure ShaParams where
  bits : Nat
  rounds : Nat
  s0 : Nat × Nat × Nat
  s1 : Nat × Nat × Nat
  b0 : Nat × Nat × Nat
  b1 : Nat × Nat × Nat
  deriving DecidableEq, Repr

/-- The parameters of SHA-256. -/
def sha256Params : ShaParams :=
  { bits := 32, rounds := 64, s0 := (7, 18, 3), s1 := (17, 19, 10), b0 := (2, 13, 22), b1 := (6, 11, 25) }
/-- The parameters of SHA-512, which SHA-384 shares. -/
def sha512Params : ShaParams :=
  { bits := 64, rounds := 80, s0 := (1, 8, 7), s1 := (19, 61, 6), b0 := (28, 34, 39), b1 := (14, 18, 41) }

/-- Two rotations and a shift, combined by exclusive or. -/
def shaSmall (n : Nat) (k : Nat × Nat × Nat) (x : Nat) : Nat :=
  rotr n x k.1 ^^^ rotr n x k.2.1 ^^^ (x >>> k.2.2)

/-- Three rotations combined by exclusive or. -/
def shaBig (n : Nat) (k : Nat × Nat × Nat) (x : Nat) : Nat :=
  rotr n x k.1 ^^^ rotr n x k.2.1 ^^^ rotr n x k.2.2

/-- The message schedule, newest word first, extended by `k` words. -/
def shaSchedule (p : ShaParams) : Nat → List Nat → List Nat
  | 0, w => w
  | k + 1, w =>
    let x := (shaSmall p.bits p.s1 (w.getD 1 0) + w.getD 6 0 + shaSmall p.bits p.s0 (w.getD 14 0) + w.getD 15 0)
      % 2 ^ p.bits
    shaSchedule p k (x :: w)

/-- One round over the eight working variables. -/
def shaRound (p : ShaParams) (v : List Nat) (kw : Nat × Nat) : List Nat :=
  match v with
  | [a, b, c, d, e, f, g, h] =>
    let m := 2 ^ p.bits
    let t1 := h + shaBig p.bits p.b1 e + ((e &&& f) ^^^ ((m - 1 - e) &&& g)) + kw.1 + kw.2
    let t2 := shaBig p.bits p.b0 a + ((a &&& b) ^^^ (a &&& c) ^^^ (b &&& c))
    [(t1 + t2) % m, a, b, c, (d + t1) % m, e, f, g]
  | other => other

/-- One block added to the running hash value. -/
def shaBlock (p : ShaParams) (h : List Nat) (blk : List Byte) : List Nat :=
  let w := ((chunksOf (p.bits / 8) 16 blk).map beNat).reverse
  let sched := (shaSchedule p (p.rounds - 16) w).reverse
  let ks := (shaK.take p.rounds).map fun k => k >>> (64 - p.bits)
  let v := (ks.zip sched).foldl (shaRound p) h
  (h.zip v).map fun (a, b) => (a + b) % 2 ^ p.bits

/-- The padded message: a 1 bit, zeros, and the bit length in two words. -/
def shaPad (p : ShaParams) (m : List Byte) : List Byte :=
  let blk := p.bits * 2
  let lenBytes := p.bits / 4
  let zeros := (blk - (m.length + 1 + lenBytes) % blk) % blk
  m ++ (0x80 : Byte) :: (List.replicate zeros 0 ++ beBytes lenBytes (m.length * 8))

/-- The hash of a message as its words, for either function. -/
def shaWords (p : ShaParams) (init : List Nat) (m : List Byte) : List Nat :=
  let padded := shaPad p m
  (chunksOf (p.bits * 2) padded.length padded).foldl (shaBlock p) init

/-- The 32 digest bytes of SHA-256, in the order in which it emits them. -/
def sha256 (m : List Byte) : List Byte := (shaWords sha256Params sha256Init m).flatMap (beBytes 4)

/-- The 48 digest bytes of SHA-384. -/
def sha384 (m : List Byte) : List Byte := ((shaWords sha512Params sha384Init m).take 6).flatMap (beBytes 8)

/-- Digest bytes 8j to 8j + 7 as the little-endian word that R501 names. -/
def digestWord (d : List Byte) (j : Nat) : Word64 := BitVec.ofNat 64 (natAt d (8 * j) 8)

/-! ### ECDSA on the curve P-384 (R441) -/

/-- The field prime of P-384. -/
def p384P : Nat := 2 ^ 384 - 2 ^ 128 - 2 ^ 96 + 2 ^ 32 - 1
/-- The order of the base point of P-384. -/
def p384N : Nat := 0xffffffffffffffffffffffffffffffffffffffffffffffffc7634d81f4372ddf581a0db248b0a77aecec196accc52973
/-- The curve coefficient b. -/
def p384B : Nat := 0xb3312fa7e23ee7e4988e056be3f82d19181d9c6efe8141120314088f5013875ac656398d8a2ed19d2a85c8edd3ec2aef
/-- The base point of P-384. -/
def p384G : Nat × Nat :=
  (0xaa87ca22be8b05378eb1c71ef320ad746e1d3b628ba79b9859f741e082542a385502f25dbf55296c3a545e3872760ab7,
   0x3617de4a96262c6f5d9e98bf9292dc29f8f41dbd289a147ce9da3113b5f0b8c00a60b1ce1d7e819d7a431d7c90ea0e5f)

/-- Power modulo m, by squaring: `fuel` bits of the exponent. -/
def powMod (m : Nat) : Nat → Nat → Nat → Nat
  | 0, _, _ => 1 % m
  | fuel + 1, b, e =>
    let r := powMod m fuel (b * b % m) (e / 2)
    if e % 2 = 1 then r * b % m else r

/-- Inverse modulo a prime, by Fermat's theorem. -/
def invMod (m a : Nat) : Nat := powMod m 384 (a % m) (m - 2)

/-- Addition of two points of P-384; `none` is the point at infinity. -/
def ecAdd : Option (Nat × Nat) → Option (Nat × Nat) → Option (Nat × Nat)
  | none, q => q
  | p, none => p
  | some (x1, y1), some (x2, y2) =>
    let m := p384P
    if x1 = x2 && (y1 + y2) % m = 0 then none
    else
      let l :=
        if x1 = x2 then (3 * x1 * x1 + (m - 3)) * invMod m (2 * y1) % m
        else (y2 + m - y1) * invMod m (x2 + m - x1) % m
      let x3 := (l * l + 2 * m - x1 - x2) % m
      some (x3, (l * (x1 + m - x3) + m - y1) % m)

/-- Scalar multiple of a point: `fuel` bits of the scalar. -/
def ecMul : Nat → Nat → Option (Nat × Nat) → Option (Nat × Nat)
  | 0, _, _ => none
  | fuel + 1, k, p =>
    let r := ecMul fuel (k / 2) (ecAdd p p)
    if k % 2 = 1 then ecAdd p r else r

/-- Whether (r, s) is a good signature of the hash `z` under the public key (qx, qy). -/
def ecdsaVerify (qx qy z r s : Nat) : Bool :=
  let onCurve := qx < p384P && qy < p384P && (qy * qy) % p384P = (qx * qx * qx + (p384P - 3) * qx + p384B) % p384P
  if onCurve && 0 < r && r < p384N && 0 < s && s < p384N then
    let w := invMod p384N s
    match ecAdd (ecMul 384 (z * w % p384N) (some p384G)) (ecMul 384 (r * w % p384N) (some (qx, qy))) with
    | none => false
    | some (x, _) => x % p384N = r
  else false

end Sys2Proof.Machine
end

