-- ==== Sys2Proof/Machine/Numeric.lean ====
section
/-! DEFINITION. The number formats, the one rounding rule, saturation, row scales, the pairwise sum, distances and
ranking keys of "Number formats, quantisation and scaling" (R65–R88). A floating-point value is held as its code. -/

namespace Sys2Proof.Machine

/-! ### Formats (Tables NF-1 and NF-2) -/

/-- A floating-point format: exponent and mantissa bits, bias, the code of Qmax, the code of +infinity where the
format has one, and the canonical NaN (Table NF-2). -/
structure FpFmt where
  eb : Nat
  mb : Nat
  bias : Nat
  qmax : Nat
  inf : Option Nat
  nan : Nat
  deriving DecidableEq, Repr

/-- FP8_E4M3 -/
def fmtE4M3 : FpFmt := { eb := 4, mb := 3, bias := 7, qmax := 0x7E, inf := none, nan := 0x7F }
/-- FP8_E5M2 -/
def fmtE5M2 : FpFmt := { eb := 5, mb := 2, bias := 15, qmax := 0x7B, inf := some 0x7C, nan := 0x7E }
/-- BF16 -/
def fmtBF16 : FpFmt := { eb := 8, mb := 7, bias := 127, qmax := 0x7F7F, inf := some 0x7F80, nan := 0x7FC0 }
/-- FP16 -/
def fmtFP16 : FpFmt := { eb := 5, mb := 10, bias := 15, qmax := 0x7BFF, inf := some 0x7C00, nan := 0x7E00 }
/-- FP32 -/
def fmtFP32 : FpFmt :=
  { eb := 8, mb := 23, bias := 127, qmax := 0x7F7FFFFF, inf := some 0x7F800000, nan := 0x7FC00000 }

/-- The floating-point format of a format code. -/
def fpFmt (code : Nat) : Option FpFmt :=
  match code with
  | 3 => some fmtE4M3 | 4 => some fmtE5M2 | 5 => some fmtBF16 | 6 => some fmtFP16 | 7 => some fmtFP32
  | _ => none

/-- The integer formats INT8 and INT4. -/
def isIntFmt (code : Nat) : Bool := code == 1 || code == 2
/-- The floating-point formats. -/
def isFpFmt (code : Nat) : Bool := 3 ≤ code && code ≤ 7
/-- A format code that Table NF-1 names. -/
def knownFmt (code : Nat) : Bool := 1 ≤ code && code ≤ 8
/-- Element width in bits (Table NF-1). -/
def fmtBits (code : Nat) : Nat :=
  match code with
  | 1 => 8 | 2 => 4 | 3 => 8 | 4 => 8 | 5 => 16 | 6 => 16 | 7 => 32 | 8 => 8 | _ => 0
/-- Bytes of a row of n elements; an odd INT4 row ends in a padded byte (R67). -/
def rowBytes (code n : Nat) : Nat := ceilDiv (n * fmtBits code) 8
/-- Lanes per cycle (Table TL-2). -/
def lanes (code : Nat) : Nat :=
  match code with
  | 2 => 128 | 1 => 64 | 3 => 64 | 4 => 64 | 5 => 32 | 6 => 32 | _ => 16
/-- The formats that take a row scale (R74). -/
def scaledFmt (code : Nat) : Bool := 1 ≤ code && code ≤ 4

/-- The operand pairs of Table NF-6. -/
def pairOk (l r : Nat) : Bool :=
  match l with
  | 1 => r == 1 || r == 2
  | 2 => r == 2
  | 3 => r == 3 || r == 4
  | 4 => r == 3 || r == 4
  | 5 => r == 5
  | 6 => r == 6
  | 7 => isFpFmt r
  | _ => false

/-! ### Values and the rounding rule (R66–R72) -/

/-- What a code stands for: NaN, an infinity, or the exact value ±m × 2^e. -/
inductive FpVal where
  | nan
  | inf (neg : Bool)
  | fin (neg : Bool) (m : Nat) (e : Int)
  deriving DecidableEq, Repr

/-- The value of a code (R66, R68). -/
def fpDecode (f : FpFmt) (code : Nat) : FpVal :=
  let mag := code % 2 ^ (f.eb + f.mb)
  let neg := code.testBit (f.eb + f.mb)
  let ex := mag / 2 ^ f.mb
  let fr := mag % 2 ^ f.mb
  if f.inf = some mag then .inf neg
  else if mag > f.qmax then .nan
  else if ex = 0 then .fin neg fr (1 - (f.bias : Int) - f.mb)
  else .fin neg (fr + 2 ^ f.mb) ((ex : Int) - f.bias - f.mb)

/-- Round m × 2^e, with something smaller than its last place left over when `sticky`, to the nearest magnitude code,
ties to even (R70). The code may lie beyond Qmax. -/
def roundMag (f : FpFmt) (m : Nat) (e : Int) (sticky : Bool) : Nat :=
  if m = 0 then 0
  else
    let emin : Int := 1 - (f.bias : Int) - f.mb
    let len : Int := (Nat.log2 m : Int) + 1
    let q := max emin (e + len - (f.mb + 1 : Nat))
    let r :=
      if q ≤ e then m * 2 ^ (e - q).toNat
      else
        let sh := (q - e).toNat
        let hi := m / 2 ^ sh
        let lo := m % 2 ^ sh
        let half := 2 ^ (sh - 1)
        if lo > half || (lo = half && (sticky || hi % 2 = 1)) then hi + 1 else hi
    ((q - emin).toNat) * 2 ^ f.mb + r

/-- The result of one rounding or conversion: its code, and whether it was saturated (R71) or a NaN (R72). -/
structure Rounded where
  code : Nat
  sat : Bool
  nan : Bool
  deriving DecidableEq, Repr

/-- Sign bit and magnitude joined. -/
def withSign (f : FpFmt) (neg : Bool) (mag : Nat) : Nat := if neg then mag + 2 ^ (f.eb + f.mb) else mag

/-- Round an exact value into a format: beyond Qmax it takes Qmax of its sign and is saturated (R71). -/
def roundFin (f : FpFmt) (neg : Bool) (m : Nat) (e : Int) (sticky : Bool) : Rounded :=
  let c := roundMag f m e sticky
  if c > f.qmax then { code := withSign f neg f.qmax, sat := true, nan := false }
  else { code := withSign f neg c, sat := false, nan := false }

/-- Convert a value into a format under R70–R72 and Table NF-3; only FP32 takes an infinity unchanged. -/
def convertTo (code : Nat) (v : FpVal) : Rounded :=
  match fpFmt code with
  | some f =>
    match v with
    | .nan => { code := f.nan, sat := false, nan := true }
    | .inf neg =>
      if code = 7 then { code := withSign f neg 0x7F800000, sat := false, nan := false }
      else { code := withSign f neg f.qmax, sat := true, nan := false }
    | .fin neg m e => roundFin f neg m e false
  | none =>
    let q := if code = 2 then 7 else 127
    let bits := fmtBits code
    let put (neg : Bool) (k : Nat) : Nat := if neg && k ≠ 0 then 2 ^ bits - k else k
    match v with
    | .nan => { code := 0, sat := false, nan := true }
    | .inf neg => { code := put neg q, sat := true, nan := false }
    | .fin neg m e =>
      let k :=
        if 0 ≤ e then m * 2 ^ e.toNat
        else
          let sh := (-e).toNat
          let hi := m / 2 ^ sh
          let lo := m % 2 ^ sh
          let half := 2 ^ (sh - 1)
          if lo > half || (lo = half && hi % 2 = 1) then hi + 1 else hi
      if k > q then { code := put neg q, sat := true, nan := false }
      else { code := put neg k, sat := false, nan := false }

/-! ### FP32 arithmetic, with its saturations counted (R70–R72) -/

/-- An FP32 value and the number of roundings on the way to it that saturated. -/
structure Fl where
  v : Word32
  sat : Nat
  deriving DecidableEq, Repr

/-- A value that costs no further saturation. -/
def fl (v : Word32) : Fl := { v := v, sat := 0 }
/-- +0 -/
def flZero : Fl := fl 0
/-- The value of an FP32 code. -/
def f32Val (w : Word32) : FpVal := fpDecode fmtFP32 w.toNat
/-- Whether an FP32 code is a NaN. -/
def f32IsNan (w : Word32) : Bool := f32Val w == .nan
/-- The canonical NaN of FP32. -/
def f32Nan : Word32 := 0x7FC00000#32
/-- An infinity of FP32. -/
def f32Inf (neg : Bool) : Word32 := if neg then 0xFF800000#32 else 0x7F800000#32
/-- Round an exact value to FP32. -/
def flRound (neg : Bool) (m : Nat) (e : Int) (sticky : Bool) (sat : Nat) : Fl :=
  let r := roundFin fmtFP32 neg m e sticky
  { v := BitVec.ofNat 32 r.code, sat := sat + flag r.sat }
/-- An integer as FP32: float(A) of R83. -/
def flOfInt (i : Int) : Fl := flRound (decide (i < 0)) i.natAbs 0 false 0

/-- Negation changes the sign bit; of a NaN the canonical NaN (R84). -/
def flNeg (a : Fl) : Fl := if f32IsNan a.v then { a with v := f32Nan } else { a with v := a.v ^^^ 0x80000000#32 }

/-- fl(a + b) -/
def flAdd (a b : Fl) : Fl :=
  let k := a.sat + b.sat
  match f32Val a.v, f32Val b.v with
  | .nan, _ => { v := f32Nan, sat := k }
  | _, .nan => { v := f32Nan, sat := k }
  | .inf x, .inf y => if x = y then { v := f32Inf x, sat := k } else { v := f32Nan, sat := k }
  | .inf x, .fin .. => { v := f32Inf x, sat := k }
  | .fin .., .inf y => { v := f32Inf y, sat := k }
  | .fin n1 m1 e1, .fin n2 m2 e2 =>
    let e := min e1 e2
    let x : Int := (m1 * 2 ^ (e1 - e).toNat : Nat)
    let y : Int := (m2 * 2 ^ (e2 - e).toNat : Nat)
    let sum := (if n1 then -x else x) + (if n2 then -y else y)
    if sum = 0 then { v := if n1 && n2 then 0x80000000#32 else 0, sat := k }
    else flRound (decide (sum < 0)) sum.natAbs e false k

/-- fl(a − b) -/
def flSub (a b : Fl) : Fl := flAdd a (flNeg b)

/-- fl(a × b) -/
def flMul (a b : Fl) : Fl :=
  let k := a.sat + b.sat
  match f32Val a.v, f32Val b.v with
  | .nan, _ => { v := f32Nan, sat := k }
  | _, .nan => { v := f32Nan, sat := k }
  | .inf x, .inf y => { v := f32Inf (x != y), sat := k }
  | .inf x, .fin n m _ => if m = 0 then { v := f32Nan, sat := k } else { v := f32Inf (x != n), sat := k }
  | .fin n m _, .inf y => if m = 0 then { v := f32Nan, sat := k } else { v := f32Inf (n != y), sat := k }
  | .fin n1 m1 e1, .fin n2 m2 e2 =>
    if m1 = 0 || m2 = 0 then { v := if n1 != n2 then 0x80000000#32 else 0, sat := k }
    else flRound (n1 != n2) (m1 * m2) (e1 + e2) false k

/-- fl(a ÷ b), with division by zero as R71 gives it -/
def flDiv (a b : Fl) : Fl :=
  let k := a.sat + b.sat
  match f32Val a.v, f32Val b.v with
  | .nan, _ => { v := f32Nan, sat := k }
  | _, .nan => { v := f32Nan, sat := k }
  | .inf _, .inf _ => { v := f32Nan, sat := k }
  | .inf x, .fin n _ _ => { v := f32Inf (x != n), sat := k }
  | .fin n _ _, .inf y => { v := if n != y then 0x80000000#32 else 0, sat := k }
  | .fin n1 m1 e1, .fin n2 m2 e2 =>
    if m2 = 0 then (if m1 = 0 then { v := f32Nan, sat := k } else { v := f32Inf (n1 != n2), sat := k })
    else if m1 = 0 then { v := if n1 != n2 then 0x80000000#32 else 0, sat := k }
    else
      let num := m1 * 2 ^ 64
      flRound (n1 != n2) (num / m2) (e1 - e2 - 64) (num % m2 != 0) k

/-- Integer square root by bisection from the top bit: `fuel` bits of the root. -/
def isqrt : Nat → Nat → Nat → Nat
  | 0, _, r => r
  | fuel + 1, n, r =>
    let t := r + 2 ^ fuel
    if t * t ≤ n then isqrt fuel n t else isqrt fuel n r

/-- fl(sqrt a), correctly rounded (R85). The square root of a negative number is NaN. -/
def flSqrt (a : Fl) : Fl :=
  match f32Val a.v with
  | .nan => { a with v := f32Nan }
  | .inf neg => if neg then { a with v := f32Nan } else a
  | .fin neg m e =>
    if m = 0 then a
    else if neg then { a with v := f32Nan }
    else
      let odd := decide (e % 2 ≠ 0)
      let m2 := (if odd then m * 2 else m) * 2 ^ 64
      let e2 := (if odd then e - 1 else e) - 64
      let r := isqrt 48 m2 0
      flRound false r (e2 / 2) (r * r != m2) a.sat

/-- |a| as a comparable number; infinities and NaN give none. -/
def f32AbsFinite (w : Word32) : Option Nat :=
  match f32Val w with
  | .fin .. => some (w.toNat % 2 ^ 31)
  | _ => none

/-! ### Elements in memory -/

/-- The value of a stored element, integers included. -/
def elemVal (code : Nat) (w : Nat) : FpVal :=
  match fpFmt code with
  | some f => fpDecode f w
  | none =>
    let bits := fmtBits code
    if code = 8 then .fin false (w % 2 ^ 8) 0
    else if w.testBit (bits - 1) then .fin true (2 ^ bits - w % 2 ^ bits) 0
    else .fin false (w % 2 ^ bits) 0

/-- A stored element as FP32: exact for every format (R70). -/
def elemF32 (code : Nat) (w : Nat) : Word32 := BitVec.ofNat 32 (convertTo 7 (elemVal code w)).code

/-- A stored integer element. -/
def elemInt (code : Nat) (w : Nat) : Int :=
  match elemVal code w with
  | .fin neg m _ => if neg then -(m : Int) else m
  | _ => 0

/-- The codes of n elements of a row's bytes; INT4 is packed two to a byte, low nibble first (R67). -/
def rowCodes (code n : Nat) (bs : List Byte) : List Nat :=
  (List.range n).map fun i =>
    if code = 2 then field (natAt bs (i / 2) 1) (4 * (i % 2)) 4
    else natAt bs (i * (fmtBits code / 8)) (fmtBits code / 8)

/-- The bytes of a row of codes; the high nibble of an odd INT4 row is 0 (R67). -/
def packRow (code : Nat) : List Nat → List Byte
  | [] => []
  | [a] => if code = 2 then [BitVec.ofNat 8 (a % 16)] else leBytes (fmtBits code / 8) a
  | a :: b :: r =>
    if code = 2 then BitVec.ofNat 8 (a % 16 + 16 * (b % 16)) :: packRow code r
    else leBytes (fmtBits code / 8) a ++ packRow code (b :: r)

/-- The elements of a row as FP32. -/
def rowF32 (code n : Nat) (bs : List Byte) : List Word32 := (rowCodes code n bs).map (elemF32 code)

/-- How many elements of a list are NaN. -/
def countNan (l : List Word32) : Nat := (l.filter f32IsNan).length

/-! ### The pairwise sum (R82) -/

/-- The least power of two that is not below n, for n up to 2^fuel. -/
def pow2Up : Nat → Nat → Nat → Nat
  | 0, _, w => w
  | fuel + 1, n, w => if w < n then pow2Up fuel n (2 * w) else w

/-- One level of the tree: neighbours added. -/
def pairLevel {α : Type} (add : α → α → α) : List α → List α
  | a :: b :: r => add a b :: pairLevel add r
  | l => l

/-- `levels` levels of the tree. -/
def pairLevels {α : Type} (add : α → α → α) : Nat → List α → List α
  | 0, l => l
  | k + 1, l => pairLevels add k (pairLevel add l)

/-- The complete binary tree over the terms, padded with `zero` to a power of two (R82). -/
def pairwise {α : Type} (add : α → α → α) (zero : α) (ts : List α) : α :=
  let w := pow2Up 40 ts.length 1
  (pairLevels add (Nat.log2 w) (ts ++ List.replicate (w - ts.length) zero)).headD zero

/-- The pairwise sum in FP32. -/
def flSum (ts : List Fl) : Fl := pairwise flAdd flZero ts

/-- An INT32 accumulator and its saturated additions (R82). -/
structure IAcc where
  v : Int
  sat : Nat
  deriving DecidableEq, Repr

/-- Saturating INT32 addition. -/
def iAdd (a b : IAcc) : IAcc :=
  let x := a.v + b.v
  let k := a.sat + b.sat
  if x > 2147483647 then { v := 2147483647, sat := k + 1 }
  else if x < -2147483648 then { v := -2147483648, sat := k + 1 }
  else { v := x, sat := k }

/-- INT32 from its 32 bits, and back. -/
def int32Of (w : Nat) : Int := (BitVec.ofNat 32 w).toInt
/-- The 32 bits of an INT32. -/
def int32Bits (i : Int) : Nat := (BitVec.ofInt 32 i).toNat

/-- An integer dot product. -/
def intDot (fa fb : Nat) (a b : List Nat) : IAcc :=
  pairwise iAdd { v := 0, sat := 0 } ((a.zip b).map fun p => { v := elemInt fa p.1 * elemInt fb p.2, sat := 0 })

/-- A floating-point dot product of FP32 elements: products rounded (exact for the 8- and 16-bit pairs), summed by
the tree. -/
def flDot (a b : List Word32) : Fl := flSum ((a.zip b).map fun p => flMul (fl p.1) (fl p.2))

/-! ### Row scales (R74–R79) -/

/-- Qmax of a scaled format as FP32. -/
def qmaxF32 (code : Nat) : Word32 :=
  match code with
  | 1 => (flOfInt 127).v | 2 => (flOfInt 7).v | 3 => (flOfInt 448).v | _ => (flOfInt 57344).v

/-- m of R74: the largest finite magnitude of a row. -/
def rowMax (x : List Word32) : Word32 :=
  BitVec.ofNat 32 (x.foldl (fun m w => match f32AbsFinite w with | some a => max m a | none => m) 0)

/-- The raw scale s of R74. -/
def rawScale (code : Nat) (x : List Word32) : Word32 := (flDiv (fl (rowMax x)) (fl (qmaxF32 code))).v


/-- No count. -/
def Counts0 : Counts := { sat := 0, nan := 0, sund := 0, range := 0, ecc := 0 }

/-- Counts added; each saturates at 2³² − 1 within one command (R455). -/
def addCounts (a b : Counts) : Counts :=
  let c (x y : Nat) := min (x + y) 0xFFFFFFFF
  { sat := c a.sat b.sat, nan := c a.nan b.nan, sund := c a.sund b.sund, range := c a.range b.range,
    ecc := c a.ecc b.ecc }

/-- One element quantised against the stored scale s′ (R74, R75). -/
def quantElem (code : Nat) (s' : Word32) (x : Word32) : Rounded :=
  match f32Val x with
  | .fin .. => if s'.toNat % 2 ^ 31 = 0 then { code := 0, sat := false, nan := false }
      else convertTo code (f32Val (flDiv (fl x) (fl s')).v)
  | v => convertTo code v

/-- A row quantised against s′: its codes and counts. -/
def quantRow (code : Nat) (s' : Word32) (x : List Word32) : List Nat × Counts :=
  let rs := x.map (quantElem code s')
  (rs.map (·.code), { Counts0 with sat := (rs.filter (·.sat)).length, nan := (rs.filter (·.nan)).length })

/-- A row quantised with an unstored FP32 scale: scale, codes, counts. -/
def quantUnstored (code : Nat) (x : List Word32) : Word32 × List Nat × Counts :=
  let s := rawScale code x
  let (q, c) := quantRow code s x
  (s, q, { c with sund := flag (rowMax x ≠ 0 ∧ s = 0) })

/-- A row quantised with an FP16 SIDE scale (R76): scale code, codes, counts. -/
def quantSide (code : Nat) (x : List Word32) : Nat × List Nat × Counts :=
  let r := convertTo 6 (f32Val (rawScale code x))
  let s' := elemF32 6 r.code
  let (q, c) := quantRow code s' x
  (r.code, q, { c with sat := c.sat + flag r.sat, sund := flag (rowMax x ≠ 0 ∧ r.code = 0) })

/-- The 255 of R78. -/
def f32_255 : Word32 := (flOfInt 255).v

/-- A NESTED row code before limits: round(fl(fl(s × 255) ÷ S)). -/
def nestedRaw (s S : Word32) : Nat :=
  match f32Val (flDiv (flMul (fl s) (fl f32_255)) (fl S)).v with
  | .fin _ m e =>
    if 0 ≤ e then m * 2 ^ e.toNat
    else
      let sh := (-e).toNat
      let hi := m / 2 ^ sh
      let lo := m % 2 ^ sh
      if lo > 2 ^ (sh - 1) || (lo = 2 ^ (sh - 1) && hi % 2 = 1) then hi + 1 else hi
  | _ => 0

/-- Code of a row of raw scale s in a sheaf of scale S (R78, R79), whether it was raised to 1, and whether it was
limited to 255. -/
def nestedCode (s S : Word32) : Nat × Bool × Bool :=
  if s.toNat = 0 || S.toNat = 0 then (0, false, false)
  else
    let c := nestedRaw s S
    if c = 0 then (1, true, false) else if c > 255 then (255, false, true) else (c, false, false)

/-- The effective scale fl(fl(c × S) ÷ 255) (R78). -/
def nestedScale (c : Nat) (S : Word32) : Word32 := (flDiv (flMul (flOfInt c) (fl S)) (fl f32_255)).v

/-- A row quantised into a sheaf whose scale S is fixed (R78, R79): row code, codes, counts. -/
def quantNestedRow (code : Nat) (S : Word32) (x : List Word32) : Nat × List Nat × Counts :=
  let s := rawScale code x
  let (c, raised, _) := nestedCode s S
  let (q, k) := quantRow code (nestedScale c S) x
  (c, q, { k with sund := flag (raised ∨ (rowMax x ≠ 0 ∧ (s = 0 ∨ (nestedScale c S).toNat = 0))) })

/-- The sheaf scale of a new NESTED sheaf: the largest raw scale (R78). -/
def nestedSheafScale (code : Nat) (rows : List (List Word32)) : Word32 :=
  BitVec.ofNat 32 (rows.foldl (fun m x => max m (rawScale code x).toNat) 0)

/-! ### Distances, codes and keys (R84–R87) -/

/-- Inner product of a query and a stored row, with the row scale where it has one (Table NF-7). -/
def exactIp (q y : List Word32) (s : Option Word32) : Fl :=
  let d := flDot q y
  match s with
  | some sx => flMul d (fl sx)
  | none => d

/-- Squared Euclidean distance (Table NF-7). -/
def exactL2 (q y : List Word32) (s : Option Word32) : Fl :=
  flSum ((q.zip y).map fun p =>
    let yy := match s with | some sx => flMul (fl p.2) (fl sx) | none => fl p.2
    let e := flSub (fl p.1) yy
    flMul e (fl e.v))

/-- The exact ranking key: −ip, or d for squared Euclidean (Table NF-7). -/
def exactKey (l2 : Bool) (q y : List Word32) (s : Option Word32) : Fl :=
  if l2 then exactL2 q y s else flNeg (exactIp q y s)

/-- The norm r and the normalised vector (R85). -/
def normalise (v : List Word32) : Fl × List Fl :=
  let r := flSqrt (flSum (v.map fun x => flMul (fl x) (fl x)))
  (r, v.map fun x => if r.v.toNat % 2 ^ 31 = 0 then flZero else flDiv (fl x) (fl r.v))

/-- The sortable form of a ranking key (R87). -/
def sortable (k : Word32) : Nat :=
  if f32IsNan k then 0xFFFFFFFF
  else
    let b := if k = 0x80000000#32 then 0 else k.toNat
    if b ≥ 2 ^ 31 then 2 ^ 32 - 1 - b else b + 2 ^ 31

/-- The key whose sortable form this is; 0xFFFF_FFFF gives the canonical NaN. -/
def unsortable (k : Nat) : Word32 :=
  if k = 0xFFFFFFFF then f32Nan
  else if k ≥ 2 ^ 31 then BitVec.ofNat 32 (k - 2 ^ 31) else BitVec.ofNat 32 (2 ^ 32 - 1 - k)

/-- A code score fl(base + pairwise(L₀[c₀], …)) from LUT entries in FP16 (R86). -/
def codeScore (base : Word32) (lut : List Nat) (code : List Nat) : Fl :=
  flAdd (fl base) (flSum (code.zipIdx.map fun (c, j) => fl (elemF32 6 (lut.getD (j * 256 + c) 0))))

/-- A weighted reduce of rows of FP32 elements, with weights and optional scales, in list order (R88). -/
def weightedReduce (n : Nat) (rows : List (List Word32 × Word32 × Option Word32)) : List Fl :=
  (List.range n).map fun j =>
    flSum (rows.map fun (q, w, s) =>
      let t := match s with | some x => flMul (fl w) (fl x) | none => fl w
      flMul (fl (q.getD j 0)) (fl t.v))

/-- Saturations of the combined factors of a weighted reduce, which R88 forms once for each row. -/
def factorSats (rows : List (List Word32 × Word32 × Option Word32)) : Nat :=
  (rows.map fun (_, w, s) => match s with | some x => (flMul (fl w) (fl x)).sat | none => 0).sum

end Sys2Proof.Machine
end

