-- ==== Sys2Proof/Machine/Plan.lean ====
section
/-! DEFINITION. The plan image: header, sections and records as the node reads them (02 R45–R48, 05 R134–R135,
06 R168, R172, 07 R190, 10 R260), and the admission slots that the active image gives (02 R59). -/

namespace Sys2Proof.Machine

/-! ### Image and sections (R45, Tables TK-4 to TK-6) -/

/-- A section directory entry. -/
structure SecEnt where
  kind : Nat
  crc : Nat
  rsv : Nat
  len : Nat
  off : Nat
  deriving DecidableEq, Repr

/-- The nine directory entries of an image. -/
def secEntries (img : List Byte) : List SecEnt :=
  (List.range 9).map fun i =>
    let w0 := natAt img (0x40 + 16 * i) 8
    let w1 := natAt img (0x48 + 16 * i) 8
    { kind := field w0 0 8, crc := field w0 32 32, rsv := field w0 8 24, len := field w1 32 32, off := field w1 0 32 }

/-- The bytes of a section. -/
def secBytes (img : List Byte) (kind : Nat) : List Byte :=
  match (secEntries img).find? fun e => e.kind == kind with
  | some e => bytesAt img (64 * e.off) (64 * e.len)
  | none => []

/-- Trailing records whose every byte is 0 are padding, the first record excepted (R45). -/
def dropPadding : List (List Byte) → List (List Byte)
  | [] => []
  | r :: rest => r :: (rest.reverse.dropWhile fun x => x.all (· == 0)).reverse

/-- The records of `n` bytes of a section. -/
def secRecs (img : List Byte) (kind n : Nat) : List (List Byte) :=
  let b := secBytes img kind
  dropPadding (chunksOf n (b.length / n) b)

/-- The active image's bytes; empty when the slot is, or while a warm boot has not yet revalidated it (R429). -/
def State.plan0 (s : State) : List Byte :=
  match s.plan.active with | some p => if p.valid then p.image else [] | none => []

/-- DIGEST_0 of an image. -/
def imgDigest0 (img : List Byte) : Nat := natAt img 0x20 8
/-- TICK_LEN of an image. -/
def imgTickLen (img : List Byte) : Nat := field (natAt img 8 8) 8 8

/-! ### SLOTS (Table TK-7) and admission (R59) -/

/-- A slot record. -/
structure SlotRec where
  fn : Nat
  cls : Nat
  slots : Nat
  carry : Nat
  deriving DecidableEq, Repr

/-- The slot records of an image. -/
def slotRecs (img : List Byte) : List SlotRec :=
  (secRecs img 3 8).map fun r =>
    let w := natAt r 0 8
    { fn := field w 0 12, cls := field w 16 8, slots := field w 24 20, carry := field w 44 20 }

/-- The slot record of a function and class. -/
def slotRecOf (img : List Byte) (f c : Nat) : SlotRec :=
  ((slotRecs img).find? fun r => r.fn == f && r.cls == c).getD { fn := f, cls := c, slots := 0, carry := 0 }

/-! ### RESERVATIONS (Table TI-11) -/

/-- A reservation record. -/
structure ResRec where
  rate : Nat
  tier : Nat
  stack : Nat
  fn : Nat
  cat : Nat
  cls : Nat
  wstart : Nat
  wend : Nat
  deriving DecidableEq, Repr

/-- The reservation records of an image. -/
def resRecs (img : List Byte) : List ResRec :=
  (secRecs img 9 16).map fun r =>
    let w := natAt r 0 8
    let v := natAt r 8 8
    { rate := field w 32 32, tier := field w 28 4, stack := field w 24 3, fn := field w 12 12, cat := field w 8 4
      cls := field w 0 8, wstart := field v 0 32, wend := field v 32 32 }

/-- The category of a function and class: the CAT of its reservations (R172, R202). -/
def catOf (img : List Byte) (f c : Nat) : Option Nat :=
  ((resRecs img).find? fun r => r.fn == f && r.cls == c).map (·.cat)

/-- The largest sum of rates over an instant of the tick, of a tier and stack, over the records that `keep` takes
(R173). The sum is largest at some record's start. -/
def demandOf (rs : List ResRec) (tier stack : Nat) (keep : ResRec → Bool) : Nat :=
  let mine := rs.filter fun r => r.tier == tier && (decide (2 ≤ tier) || r.stack == stack) && keep r
  (mine.map fun a =>
    ((mine.filter fun b => decide (b.wstart ≤ a.wstart) && decide (a.wstart < b.wend)).map (·.rate)).sum).foldl max 0

/-- Admission slots of a function and class in force: the active image's, cut by the shedding steps taken (R175). -/
def State.slotsOf (s : State) (f c : Nat) : Nat :=
  let n := (slotRecOf s.plan0 f c).slots
  let has (step : Nat) : Bool := s.tiers.shed.contains step
  match catOf s.plan0 f c with
  | some 0 => if has 5 then n * s.tiers.shedNum / s.tiers.shedDen else n
  | some 1 => if has 4 then 0 else n
  | some 2 => if has 3 then 0 else n
  | some 3 => if has 1 then 0 else n
  | _ => n

/-- Admission slots for new descriptors: a front node scales its search classes while a domain is alone (R402). -/
def State.admitSlots (s : State) (f c : Nat) : Nat :=
  let n := s.slotsOf f c
  if 0x10 ≤ c && c ≤ 0x1F && (s.faults.domains.any fun d => d.solo) then n * s.cfg 2 0x0A 0 / 100 else n

/-- Whether a class takes admission slots: search, lookup, select and update classes (R59). -/
def classHasSlots (c : Nat) : Bool := decide (0x10 ≤ c) && decide (c ≤ 0x4E)

/-- Work of a function and class that is not complete. -/
def State.openWork (s : State) (f c : Nat) : List Work :=
  s.host.work.filter fun w => w.fn == f && w.cls == c && w.done.isNone

/-- Admission slots that are left for new descriptors of a function and class in this tick (R59, R207). Carried items
fill the carry slots first; an EXHAUSTIVE query holds its slot until it completes. -/
def State.slotsLeft (s : State) (f c : Nat) : Nat :=
  let r := slotRecOf s.plan0 f c
  let ws := s.openWork f c
  let carried := (ws.filter fun w => w.carried).map (·.slots)
  let fresh := (s.host.work.filter fun w => w.fn == f && w.cls == c && !w.carried &&
    (w.admitTick == s.tick.count || (c = 0x1F && w.done.isNone))).map (·.slots)
  s.admitSlots f c - (carried.sum - r.carry) - fresh.sum

/-- Whether a function and class have admission slots or carry slots in the active image. -/
def State.hasSlots (s : State) (f c : Nat) : Bool :=
  let r := slotRecOf s.plan0 f c
  decide (0 < r.slots) || decide (0 < r.carry)

/-! ### SHEAF_MOVES (Table TI-9) -/

/-- A sheaf move record. -/
structure MoveRec where
  issue : Nat
  srcTier : Nat
  dstTier : Nat
  phase : Nat
  bind : Nat
  fn : Nat
  cls : Nat
  src : Nat
  dst : Nat
  kind : Nat
  len : Nat
  rsv : Nat
  stile : Nat
  value : Nat
  deriving DecidableEq, Repr

/-- The move records of an image. -/
def moveRecs (img : List Byte) : List MoveRec :=
  (secRecs img 4 32).map fun r =>
    let w := natAt r 0 8
    let v := natAt r 24 8
    { issue := field w 32 32, srcTier := field w 30 2, dstTier := field w 28 2, phase := field w 24 4
      bind := field w 20 4, fn := field w 8 12, cls := field w 0 8, src := natAt r 8 8, dst := natAt r 16 8
      kind := field v 56 8, len := field v 45 11, rsv := field v 38 7, stile := field v 24 14, value := field v 0 24 }

/-! ### FLASH_WINDOWS (Table FL-8) -/

/-- A flash window record. -/
structure WinRec where
  first : Nat
  last : Nat
  deadline : Nat
  kind : Nat
  phase : Nat
  fn : Nat
  cls : Nat
  maxReads : Nat
  maxPlane : Nat
  maxChannel : Nat
  rsv : Bool
  deriving DecidableEq, Repr

/-- The flash window records of an image. -/
def winRecs (img : List Byte) : List WinRec :=
  (secRecs img 5 32).map fun r =>
    let w := natAt r 0 8
    let v := natAt r 8 8
    let x := natAt r 16 8
    { first := field w 32 32, last := field w 0 32, deadline := field v 32 32, kind := field v 28 4
      phase := field v 24 4, fn := field v 12 12, cls := field v 0 8, maxReads := field x 32 32
      maxPlane := field x 24 8, maxChannel := field x 16 8
      rsv := field v 8 4 != 0 || field x 0 16 != 0 || natAt r 24 8 != 0 }

/-! ### SPLIT (Table VS-4) -/

/-- A split record. -/
structure SplitRec where
  index : Nat
  fn : Nat
  cls : Nat
  mode : Nat
  t : Nat
  slots : Nat
  deriving DecidableEq, Repr

/-- The split records of an image. -/
def splitRecs (img : List Byte) : List SplitRec :=
  (secRecs img 8 8).map fun r =>
    let w := natAt r 0 8
    { index := field w 48 16, fn := field w 36 12, cls := field w 28 8, mode := field w 26 2, t := field w 18 8
      slots := field w 0 18 }

/-- The split that holds for an index and class: AUTO with T = 4 and no tile sheaf slots where there is no record
(R190). -/
def splitOf (img : List Byte) (f c ix : Nat) : SplitRec :=
  ((splitRecs img).find? fun r => r.fn == f && r.cls == c && r.index == ix).getD
    { index := ix, fn := f, cls := c, mode := 0, t := 4, slots := 0 }

/-! ### FABRIC_GATES (Table EG-1) and STILE_ALLOC (Table ST-10) -/

/-- A fabric gate record. -/
structure GateRec where
  open_ : Nat
  close : Nat
  kind : Nat
  cut : Bool
  phase : Nat
  tc : Nat
  ports : Nat
  fn : Nat
  conn : Nat
  addr : Nat
  size : Nat
  rsv : Bool
  deriving DecidableEq, Repr

/-- The fabric gate records of an image. -/
def gateRecs (img : List Byte) : List GateRec :=
  (secRecs img 6 32).map fun r =>
    let w := natAt r 0 8
    let v := natAt r 8 8
    let z := natAt r 24 8
    { open_ := field w 32 32, close := field w 0 32, kind := field v 62 2, cut := v.testBit 61, phase := field v 57 4
      tc := field v 54 3, ports := field v 46 8, fn := field v 33 12, conn := field v 0 21, addr := natAt r 16 8
      size := field z 32 32, rsv := v.testBit 45 || field v 21 12 != 0 || field z 0 32 != 0 }

/-- A stile allocation record. -/
structure AllocRec where
  stile : Nat
  fn : Nat
  homeKind : Nat
  home : Nat
  init : Nat
  remote : Bool
  host : Bool
  rsv : Bool
  deriving DecidableEq, Repr

/-- The stile allocation records of an image. -/
def allocRecs (img : List Byte) : List AllocRec :=
  (secRecs img 7 16).map fun r =>
    let w := natAt r 0 8
    let v := natAt r 8 8
    { stile := field w 50 14, fn := field w 38 12, homeKind := field w 36 2, home := field w 24 12, init := field w 0 24
      remote := v.testBit 1, host := v.testBit 0, rsv := field v 2 62 != 0 }

/-! ### BURROW_PROGRAMS (Tables WA-6, WA-7) -/

/-- A directory entry of BURROW_PROGRAMS. -/
structure ProgEnt where
  off : Nat
  len : Nat
  slotOff : Nat
  slotCount : Nat
  rsv : Bool
  deriving DecidableEq, Repr

/-- The directory entry of a logical burrow. -/
def progEnt (sec : List Byte) (b : Nat) : ProgEnt :=
  let w := natAt sec (16 * b) 8
  let v := natAt sec (16 * b + 8) 8
  { off := field w 32 32, len := field w 0 12, slotOff := field v 32 32, slotCount := field v 0 7
    rsv := field w 12 20 != 0 || field v 7 25 != 0 }

/-- A burrow slot record. -/
structure BSlot where
  start : Nat
  phase : Nat
  kind : Nat
  fn : Nat
  rsv : Bool
  entry : Nat
  budget : Nat
  cls : Nat
  deriving DecidableEq, Repr

/-- The slot table of a burrow. -/
def burrowSlots (sec : List Byte) (b : Nat) : List BSlot :=
  let e := progEnt sec b
  (List.range e.slotCount).map fun i =>
    let w := natAt sec (64 * e.slotOff + 16 * i) 8
    let v := natAt sec (64 * e.slotOff + 16 * i + 8) 8
    { start := field w 32 32, phase := field w 28 4, kind := field w 24 4, fn := field w 12 12
      rsv := w.testBit 11 || field v 8 24 != 0, entry := field w 0 11, budget := field v 32 32, cls := field v 0 8 }

/-- The micro-program of a burrow. -/
def burrowProg (sec : List Byte) (b : Nat) : List Word64 :=
  let e := progEnt sec b
  bytesWords e.len (bytesAt sec (64 * e.off) (8 * e.len))

/-- A slot's planned end: START + BUDGET + 4 × ⌈BUDGET ÷ 16⌉ (R135). -/
def BSlot.endAt (b : BSlot) : Nat := b.start + b.budget + 4 * ceilDiv b.budget 16

/-- A slot of a burrow in the active image. -/
def State.bslot (s : State) (b slot : Nat) : Option BSlot := (burrowSlots (secBytes s.plan0 2) b)[slot]?

end Sys2Proof.Machine
end

