-- ==== Sys2Proof/Machine/Trace.lean ====
section
/-! DEFINITION. Node totals, class counts and trace records, as the engines produce them (18 R455–R463). -/

namespace Sys2Proof.Machine

/-- Node total `i` of Table OB-3 raised by n. -/
def State.total (s : State) (i n : Nat) : State :=
  { s with obs := { s.obs with totals := bumpAt s.obs.totals i n } }

/-- The class counts of a function and class; all zero when none is kept. -/
def State.classCounts (s : State) (f c : Nat) : ClassCounts :=
  (s.obs.classes.find? fun x => x.fn == f && x.cls == c).getD { fn := f, cls := c, words := List.replicate 16 0 }

/-- Class count `i` of Table OB-4 raised by n. Classes above 0x4F have no entry. -/
def State.classBump (s : State) (f c i n : Nat) : State :=
  if c ≤ 0x4F then
    let x := s.classCounts f c
    let y := { x with words := bumpAt x.words i n }
    { s with obs := { s.obs with classes := putBy (fun z => z.fn * 256 + z.cls) y s.obs.classes } }
  else s

/-- Tile-clock cycles (1.6 GHz) of a number of ns. -/
def cyclesOfNs (ns : Nat) : Nat := ns * 8 / 5

/-- TIME of the last tick edge: cycles since the tile PLL first locked (R461). -/
def State.edgeTime (s : State) : Nat :=
  match s.obs.trace.start with
  | some t0 => cyclesOfNs (s.tick.edgeNs - t0)
  | none => 0

/-- The most trace records that the 8 MiB staging buffer holds (R463). -/
def stagingCap : Nat := 524288

/-- Whether the running tick is traced (R460). -/
def State.tickTraced (s : State) : Bool :=
  let (_, _, every) := s.itemVals 0 1 3 0
  let (ring, _, _) := s.itemVals 0 1 2 0
  decide (ring ≠ 0) && decide (every ≠ 0) && s.tick.count.toNat % every == 0

/-- Whether a tile is traced in the running tick (R460). -/
def State.tileTraced (s : State) (tile : Nat) : Bool :=
  let (mask, v1, _) := s.itemVals 0 1 3 0
  s.tickTraced && mask.testBit (tile % 64) && decide (field v1 0 6 ≤ tile / 64) && decide (tile / 64 ≤ field v1 8 6)

/-- Whether a burrow is traced in the running tick (R460). -/
def State.burrowTraced (s : State) (b : Nat) : Bool :=
  let (_, v1, _) := s.itemVals 0 1 3 0
  s.tickTraced && v1.testBit (16 + b / 32)

/-- Order of the records of one TIME (R462): WRAP, which begins an epoch; TICK; then LOST and the engines' records by ENGINE,
END and ABANDON before BEGIN. -/
def traceRank (kind engine : Nat) : Nat :=
  match kind with
  | 5 => 0
  | 1 => 1
  | _ => 2 + 2 * engine + (if kind = 2 then 1 else 0)

/-- A record that is staged, or lost when the buffer is full (R463). -/
def State.traceRec (s : State) (time kind engine : Nat) (w1 : Word64) : State :=
  let t := s.obs.trace
  if t.staged.length < stagingCap then
    { s with obs := { s.obs with trace := { t with
        staged := t.staged ++ [(time, traceRank kind engine, word [(16, 48, time), (12, 4, kind)], w1)] } } }
  else
    let t2 := { t with lost := t.lost + 1, lostTime := if t.lost = 0 then time else t.lostTime }
    ({ s with obs := { s.obs with trace := t2 } }).total 19 1

/-- BEGIN of a command or item: its slip (Table OB-7). -/
def State.traceBegin (s : State) (engine opcode phase cycle slip : Nat) : State :=
  s.traceRec (s.edgeTime + cycle) 2 engine
    (word [(50, 14, engine), (42, 8, opcode), (38, 4, phase), (0, 32, min slip 0xFFFFFFFF)])

/-- END of a command or item: its counts in reduced form (Table OB-7). -/
def State.traceEnd (s : State) (engine opcode phase cycle : Nat) (c : Counts) (hold : Bool) : State :=
  let r (n : Nat) := min n 63
  s.traceRec (s.edgeTime + cycle) 3 engine
    (word [(50, 14, engine), (42, 8, opcode), (38, 4, phase), (26, 6, r c.sat), (20, 6, r c.nan), (14, 6, r c.sund),
      (8, 6, r c.range), (2, 6, r c.ecc), (1, 1, flag hold)])

/-- ABANDON of a command or item: the cycles it ran (Table OB-7). -/
def State.traceAbandon (s : State) (engine opcode phase cycle ran : Nat) : State :=
  s.traceRec (s.edgeTime + cycle) 4 engine
    (word [(50, 14, engine), (42, 8, opcode), (38, 4, phase), (0, 32, min ran 0xFFFFFFFF)])

end Sys2Proof.Machine
end

