-- ==== Sys2Proof/Machine/Tile.lean ====
section
/-! DEFINITION. The tiles: scratch, operands, costs and effects of every command of the catalogue, the selection
register, the queue and the scoreboard (04, 08 R209–R217). -/

namespace Sys2Proof

/-- M: the field plus 1 (Table TL-4). -/
def CmdRec.cm (r : CmdRec) : Nat := r.m + 1
/-- N: the field plus 1 (Table TL-4). -/
def CmdRec.cn (r : CmdRec) : Nat := r.n + 1
/-- K: the field plus 1 (Table TL-4). -/
def CmdRec.ck (r : CmdRec) : Nat := r.k + 1
/-- FLAGS[0], ACC (Table TL-4). -/
def CmdRec.acc (r : CmdRec) : Bool := r.flags.testBit 0
/-- FLAGS[1], SELREG (Table TL-4). -/
def CmdRec.selreg (r : CmdRec) : Bool := r.flags.testBit 1
/-- FLAGS[2], MASK (Table TL-4). -/
def CmdRec.masked (r : CmdRec) : Bool := r.flags.testBit 2
/-- FLAGS[3], SIGDONE (Table TL-4). -/
def CmdRec.sigdone (r : CmdRec) : Bool := r.flags.testBit 3
/-- FLAGS[5:4], PART (Table TL-4). -/
def CmdRec.partCode (r : CmdRec) : Nat := Machine.field r.flags 4 2

end Sys2Proof

namespace Sys2Proof.Machine

/-! ### Tiles and scratch -/

/-- A tile at the tick edge: scratch undefined, register and queue empty. -/
def tileReset (i : Nat) : Tile :=
  { id := i, scratch := [], sel := [], part := none, queue := [], held := false, lastDone := 0, board := [],
    counts := Counts0, hold := false, fenced := false }

/-- A logical tile; one that is not listed is as at the edge. -/
def State.tile (s : State) (i : Nat) : Tile := (s.mesh.tiles.find? fun t => t.id == i).getD (tileReset i)

/-- Put a tile back. -/
def State.setTile (s : State) (t : Tile) : State :=
  { s with mesh := { s.mesh with tiles := putBy Tile.id t s.mesh.tiles } }

/-- Put one byte of scratch. -/
def cellPut : List Host.Cell → Nat → Byte → List Host.Cell
  | [], a, b => [(a, b)]
  | (k, c) :: r, a, b =>
    if a < k then (a, b) :: (k, c) :: r else if a = k then (a, b) :: r else (k, c) :: cellPut r a b

/-- Put bytes of scratch from an address upwards; a region ends at 64 KiB (R92). -/
def cellPutBytes (m : List Host.Cell) : Nat → List Byte → List Host.Cell
  | _, [] => m
  | a, b :: r => if a < 0x10000 then cellPutBytes (cellPut m a b) (a + 1) r else m

/-- One byte of a tile's scratch: what was written since the swath began, or the undefined content (R93). -/
def scratchByte (epoch : Nat) (t : Tile) (a : Nat) : Byte :=
  match t.scratch.find? fun c => c.1 == a with
  | some c => c.2
  | none => Config.scratchByte t.id epoch a

/-- Bytes of scratch. -/
def scratchBytes (epoch : Nat) (t : Tile) (a n : Nat) : List Byte :=
  (List.range n).map fun i => scratchByte epoch t (a + i)

/-! ### Fields and operand shapes (Tables TL-4, TL-5; R108) -/

/-- Bytes rounded up to 64: the stride of matrix rows (R108). -/
def stride64 (n : Nat) : Nat := ceilDiv n 64 * 64

/-- Lane count of an operand pair (R91). -/
def pairLanes (a b : Nat) : Nat := min (lanes a) (lanes b)

/-- Partition size for a PART code (R94). -/
def partSize (p : Nat) : Nat := 256 / 2 ^ p

/-! ### Costs (Table TL-8) -/

/-- The exact cost of a command in tile cycles; of a remote COPY its cost on the source queue. -/
def cmdCost (r : CmdRec) : Nat :=
  let M := r.cm
  let N := r.cn
  let K := r.ck
  let L := pairLanes r.fmt0 r.fmt1
  match r.opcode with
  | 0x01 => 16 + M * N * ceilDiv K L
  | 0x02 =>
    (if r.ext.testBit 16 then 16 + (if r.ext.testBit 17 then ceilDiv (N * K) 16 else 0) + M * N * ceilDiv K 16
     else 16 + M * N * ceilDiv K L + ceilDiv (M * N) 16) + (if r.selreg then 12 else 0)
  | 0x03 =>
    if r.ext.testBit 0 then 16 + 256 * M * ceilDiv K 16 else 16 + 256 * M * ceilDiv K L + ceilDiv (256 * M) 16
  | 0x04 => 24 + N * ceilDiv K 32 + (if r.selreg then 12 else 0)
  | 0x05 => 16 + K * ceilDiv N 8 + (if r.masked then ceilDiv N 512 else 0)
  | 0x06 => 16 + M * (2 * ceilDiv N 16 + 4) + (if field r.ext 0 2 = 2 then 8 + 2 * ceilDiv M 16 else 0)
  | 0x07 => 16 + ceilDiv (M * N) 16 * (1 + flag (r.ext.testBit 0) + flag (r.ext.testBit 1) + flag r.acc)
  | 0x08 => if field r.ext 0 2 = 2 then 16 + M * (2 * ceilDiv N 16 + 8) else 16 + M * ceilDiv N 16
  | 0x09 => if r.selreg then 12 + ceilDiv (partSize r.partCode) 8 else ceilDiv K 256 * (12 + N) + ceilDiv K 8
  | 0x0A => ceilDiv K 256 * (12 + N) + ceilDiv K 8
  | 0x0B => 16 + M * ceilDiv K 64
  | 0x0C => 16 + ceilDiv M 16 + 2 * M * ceilDiv N 16 + ceilDiv N 16
  | 0x0D => if r.ext.testBit 12 then 4 + N else 8 + N
  | 0x0E => 8
  | 0x0F => 8 + N
  | 0x10 => 4
  | _ => 3

/-! ### Key entries and selection (R111, R209–R217) -/

/-- A key entry: sortable key and index. -/
abbrev KeyEntry := Nat × Nat

/-- The empty entry. -/
def emptyEntry : KeyEntry := (0xFFFFFFFF, 0xFFFFFFFF)
/-- Whether an entry is empty (R210). -/
def isEmptyEntry (e : KeyEntry) : Bool := e.2 == 0xFFFFFFFF
/-- The order of R209 and R210. -/
def entryBefore (a b : KeyEntry) : Bool :=
  if isEmptyEntry a then false
  else if isEmptyEntry b then true
  else decide (a.1 < b.1) || (a.1 == b.1 && decide (a.2 < b.2))

/-- An entry put into an ascending list. -/
def entryInsert (before : KeyEntry → KeyEntry → Bool) (e : KeyEntry) : List KeyEntry → List KeyEntry
  | [] => [e]
  | x :: r => if before e x then e :: x :: r else x :: entryInsert before e r

/-- Entries sorted by the order given; equal entries keep their order. -/
def entrySort (before : KeyEntry → KeyEntry → Bool) (l : List KeyEntry) : List KeyEntry :=
  l.foldl (fun acc e => entryInsert before e acc) []

/-- The reverse order over non-empty entries (R213). -/
def entryAfter (a b : KeyEntry) : Bool :=
  if isEmptyEntry a then false else if isEmptyEntry b then true else entryBefore b a

/-- A list cut or filled with empty entries to n (R210). -/
def padEntries (n : Nat) (l : List KeyEntry) : List KeyEntry := l.take n ++ List.replicate (n - l.length) emptyEntry

/-- The first n entries of a set (R214). -/
def topEntries (n : Nat) (l : List KeyEntry) : List KeyEntry :=
  (entrySort entryBefore (l.filter fun e => !isEmptyEntry e)).take n

/-- One pass and the rest of R216: `passes` passes, `left` entries still to write, entries after `last`. -/
def topkPasses (before : KeyEntry → KeyEntry → Bool) (l : List KeyEntry) :
    Nat → Nat → Option KeyEntry → List KeyEntry
  | 0, _, _ => []
  | p + 1, left, last =>
    let w := min 256 left
    let cand := match last with | none => l | some e => l.filter fun x => before e x
    let got := cand.take w
    padEntries w got ++ topkPasses before l p (left - w) (match got.getLast? with | some e => some e | none => last)

/-- TOPK from an array (R213, R216). -/
def topkArray (desc : Bool) (k : Nat) (l : List KeyEntry) : List KeyEntry :=
  let before := if desc then entryAfter else entryBefore
  topkPasses before (entrySort before (l.filter fun e => !isEmptyEntry e)) (ceilDiv k 256) k none

/-- NaN keys among non-empty entries (R212). -/
def nanKeys (l : List KeyEntry) : Nat := (l.filter fun e => !isEmptyEntry e && e.1 == 0xFFFFFFFF).length

/-- The head rule of MERGE: whether entry a of list i goes before entry b of list j (R217). -/
def mergeBefore (a : KeyEntry) (i : Nat) (b : KeyEntry) (j : Nat) : Bool :=
  if isEmptyEntry a != isEmptyEntry b then isEmptyEntry b
  else if a.1 ≠ b.1 then decide (a.1 < b.1)
  else if i ≠ j then decide (i < j)
  else decide (a.2 < b.2)

/-- The list whose head is best. -/
def mergeBest (ls : List (List KeyEntry)) : Option (Nat × KeyEntry) :=
  ls.zipIdx.foldl (fun best (l, i) =>
    match l.head?, best with
    | none, _ => best
    | some e, none => some (i, e)
    | some e, some (j, b) => if mergeBefore e i b j then some (i, e) else best) none

/-- The loop of R217 for K outputs: entry and the list it came from. -/
def mergeLists : Nat → List (List KeyEntry) → List (Option Nat × KeyEntry)
  | 0, _ => []
  | k + 1, ls =>
    match mergeBest ls with
    | none => (none, emptyEntry) :: mergeLists k ls
    | some (i, e) => (some i, e) :: mergeLists k (ls.modify i List.tail)

/-- Out-of-order neighbours of one list (R217). -/
def disorder : List KeyEntry → Nat
  | a :: b :: r => flag (entryBefore b a) + disorder (b :: r)
  | _ => 0

/-- SRC0's entries cut into lists by their lengths, with the overrun of R217: the lists, and 1 when one was cut. -/
def cutLists : List Nat → List KeyEntry → List (List KeyEntry) × Nat
  | [], _ => ([], 0)
  | n :: r, l =>
    let (ls, k) := cutLists r (l.drop n)
    (l.take n :: ls, if l.length < n then 1 else k)

/-- Candidates entered into a partition, which keeps its p smallest (R94). -/
def selEnter (sel : List SelEntry) (part size : Nat) (cands : List KeyEntry) : List SelEntry :=
  let mine := (sel.filter fun e => e.part == part).map fun e => (e.key, e.idx)
  let kept := topEntries size (mine ++ cands)
  (sel.filter fun e => e.part != part) ++ kept.map fun e => { part := part, key := e.1, idx := e.2 }

/-- Key entries in memory: 8 bytes each. -/
def entriesOf (n : Nat) (bs : List Byte) : List KeyEntry :=
  (List.range n).map fun i => (natAt bs (8 * i) 4, natAt bs (8 * i + 4) 4)

/-- The bytes of key entries. -/
def entryBytes (l : List KeyEntry) : List Byte := l.flatMap fun e => leBytes 4 e.1 ++ leBytes 4 e.2

/-! ### Filters (07 R191–R194, R113) -/

/-- A field of an attribute word under its descriptor (Table VS-5): raw bits, and value; none when absent. -/
def attrField (attr : Nat) (i : Nat) (w : Nat) : Option (Nat × Int) :=
  let d := field attr (16 * i) 16
  if d.testBit 15 then
    let width := field d 0 5 + 1
    let raw := field w (field d 8 6) width
    some (raw, if d.testBit 14 then (BitVec.ofNat width raw).toInt else raw)
  else none

/-- Whether a term is satisfied by an attribute word, and whether its OP was reserved (R193, R194). -/
def filterTerm (attr : Nat) (masks : List Byte) (t w : Nat) : Bool × Bool :=
  let op := field t 60 4
  let signed := (field attr (16 * field t 58 2) 16).testBit 14
  let operand (x : Nat) : Int := if signed then (BitVec.ofNat 28 x).toInt else x
  let a := field t 28 28
  let b := field t 0 28
  if op = 0 then (true, false)
  else if op > 5 then (false, true)
  else
    match attrField attr (field t 58 2) w with
    | none => (false, false)
    | some (raw, f) =>
      let r :=
        match op with
        | 1 => decide (f = operand a)
        | 2 => decide (operand a ≤ f) && decide (f ≤ operand b)
        | 3 => decide (raw &&& a = a)
        | 4 => decide (raw &&& a ≠ 0)
        | _ => decide (raw < 256) && (natAt masks (32 * (field t 56 1) + raw / 8) 1).testBit (raw % 8)
      (r != t.testBit 57, false)

/-- The length of a filter program: terms before the first END, at least one (R192). -/
def filterLen (prog : List Byte) : Nat :=
  max 1 (((List.range 8).find? fun i => field (wordAt prog (8 * i)) 60 4 == 0).getD 8)

/-- Whether a word satisfies the first k terms of a program, and the reserved OPs met. -/
def filterWord (attr : Nat) (prog : List Byte) (k w : Nat) : Bool × Nat :=
  let rs := (List.range k).map fun i => filterTerm attr (prog.drop 64) (wordAt prog (8 * i)) w
  (rs.all (·.1), (rs.filter (·.2)).length)

/-- Bits packed lowest first into bytes. -/
def packBits : List Bool → List Byte
  | a :: b :: c :: d :: e :: f :: g :: h :: r =>
    BitVec.ofNat 8 (flag a + 2 * flag b + 4 * flag c + 8 * flag d + 16 * flag e + 32 * flag f + 64 * flag g +
      128 * flag h) :: packBits r
  | [] => []
  | l => [BitVec.ofNat 8 ((l.zipIdx.map fun (b, i) => flag b * 2 ^ i).sum)]

/-- Bit i of packed bits. -/
def bitAt (bs : List Byte) (i : Nat) : Bool := ((bs.getD (i / 8) 0).toNat).testBit (i % 8)

/-! ### What a command does to its tile -/

/-- The outcome of a command on its own tile: bytes written to scratch, the selection register, the counts. -/
structure TileOut where
  writes : List (Nat × List Byte)
  sel : List SelEntry
  part : Option Nat
  counts : Counts
  deriving DecidableEq, Repr

/-- The operand reader of a command: bytes of scratch at issue (R121). -/
structure TileIn where
  epoch : Nat
  tile : Tile
  deriving DecidableEq, Repr

/-- Bytes at a scratch address. -/
def TileIn.bytes (t : TileIn) (a n : Nat) : List Byte := scratchBytes t.epoch t.tile a n

/-- Row i of a matrix operand at an address: n elements of a format. -/
def TileIn.row (t : TileIn) (a fmt n i : Nat) : List Byte :=
  t.bytes (a + i * stride64 (rowBytes fmt n)) (rowBytes fmt n)

/-- A matrix row as FP32 elements. -/
def TileIn.rowF (t : TileIn) (a fmt n i : Nat) : List Word32 := rowF32 fmt n (t.row a fmt n i)

/-- n packed FP32 values. -/
def TileIn.f32s (t : TileIn) (a n : Nat) : List Word32 :=
  (List.range n).map fun i => BitVec.ofNat 32 (natAt (t.bytes (a + 4 * i) 4) 0 4)

/-- n packed UINT32 values. -/
def TileIn.u32s (t : TileIn) (a n : Nat) : List Nat := (List.range n).map fun i => natAt (t.bytes (a + 4 * i) 4) 0 4

/-- No effect but these writes and counts. -/
def TileIn.out (t : TileIn) (writes : List (Nat × List Byte)) (c : Counts) : TileOut :=
  { writes := writes, sel := t.tile.sel, part := t.tile.part, counts := c }

/-- Rows of codes written at a destination with the matrix stride. -/
def matrixRows (dst fmt n : Nat) (rows : List (List Nat)) : List (Nat × List Byte) :=
  rows.zipIdx.map fun (r, i) => (dst + i * stride64 (rowBytes fmt n), packRow fmt r)

/-- MATMUL (R109, R110). -/
def effMatmul (t : TileIn) (r : CmdRec) : TileOut :=
  let M := r.cm
  let N := r.cn
  let K := r.ck
  let cell (i j : Nat) : Nat × Nat :=
    let old := natAt (t.bytes (r.dst + i * stride64 (4 * N) + 4 * j) 4) 0 4
    if isIntFmt r.fmt0 then
      let d := intDot r.fmt0 r.fmt1 (rowCodes r.fmt0 K (t.row r.src0 r.fmt0 K i))
        (rowCodes r.fmt1 K (t.row r.src1 r.fmt1 K j))
      let x := if r.acc then iAdd { v := int32Of old, sat := 0 } d else d
      (int32Bits x.v, x.sat)
    else
      let d := flDot (t.rowF r.src0 r.fmt0 K i) (t.rowF r.src1 r.fmt1 K j)
      let x := if r.acc then flAdd (fl (BitVec.ofNat 32 old)) d else d
      (x.v.toNat, x.sat)
  let rows := (List.range M).map fun i => (List.range N).map fun j => cell i j
  let nans := if r.fmt0 = 7 && r.fmt1 ≠ 7 then ((List.range N).map fun j => countNan (t.rowF r.src1 r.fmt1 K j)).sum
    else 0
  t.out (matrixRows r.dst 7 N (rows.map fun l => l.map (·.1)))
    { Counts0 with sat := (rows.map fun l => (l.map (·.2)).sum).sum, nan := nans }

/-- Candidates go to the register partition, or to the DST array (R111). -/
def TileIn.emit (t : TileIn) (r : CmdRec) (part : Nat) (es : List KeyEntry) (c : Counts) : TileOut :=
  if r.selreg then
    let p := t.tile.part.getD r.partCode
    let sel := selEnter t.tile.sel part (partSize p) es
    { writes := [], sel := sel, part := if sel.isEmpty then none else some p, counts := c }
  else t.out [(r.dst, entryBytes es)] c

/-- DIST (R84, R111): keys of M query rows against N rows. -/
def effDist (t : TileIn) (r : CmdRec) : TileOut :=
  let K := r.ck
  let N := r.cn
  let l2 := r.ext.testBit 16
  let scales := if r.ext.testBit 17 then (t.f32s r.aux N).map some else List.replicate N none
  let ibase := natAt (t.bytes (field r.ext 0 16 + 4) 4) 0 4
  let key (i j : Nat) : Fl :=
    let s := (scales.getD j none)
    if !l2 && isIntFmt r.fmt0 then
      let d := intDot r.fmt0 r.fmt1 (rowCodes r.fmt0 K (t.row r.src0 r.fmt0 K i))
        (rowCodes r.fmt1 K (t.row r.src1 r.fmt1 K j))
      let f := flOfInt d.v
      let g := match s with | some x => flMul f (fl x) | none => f
      flNeg { g with sat := g.sat + d.sat }
    else exactKey l2 (t.rowF r.src0 r.fmt0 K i) (t.rowF r.src1 r.fmt1 K j) s
  let ks := (List.range r.cm).flatMap fun i => (List.range N).map fun j => (j, key i j)
  let es := ks.map fun (j, k) => (sortable k.v, (ibase + j) % 2 ^ 32)
  t.emit r (field r.ext 18 3) es { Counts0 with sat := (ks.map fun k => k.2.sat).sum, nan := nanKeys es }

/-- LUTB (R112). -/
def effLutb (t : TileIn) (r : CmdRec) : TileOut :=
  let M := r.cm
  let K := r.ck
  let l2 := r.ext.testBit 0
  let q := t.rowF r.src0 r.fmt0 (M * K) 0
  let ent (j c : Nat) : Rounded × Nat :=
    let sub := (q.drop (j * K)).take K
    let row := t.rowF r.src1 r.fmt1 K (j * 256 + c)
    let k := if !l2 && isIntFmt r.fmt0 then
        let d := intDot r.fmt0 r.fmt1 ((rowCodes r.fmt0 (M * K) (t.row r.src0 r.fmt0 (M * K) 0)).drop (j * K))
          (rowCodes r.fmt1 K (t.row r.src1 r.fmt1 K (j * 256 + c)))
        let f := flNeg (flOfInt d.v)
        { f with sat := f.sat + d.sat }
      else exactKey l2 sub row none
    (convertTo 6 (f32Val k.v), k.sat)
  let es := (List.range M).flatMap fun j => (List.range 256).map fun c => ent j c
  t.out [(r.dst, es.flatMap fun e => leBytes 2 e.1.code)]
    { Counts0 with
      sat := (es.map fun e => e.2 + flag e.1.sat).sum
      nan := (es.filter fun e => e.1.nan).length }

/-- SCAN (R86, R111). -/
def effScan (t : TileIn) (r : CmdRec) : TileOut :=
  let K := r.ck
  let N := r.cn
  let bp := t.bytes (field r.ext 0 16) 8
  let base := BitVec.ofNat 32 (natAt bp 0 4)
  let ibase := natAt bp 4 4
  let lutB := t.bytes r.src1 (K * 512)
  let lut := (List.range (K * 256)).map fun i => natAt lutB (2 * i) 2
  let mask := if r.masked then t.bytes r.aux (ceilDiv N 8) else []
  let cand (j : Nat) : KeyEntry × Nat :=
    if r.masked && !bitAt mask j then (emptyEntry, 0)
    else
      let k := codeScore base lut ((t.bytes (r.src0 + j * K) K).map (·.toNat))
      ((sortable k.v, (ibase + j) % 2 ^ 32), k.sat)
  let cs := (List.range N).map cand
  let es := cs.map (·.1)
  t.emit r (field r.ext 16 3) es { Counts0 with sat := (cs.map (·.2)).sum, nan := nanKeys es }

/-- FILTER (R113). -/
def effFilter (t : TileIn) (r : CmdRec) : TileOut :=
  let N := r.cn
  let prog := t.bytes r.src1 128
  let tomb := if r.masked then t.bytes r.aux (ceilDiv N 8) else []
  let one (i : Nat) : Bool × Nat :=
    let (ok, bad) := filterWord r.attr.toNat prog (min 8 r.ck) (natAt (t.bytes (r.src0 + 8 * i) 8) 0 8)
    (ok && !(r.masked && bitAt tomb i), bad)
  let rs := (List.range N).map one
  let bits := packBits (rs.map (·.1))
  t.out [(r.dst, bits ++ List.replicate (stride64 bits.length - bits.length) 0)]
    { Counts0 with range := (rs.map (·.2)).sum }

/-- Rows quantised in turn against a sheaf scale that the first positive row sets when it is 0 (R79): codes, row
codes, counts and the scale left. -/
def nestedFixed (code : Nat) : Word32 → List (List Word32) → List (Nat × List Nat) × Counts × Word32
  | S, [] => ([], Counts0, S)
  | S, x :: r =>
    let S' := if S.toNat % 2 ^ 31 = 0 then rawScale code x else S
    let (c, q, k) := quantNestedRow code S' x
    let (rest, k2, S2) := nestedFixed code S' r
    ((c, q) :: rest, addCounts k k2, S2)

/-- QUANT (R114). -/
def effQuant (t : TileIn) (r : CmdRec) : TileOut :=
  let M := r.cm
  let N := r.cn
  let xs := (List.range M).map fun i => t.rowF r.src0 r.fmt0 N i
  match field r.ext 0 2 with
  | 0 =>
    let q := xs.map (quantUnstored r.fmt1)
    t.out (matrixRows r.dst r.fmt1 N (q.map (·.2.1)) ++ [(r.aux, q.flatMap fun x => leBytes 4 x.1.toNat)])
      (q.foldl (fun a x => addCounts a x.2.2) Counts0)
  | 1 =>
    let q := xs.map (quantSide r.fmt1)
    t.out (matrixRows r.dst r.fmt1 N (q.map (·.2.1)) ++ [(r.aux, q.flatMap fun x => leBytes 2 x.1)])
      (q.foldl (fun a x => addCounts a x.2.2) Counts0)
  | _ =>
    let unit := r.aux + stride64 M
    let S0 := if r.ext.testBit 2 then BitVec.ofNat 32 (natAt (t.bytes unit 4) 0 4) else nestedSheafScale r.fmt1 xs
    let (q, c, S) :=
      if r.ext.testBit 2 then nestedFixed r.fmt1 S0 xs
      else
        let q := xs.map (quantNestedRow r.fmt1 S0)
        (q.map fun x => (x.1, x.2.1), q.foldl (fun a x => addCounts a x.2.2) Counts0, S0)
    let codes := q.map fun x => BitVec.ofNat 8 x.1
    t.out (matrixRows r.dst r.fmt1 N (q.map (·.2)) ++
      [(r.aux, codes ++ List.replicate (stride64 M - M) 0), (unit, leBytes 4 S.toNat ++ List.replicate 60 0)]) c

/-- DQACC (R83, R110). -/
def effDqacc (t : TileIn) (r : CmdRec) : TileOut :=
  let M := r.cm
  let N := r.cn
  let a := t.f32s r.src1 M
  let b := t.f32s r.aux N
  let cell (i j : Nat) : Fl :=
    let w := natAt (t.bytes (r.src0 + i * stride64 (4 * N) + 4 * j) 4) 0 4
    let x := if isIntFmt r.fmt0 then flOfInt (int32Of w) else fl (BitVec.ofNat 32 w)
    let x := if r.ext.testBit 0 then flMul x (fl (a.getD i 0)) else x
    let x := if r.ext.testBit 1 then flMul x (fl (b.getD j 0)) else x
    if r.acc then flAdd (fl (BitVec.ofNat 32 (natAt (t.bytes (r.dst + i * stride64 (4 * N) + 4 * j) 4) 0 4))) x else x
  let rows := (List.range M).map fun i => (List.range N).map fun j => cell i j
  t.out (matrixRows r.dst 7 N (rows.map fun l => l.map fun x => x.v.toNat))
    { Counts0 with sat := (rows.map fun l => (l.map (·.sat)).sum).sum }

/-- A row of FP32 results converted to a format, with saturations, and NaNs counted where the conversion is not from
FP32 to FP32. -/
def convRow (fmt : Nat) (x : List Fl) : List Nat × Counts :=
  let rs := x.map fun v => convertTo fmt (f32Val v.v)
  (rs.map (·.code), { Counts0 with
    sat := (rs.filter (·.sat)).length + (x.map (·.sat)).sum
    nan := if fmt = 7 then 0 else (rs.filter (·.nan)).length })

/-- SCALE in its three modes (R85, R109). -/
def effScale (t : TileIn) (r : CmdRec) : TileOut :=
  let M := r.cm
  let N := r.cn
  let xs := (List.range M).map fun i => t.rowF r.src0 r.fmt0 N i
  let inNan := if r.fmt0 = 7 then 0 else (xs.map countNan).sum
  match field r.ext 0 2 with
  | 2 =>
    let ns := xs.map normalise
    let rows := ns.map fun x => convRow r.fmt1 x.2
    let c := (rows.foldl (fun a x => addCounts a x.2) Counts0)
    t.out (matrixRows r.dst r.fmt1 N (rows.map (·.1)) ++ [(r.aux, ns.flatMap fun x => leBytes 4 x.1.v.toNat)])
      { c with sat := c.sat + (ns.map fun x => x.1.sat).sum, nan := c.nan + inNan }
  | m =>
    let fs := t.f32s r.aux (if m = 0 then M else 1)
    let rows := xs.zipIdx.map fun (x, i) =>
      convRow r.fmt1 (x.map fun v => flMul (fl v) (fl (fs.getD (if m = 0 then i else 0) 0)))
    let c := (rows.foldl (fun a x => addCounts a x.2) Counts0)
    t.out (matrixRows r.dst r.fmt1 N (rows.map (·.1))) { c with nan := c.nan + inNan }

/-- TOPK from an array (R216). -/
def effTopkArray (t : TileIn) (r : CmdRec) : TileOut :=
  let es := entriesOf r.cn (t.bytes r.src0 (8 * r.cn))
  t.out [(r.dst, entryBytes (topkArray (r.ext.testBit 3) r.ck es))] { Counts0 with nan := nanKeys es }

/-- TOPK from a partition of the selection register, which it empties (R94, R213). -/
def effTopkRegister (t : TileIn) (r : CmdRec) : TileOut :=
  let p := field r.ext 0 3
  let mine := ((t.tile.sel.filter fun e => e.part == p).map fun e => (e.key, e.idx))
  let sorted := entrySort (if r.ext.testBit 3 then entryAfter else entryBefore) mine
  let left := t.tile.sel.filter fun e => e.part != p
  { writes := [(r.dst, entryBytes (padEntries r.ck sorted))], sel := left,
    part := if left.isEmpty then none else t.tile.part, counts := Counts0 }

/-- MERGE (R217). -/
def effMerge (t : TileIn) (r : CmdRec) : TileOut :=
  let es := entriesOf r.cn (t.bytes r.src0 (8 * r.cn))
  let (ls, cut) := cutLists (t.u32s r.src1 r.cm) es
  t.out [(r.dst, entryBytes ((mergeLists r.ck ls).map (·.2)))]
    { Counts0 with range := cut + (ls.map disorder).sum }

/-- GATHER (R115). -/
def effGather (t : TileIn) (r : CmdRec) : TileOut :=
  let K := r.ck
  let st := stride64 K
  let idx := t.u32s r.src1 r.cm
  let ws := idx.zipIdx.filterMap fun (i, k) =>
    if i = 0xFFFFFFFF then none
    else if i ≥ r.cn then some (r.dst + k * st, List.replicate K (0 : Byte))
    else some (r.dst + k * st, t.bytes (r.src0 + i * st) K)
  t.out ws { Counts0 with range := (idx.filter fun i => i ≠ 0xFFFFFFFF && decide (i ≥ r.cn)).length }

/-- REDUCE (R88, R115). -/
def effReduce (t : TileIn) (r : CmdRec) : TileOut :=
  let M := r.cm
  let N := r.cn
  let want := if r.ext.testBit 17 then natAt (t.bytes (field r.ext 0 16) 4) 0 4 else M
  let cnt := min want M
  let ws := t.f32s r.src1 M
  let ss := t.f32s r.aux M
  let rows := (List.range cnt).map fun k =>
    (t.rowF r.src0 r.fmt0 N k, ws.getD k 0, if r.ext.testBit 16 then some (ss.getD k 0) else none)
  let (codes, c) := convRow r.fmt1 (weightedReduce N rows)
  let inNan := if r.fmt0 = 7 then 0 else (rows.map fun x => countNan x.1).sum
  t.out (matrixRows r.dst r.fmt1 N [codes])
    { c with
      sat := c.sat + factorSats rows
      nan := c.nan + inNan
      range := flag (want > M) }

/-- COPY within the tile (R109). -/
def effCopyLocal (t : TileIn) (r : CmdRec) : TileOut := t.out [(r.dst, t.bytes r.src0 (64 * r.cn))] Counts0

/-- The effect of an opcode on its own tile's scratch, register and counts. -/
def tileEffect (t : TileIn) (r : CmdRec) : TileOut :=
  match r.opcode with
  | 0x01 => effMatmul t r
  | 0x02 => effDist t r
  | 0x03 => effLutb t r
  | 0x04 => effScan t r
  | 0x05 => effFilter t r
  | 0x06 => effQuant t r
  | 0x07 => effDqacc t r
  | 0x08 => effScale t r
  | 0x09 => if r.selreg then effTopkRegister t r else effTopkArray t r
  | 0x0A => effMerge t r
  | 0x0B => effGather t r
  | 0x0C => effReduce t r
  | 0x0D => if r.ext.testBit 12 then t.out [] Counts0 else effCopyLocal t r
  | _ => t.out [] Counts0

/-! ### Record checks (R92, R103, R104, R107–R109, R215) -/

/-- An operand region: scratch address and length. -/
abbrev Span := Nat × Nat

/-- Length of a matrix operand of `rows` rows. -/
def matLen (fmt n rows : Nat) : Nat := rows * stride64 (rowBytes fmt n)

/-- The source regions of a command. -/
def srcSpans (r : CmdRec) : List Span :=
  let M := r.cm
  let N := r.cn
  let K := r.ck
  match r.opcode with
  | 0x01 => [(r.src0, matLen r.fmt0 K M), (r.src1, matLen r.fmt1 K N)]
  | 0x02 => [(r.src0, matLen r.fmt0 K M), (r.src1, matLen r.fmt1 K N), (field r.ext 0 16, 8)] ++
      (if r.ext.testBit 17 then [(r.aux, 4 * N)] else [])
  | 0x03 => [(r.src0, matLen r.fmt0 (M * K) 1), (r.src1, matLen r.fmt1 K (256 * M))]
  | 0x04 => [(r.src0, N * K), (r.src1, K * 512), (field r.ext 0 16, 8)] ++
      (if r.masked then [(r.aux, ceilDiv N 8)] else [])
  | 0x05 => [(r.src0, 8 * N), (r.src1, 128)] ++ (if r.masked then [(r.aux, ceilDiv N 8)] else [])
  | 0x06 => [(r.src0, matLen r.fmt0 N M)]
  | 0x07 => [(r.src0, matLen 7 N M)] ++ (if r.ext.testBit 0 then [(r.src1, 4 * M)] else []) ++
      (if r.ext.testBit 1 then [(r.aux, 4 * N)] else [])
  | 0x08 => (r.src0, matLen r.fmt0 N M) ::
      (match field r.ext 0 2 with | 0 => [(r.aux, 4 * M)] | 1 => [(r.aux, 4)] | _ => [])
  | 0x09 => if r.selreg then [] else [(r.src0, 8 * N)]
  | 0x0A => [(r.src0, 8 * N), (r.src1, 4 * M)]
  | 0x0B => [(r.src0, N * stride64 K), (r.src1, 4 * M)]
  | 0x0C => [(r.src0, matLen r.fmt0 N M), (r.src1, 4 * M)] ++ (if r.ext.testBit 16 then [(r.aux, 4 * M)] else []) ++
      (if r.ext.testBit 17 then [(field r.ext 0 16, 4)] else [])
  | 0x0D => [(r.src0, 64 * N)]
  | 0x0F => [(r.src0, 64 * N), (r.aux, 64)]
  | _ => []

/-- The destination regions of a command on its own tile. SHLOAD's payload length is that of its move and is checked
with the plan. -/
def dstSpans (r : CmdRec) : List Span :=
  let M := r.cm
  let N := r.cn
  let K := r.ck
  match r.opcode with
  | 0x01 => [(r.dst, matLen 7 N M)]
  | 0x02 => if r.selreg then [] else [(r.dst, 8 * M * N)]
  | 0x03 => [(r.dst, M * 512)]
  | 0x04 => if r.selreg then [] else [(r.dst, 8 * N)]
  | 0x05 => [(r.dst, stride64 (ceilDiv N 8))]
  | 0x06 => [(r.dst, matLen r.fmt1 N M), (r.aux, match field r.ext 0 2 with
      | 0 => 4 * M | 1 => 2 * M | _ => stride64 M + 64)]
  | 0x07 => [(r.dst, matLen 7 N M)]
  | 0x08 => (r.dst, matLen r.fmt1 N M) :: (if field r.ext 0 2 = 2 then [(r.aux, 4 * M)] else [])
  | 0x09 => [(r.dst, 8 * K)]
  | 0x0A => [(r.dst, 8 * K)]
  | 0x0B => [(r.dst, M * stride64 K)]
  | 0x0C => [(r.dst, stride64 (rowBytes r.fmt1 N))]
  | 0x0D => if r.ext.testBit 12 then [] else [(r.dst, 64 * N)]
  | 0x0E => [(r.aux, 64), (r.dst, 4096)]
  | _ => []

/-- Whether two regions share a byte. -/
def overlaps (a b : Span) : Bool := decide (a.1 < b.1 + b.2) && decide (b.1 < a.1 + a.2) && a.2 ≠ 0 && b.2 ≠ 0

/-- A region lies in scratch and starts on a 64-byte boundary (R92). -/
def spanOk (a : Span) : Bool := a.1 % 64 == 0 && decide (a.1 + a.2 ≤ 0x10000)

/-- The flags that Table TL-8 lists for a command: ACC, SELREG, MASK, SIGDONE, and PART where SELREG is set. -/
def flagsAllowed (r : CmdRec) : Bool :=
  let allow := match r.opcode with
    | 0x01 => 0x09 | 0x02 => 0x0A | 0x03 => 0x08 | 0x04 => 0x0E | 0x05 => 0x0C | 0x06 => 0x08 | 0x07 => 0x09
    | 0x08 => 0x08 | 0x09 => 0x0A | 0x0A => 0x08 | 0x0B => 0x08 | 0x0C => 0x08 | 0x0D => 0x08 | _ => 0x00
  let allow2 := if r.selreg && allow.testBit 1 then allow + 0x30 else allow
  decide (r.flags &&& allow2 = r.flags) && decide (r.flags < 64) && !(r.opcode = 0x02 && r.selreg && r.cm ≠ 1)

/-- The operand formats and counts that Table TL-8 gives a command. -/
def operandsOk (r : CmdRec) : Bool :=
  let M := r.cm
  let K := r.ck
  let N := r.cn
  match r.opcode with
  | 0x01 => pairOk r.fmt0 r.fmt1
  | 0x02 => pairOk r.fmt0 r.fmt1 && field r.ext 21 3 == 0 &&
      (!r.selreg || decide (field r.ext 18 3 < 2 ^ r.partCode)) && field r.ext 0 16 % 64 == 0
  | 0x03 => pairOk r.fmt0 r.fmt1 && decide (16 ≤ M) && decide (M ≤ 64) && M % 8 == 0 && decide (r.ext < 2)
  | 0x04 => decide (16 ≤ K) && decide (K ≤ 64) && K % 8 == 0 && r.fmt0 == 8 && field r.ext 19 5 == 0 &&
      (!r.selreg || decide (field r.ext 16 3 < 2 ^ r.partCode)) && field r.ext 0 16 % 64 == 0
  | 0x05 => decide (K ≤ 8)
  | 0x06 => decide (5 ≤ r.fmt0) && decide (r.fmt0 ≤ 7) && scaledFmt r.fmt1 && field r.ext 0 2 != 3 &&
      (!r.ext.testBit 2 || field r.ext 0 2 == 2) && decide (r.ext < 8)
  | 0x07 => knownFmt r.fmt0 && r.fmt0 != 8 && decide (r.ext < 4)
  | 0x08 => isFpFmt r.fmt0 && isFpFmt r.fmt1 && decide (r.ext < 3)
  | 0x09 => decide (K ≤ 4096) && decide (r.ext < 16) &&
      (if r.selreg then decide (K ≤ partSize r.partCode) && decide (field r.ext 0 3 < 2 ^ r.partCode)
       else field r.ext 0 3 == 0)
  | 0x0A => decide (K ≤ 4096) && r.ext == 0
  | 0x0B => r.ext == 0
  | 0x0C => knownFmt r.fmt0 && r.fmt0 != 8 && knownFmt r.fmt1 && r.fmt1 != 8 && decide (r.ext < 2 ^ 18) &&
      field r.ext 0 16 % 64 == 0
  | 0x0D => decide (N ≤ 1024) && decide (r.ext < 2 ^ 13)
  | 0x0E => decide (r.ext < 2 ^ 24)
  | 0x0F => decide (N ≤ 1024) && decide (r.ext < 2 ^ 24)
  | 0x10 => decide (r.ext < 3)
  | 0x11 => decide (r.ext < 2)
  | _ => false

/-- The fields that a command does not use are 0 (R103). -/
def unusedZero (r : CmdRec) : Bool :=
  let z (used : Bool) (v : Nat) : Bool := used || v == 0
  let o := r.opcode
  let sig := r.sigdone || o == 0x0E || o == 0x0F || o == 0x10 || o == 0x11
  z sig r.stile && z sig r.value &&
  z (o == 0x01 || o == 0x02 || o == 0x03 || o == 0x06 || o == 0x07 || o == 0x08 || o == 0x0A || o == 0x0B || o == 0x0C)
    r.m &&
  z (o == 0x01 || o == 0x02 || o == 0x04 || o == 0x05 || o == 0x06 || o == 0x07 || o == 0x08 ||
    (o == 0x09 && !r.selreg) || o == 0x0A || o == 0x0B || o == 0x0C || o == 0x0D || o == 0x0F) r.n &&
  z (o == 0x01 || o == 0x02 || o == 0x03 || o == 0x04 || o == 0x05 || o == 0x09 || o == 0x0A || o == 0x0B) r.k &&
  z (o == 0x01 || o == 0x02 || o == 0x03 || o == 0x04 || o == 0x06 || o == 0x07 || o == 0x08 || o == 0x0C) r.fmt0 &&
  z (o == 0x01 || o == 0x02 || o == 0x03 || o == 0x06 || o == 0x08 || o == 0x0C) r.fmt1 &&
  z (o != 0x0E && o != 0x10 && o != 0x11 && !(o == 0x09 && r.selreg)) r.src0 &&
  z (o == 0x01 || o == 0x02 || o == 0x03 || o == 0x04 || o == 0x05 || (o == 0x07 && r.ext.testBit 0) || o == 0x0A ||
    o == 0x0B || o == 0x0C) r.src1 &&
  z ((o != 0x0F && o != 0x10 && o != 0x11) && !(r.selreg && (o == 0x02 || o == 0x04))) r.dst &&
  z ((o == 0x02 && r.ext.testBit 17) || (r.masked && (o == 0x04 || o == 0x05)) || o == 0x06 ||
    (o == 0x07 && r.ext.testBit 1) || o == 0x08 || (o == 0x0C && r.ext.testBit 16) || o == 0x0E || o == 0x0F) r.aux &&
  z (o != 0x05) r.ext

/-- The checks that validation makes of one record by reason 0x07 COMMAND. -/
def cmdOk (r : CmdRec) : Bool :=
  let ss := srcSpans r
  let ds := dstSpans r
  flagsAllowed r && operandsOk r && unusedZero r && decide (r.stile < 16384) && decide (r.value < 2 ^ 24) &&
    decide (1 ≤ r.phase) && decide (r.phase ≤ 8) && ss.all spanOk && ds.all spanOk &&
    ss.all (fun a => ds.all fun b => !overlaps a b)

/-! ### Issue, holds and completion (R95, R96, R455) -/

/-- Whether a pending landing lies in an operand region of a record (R96). -/
def landingPending (t : Tile) (r : CmdRec) : Bool :=
  t.board.any fun l => !l.landed && (srcSpans r ++ dstSpans r).any fun a => overlaps a (l.base, l.len)

/-- A command's five counts are added to the node totals, with its hold (R455, R456). -/
def State.latchTile (s : State) (c : Counts) (hold : Bool) : State :=
  ((((((s.total 0 1).total 1 c.sat).total 2 c.nan).total 3 c.sund).total 4 c.range).total 5 c.ecc).total 6 (flag hold)

/-- A scoreboard entry for a landing into a tile's scratch (R96). -/
def State.takeBoard (s : State) (tile id base len : Nat) : State :=
  let t := s.tile tile
  s.setTile { t with board := t.board ++ [{ id := id, base := base, len := len, landed := false }] }

/-- Payload length of a move of the active plan, in 64-byte units; the least a sheaf has where the plan has no such move. -/
def State.moveLen (s : State) (num : Nat) : Nat :=
  match (moveRecs s.plan0)[num]? with
  | some r => r.len
  | none => 64

/-- What an opcode does beyond its own tile when it issues: a remote COPY sets out (R118), SHLOAD starts its move and
SHSTORE stages its sheaf (R116), SIGNAL, CONSUME, SET and SIGDONE act on their stile (R117). -/
def State.tileBeyond (s : State) (tile : Nat) (t : TileIn) (r : CmdRec) : State :=
  let sig (s : State) : State := if r.sigdone then s.planSignal r.stile r.value else s
  match r.opcode with
  | 0x0D =>
    if r.ext.testBit 12 then
      let dst := 64 * field r.ext 6 6 + field r.ext 0 6
      let cp : RemoteCopy :=
        { id := s.mesh.nextId, dst := dst, addr := r.dst, bytes := t.bytes r.src0 (64 * r.cn),
          signal := if r.sigdone then some (r.stile, r.value) else none, poisoned := t.tile.fenced }
      let s1 := { s with mesh := { s.mesh with copies := s.mesh.copies ++ [cp], nextId := s.mesh.nextId + 1 } }
      s1.takeBoard dst cp.id r.dst (64 * r.cn)
    else sig s
  | 0x0E =>
    let mv : Move :=
      { num := r.ext, tile := some tile, landing := s.mesh.nextId, dst := r.dst, aux := r.aux, stile := r.stile,
        value := r.value, staged := none, retried := false, tick := s.tick.count }
    let s1 := { s with
      tiers := { s.tiers with moves := s.tiers.moves ++ [mv] }
      mesh := { s.mesh with nextId := s.mesh.nextId + 1 } }
    (s1.takeBoard tile mv.landing r.aux 64).takeBoard tile mv.landing r.dst (64 * s.moveLen r.ext)
  | 0x0F =>
    let mv : Move :=
      { num := r.ext, tile := some tile, landing := s.mesh.nextId, dst := r.dst, aux := r.aux, stile := r.stile,
        value := r.value, staged := some (t.bytes r.aux 64, t.bytes r.src0 (64 * r.cn)), retried := false,
        tick := s.tick.count }
    { s with
      tiers := { s.tiers with moves := s.tiers.moves ++ [mv] }
      mesh := { s.mesh with nextId := s.mesh.nextId + 1 } }
  | 0x10 =>
    match field r.ext 0 2 with
    | 0 => s.stileApply r.stile [.signal r.value]
    | 1 => s.stileApply r.stile [.consume r.value]
    | _ => s.stileApply r.stile [.set r.value]
  | _ => sig s

/-- A command issues at a cycle, completes at its cost, and its counts are latched (R95, R455, R460). -/
def State.tileRun (s : State) (tile cycle : Nat) (held : Bool) (r : CmdRec) : State :=
  let t := s.tile tile
  let ti : TileIn := { epoch := s.mesh.epoch, tile := t }
  let o := tileEffect ti r
  let begin := max (max r.issue t.lastDone) cycle
  let done := begin + cmdCost r
  let t1 := { t with
    scratch := if t.fenced then t.scratch else o.writes.foldl (fun m w => cellPutBytes m w.1 w.2) t.scratch
    sel := o.sel
    part := o.part
    lastDone := done
    counts := o.counts
    hold := held }
  let s1 := (s.setTile t1).latchTile o.counts held
  let s2 := if t.fenced then s1 else s1.tileBeyond tile ti r
  if s.tileTraced tile then
    (s2.traceBegin tile r.opcode r.phase begin (begin - r.issue)).traceEnd tile r.opcode r.phase done o.counts held
  else s2

/-- The home's WAIT_CONSUME that stands first in line on a stile (R290), if it waits and is satisfied: its amount. -/
def State.homeTakes (s : State) (i : Nat) (self : Nat) : Nat :=
  let st := s.stile i
  if st.homeKind = 0 && st.home ≠ self then
    match (s.tile st.home).queue.head? with
    | some r =>
      if r.opcode = 0x11 && r.stile = i && r.ext.testBit 0 && decide (r.value ≤ st.count) then r.value else 0
    | none => 0
  else 0

/-- Whether a WAIT's condition holds for a tile: what the home takes first is not left for others (R290). -/
def State.waitHolds (s : State) (tile : Nat) (r : CmdRec) : Bool :=
  r.value = 0 || decide (r.value ≤ (s.stile r.stile).count - s.homeTakes r.stile tile)

/-- One record at the head of a tile's queue: run it, or report that it must wait. `held` says that it has been held
by the scoreboard already. -/
def State.tileTry (s : State) (tile cycle : Nat) (held : Bool) (r : CmdRec) : Option State :=
  let t := s.tile tile
  if r.opcode = 0x11 then
    if s.waitHolds tile r then
      let s1 := if r.ext.testBit 0 && r.value ≠ 0 then s.stileApply r.stile [.consume r.value] else s
      some (s1.tileRun tile cycle held r)
    else none
  else if landingPending t r then none
  else some (s.tileRun tile cycle held r)

/-- A record arrives at a tile's queue: it waits behind what is there, or runs, or holds the head. A scoreboard hold is
counted (R96). A tile without a swath, or an ill-formed record, does nothing. -/
def State.tileIssue (s : State) (tile : Nat) (r : CmdRec) : State :=
  if !s.running || tile ≥ 4096 || !cmdOk r then s
  else
    let t := s.tile tile
    if !t.queue.isEmpty then s.setTile { t with queue := t.queue ++ [r] }
    else
      match s.tileTry tile 0 false r with
      | some s' => s'
      | none =>
        if r.opcode = 0x11 then s.setTile { t with queue := [r], held := false }
        else s.setTile { t with queue := [r], held := true }

/-- The queue drains: at most `fuel` records leave its head. -/
def State.tileDrain (s : State) (tile : Nat) : Nat → Nat → State
  | 0, _ => s
  | fuel + 1, cycle =>
    let t := s.tile tile
    match t.queue with
    | [] => s
    | r :: rest =>
      match (s.setTile { t with queue := rest, held := false }).tileTry tile cycle t.held r with
      | some s' => s'.tileDrain tile fuel 0
      | none =>
        if r.opcode ≠ 0x11 && !t.held then
          s.setTile { t with held := true }
        else s

/-- A landing into a tile's scratch has completed: its entry is marked. -/
def State.boardLanded (s : State) (tile id : Nat) : State :=
  let t := s.tile tile
  s.setTile { t with board := t.board.map fun l => if l.id = id then { l with landed := true } else l }

/-! ### The tile commands

Each arm forces the opcode and the mode that its row names, so that a record cannot contradict its command. -/

/-- Bits [1:0] of EXT replaced. -/
def extMode (ext m : Nat) : Nat := ext / 4 * 4 + m

/-- MATMUL (R109, R110). -/
def execMatmul (tile : Nat) (r : CmdRec) (s : State) : Host.Outcome State Fault Refusal :=
  .next (s.tileIssue tile { r with opcode := 0x01 })

/-- DIST (R111). -/
def execDist (tile : Nat) (r : CmdRec) (s : State) : Host.Outcome State Fault Refusal :=
  .next (s.tileIssue tile { r with opcode := 0x02 })

/-- LUTB (R112). -/
def execLutb (tile : Nat) (r : CmdRec) (s : State) : Host.Outcome State Fault Refusal :=
  .next (s.tileIssue tile { r with opcode := 0x03 })

/-- SCAN (R111). -/
def execScan (tile : Nat) (r : CmdRec) (s : State) : Host.Outcome State Fault Refusal :=
  .next (s.tileIssue tile { r with opcode := 0x04 })

/-- FILTER (R113). -/
def execFilter (tile : Nat) (r : CmdRec) (s : State) : Host.Outcome State Fault Refusal :=
  .next (s.tileIssue tile { r with opcode := 0x05 })

/-- QUANT (R114). -/
def execQuant (tile : Nat) (r : CmdRec) (s : State) : Host.Outcome State Fault Refusal :=
  .next (s.tileIssue tile { r with opcode := 0x06 })

/-- DQACC (R109). -/
def execDqacc (tile : Nat) (r : CmdRec) (s : State) : Host.Outcome State Fault Refusal :=
  .next (s.tileIssue tile { r with opcode := 0x07 })

/-- SCALE in ROW mode (R109). -/
def execScaleRow (tile : Nat) (r : CmdRec) (s : State) : Host.Outcome State Fault Refusal :=
  .next (s.tileIssue tile { r with opcode := 0x08, ext := extMode r.ext 0 })

/-- SCALE in SCALAR mode (R109). -/
def execScaleScalar (tile : Nat) (r : CmdRec) (s : State) : Host.Outcome State Fault Refusal :=
  .next (s.tileIssue tile { r with opcode := 0x08, ext := extMode r.ext 1 })

/-- SCALE in NORM mode (R85). -/
def execScaleNorm (tile : Nat) (r : CmdRec) (s : State) : Host.Outcome State Fault Refusal :=
  .next (s.tileIssue tile { r with opcode := 0x08, ext := extMode r.ext 2 })

/-- FLAGS with SELREG set or cleared. -/
def withSelreg (fs : Nat) (on : Bool) : Nat :=
  if fs.testBit 1 = on then fs else if on then fs + 2 else fs - 2

/-- TOPK from an array (R216). -/
def execTopkArray (tile : Nat) (r : CmdRec) (s : State) : Host.Outcome State Fault Refusal :=
  .next (s.tileIssue tile { r with opcode := 0x09, flags := withSelreg r.flags false })

/-- TOPK from a selection register partition (R213). -/
def execTopkRegister (tile : Nat) (r : CmdRec) (s : State) : Host.Outcome State Fault Refusal :=
  .next (s.tileIssue tile { r with opcode := 0x09, flags := withSelreg r.flags true })

/-- MERGE (R217). -/
def execMerge (tile : Nat) (r : CmdRec) (s : State) : Host.Outcome State Fault Refusal :=
  .next (s.tileIssue tile { r with opcode := 0x0A })

/-- REDUCE (R109). -/
def execReduce (tile : Nat) (r : CmdRec) (s : State) : Host.Outcome State Fault Refusal :=
  .next (s.tileIssue tile { r with opcode := 0x0C })

/-- GATHER (R115). -/
def execTileGather (tile : Nat) (r : CmdRec) (s : State) : Host.Outcome State Fault Refusal :=
  .next (s.tileIssue tile { r with opcode := 0x0B })

/-- EXT with the REMOTE bit set or cleared. -/
def withRemote (ext : Nat) (on : Bool) : Nat :=
  if ext.testBit 12 = on then ext else if on then ext + 0x1000 else ext - 0x1000

/-- COPY within the tile (R109). -/
def execCopyLocal (tile : Nat) (r : CmdRec) (s : State) : Host.Outcome State Fault Refusal :=
  .next (s.tileIssue tile { r with opcode := 0x0D, ext := withRemote r.ext false })

/-- COPY to another tile (R118). -/
def execCopyRemote (tile : Nat) (r : CmdRec) (s : State) : Host.Outcome State Fault Refusal :=
  .next (s.tileIssue tile { r with opcode := 0x0D, ext := withRemote r.ext true })

/-- SHLOAD (R116). -/
def execShload (tile : Nat) (r : CmdRec) (s : State) : Host.Outcome State Fault Refusal :=
  .next (s.tileIssue tile { r with opcode := 0x0E })

/-- SHSTORE (R116). -/
def execShstore (tile : Nat) (r : CmdRec) (s : State) : Host.Outcome State Fault Refusal :=
  .next (s.tileIssue tile { r with opcode := 0x0F })

/-- SIGNAL(+VALUE) (R117). -/
def execTileSignal (tile : Nat) (r : CmdRec) (s : State) : Host.Outcome State Fault Refusal :=
  .next (s.tileIssue tile { r with opcode := 0x10, ext := extMode r.ext 0 })

/-- CONSUME(−VALUE) (R117). -/
def execTileConsume (tile : Nat) (r : CmdRec) (s : State) : Host.Outcome State Fault Refusal :=
  .next (s.tileIssue tile { r with opcode := 0x10, ext := extMode r.ext 1 })

/-- SET(VALUE) (R117). -/
def execTileSet (tile : Nat) (r : CmdRec) (s : State) : Host.Outcome State Fault Refusal :=
  .next (s.tileIssue tile { r with opcode := 0x10, ext := extMode r.ext 2 })

/-- WAIT (R117). -/
def execTileWait (tile : Nat) (r : CmdRec) (s : State) : Host.Outcome State Fault Refusal :=
  .next (s.tileIssue tile { r with opcode := 0x11, ext := r.ext / 2 * 2 })

/-- WAIT_CONSUME, issued only by the stile's home (R290). -/
def execTileWaitConsume (tile : Nat) (r : CmdRec) (s : State) : Host.Outcome State Fault Refusal :=
  .next (s.tileIssue tile { r with opcode := 0x11, ext := r.ext / 2 * 2 + 1 })

/-- REMOTE_COPY_LANDING (R118): the last byte lands, then SIGDONE signals. Poisoned bytes reach nothing (R391). -/
def execRemoteCopyLanding (id : Nat) (s : State) : Host.Outcome State Fault Refusal :=
  match s.mesh.copies.find? fun c => c.id == id with
  | none => .next s
  | some c =>
    let s1 := { s with mesh := { s.mesh with copies := s.mesh.copies.filter fun x => x.id != id } }
    let t := s1.tile c.dst
    let s2 := if c.poisoned then s1 else s1.setTile { t with scratch := cellPutBytes t.scratch c.addr c.bytes }
    let s3 := s2.boardLanded c.dst id
    .next (match c.signal, c.poisoned with
      | some (i, v), false => s3.planSignal i v
      | _, _ => s3)

/-- SCOREBOARD_RELEASE (R96): entries whose landing has completed are released, and the held command issues. -/
def execScoreboardRelease (tile cycle : Nat) (s : State) : Host.Outcome State Fault Refusal :=
  let t := s.tile tile
  let s1 := s.setTile { t with board := t.board.filter fun l => !l.landed }
  .next (if s.running then s1.tileDrain tile (t.queue.length) cycle else s1)

end Sys2Proof.Machine
end

