-- ==== Sys2Proof/Machine/Index.lean ====
section
/-! DEFINITION. Indexes and their stored structures: list headers, codes, attributes, tombstones, deltas, the fixed
footprint and its placement, and the index digest (07 R177–R186). -/

namespace Sys2Proof.Machine

/-! ### Objects of a function -/

/-- An index of a function (R177). -/
def State.index (s : State) (f o : Nat) : Option Index := s.search.indexes.find? fun x => x.fn == f && x.obj == o

/-- An index that new work may name: one that no IX_DROP has removed. -/
def State.liveIndex (s : State) (f o : Nat) : Option Index := (s.index f o).filter fun x => !x.dropped

/-- Put an index back. -/
def State.setIndex (s : State) (x : Index) : State :=
  { s with search := { s.search with
      indexes := putBy (fun y => y.fn * 65536 + y.obj) x s.search.indexes } }

/-- A table of a function (R224). -/
def State.tableDef (s : State) (f o : Nat) : Option TableDef := s.tables.defs.find? fun x => x.fn == f && x.obj == o

/-- A table that new work may name: one that no TB_DROP has removed. -/
def State.liveTable (s : State) (f o : Nat) : Option TableDef := (s.tableDef f o).filter fun x => !x.dropped

/-- Put a table back. -/
def State.setTable (s : State) (x : TableDef) : State :=
  { s with tables := { s.tables with defs := putBy (fun y => y.fn * 65536 + y.obj) x s.tables.defs } }

/-! ### Space in a logical channel (R155, R178; the place is the node's choice, assumption 12) -/

/-- The space that functions may take in a channel: 2,015 MiB (R153, Table HI-4) from offset 64, so that no object lies at
node address 0. The plan slots and the work area lie above it. -/
def grantBase : Nat := 64
def grantTop : Nat := grantBase + 2015 * 1048576

/-- The regions in use of a channel: offset and length. -/
def State.inUse (s : State) (ch : Nat) : List (Nat × Nat) :=
  (s.tiers.allocs.filter fun a => a.1 == ch).map fun a => (a.2.1, a.2.2.1)

/-- The lowest free place of `n` bytes in a channel. -/
def State.freePlace (s : State) (ch n : Nat) : Option Nat :=
  let used := s.inUse ch
  let cands := grantBase :: used.map fun a => ceilDiv (a.1 + a.2) 64 * 64
  let ok (o : Nat) : Bool := decide (o + n ≤ grantTop) && used.all fun a => decide (o + n ≤ a.1) || decide (a.1 + a.2 ≤ o)
  (cands.filter ok).min?

/-- Bytes that a function holds in a channel. -/
def State.held (s : State) (f ch : Nat) : Nat :=
  ((s.tiers.allocs.filter fun a => a.1 == ch && a.2.2.2.1 == f).map fun a => a.2.2.1).sum

/-- A function's T1 grant in every logical channel, bytes (R361). -/
def State.grant (s : State) (f : Nat) : Nat := match s.compEntry f with | some e => entT1 e * 1048576 | none => 0

/-- Take `n` bytes in a channel for an object, all zero: the state and the node address. -/
def State.takePlace (s : State) (f o ch n : Nat) : Option (State × Nat) :=
  match s.freePlace ch n with
  | some off =>
    let a := chanAddr ch off
    some ({ s with
      t1 := s.t1.filter fun c => decide (c.1 < a) || decide (a + n ≤ c.1)
      tiers := { s.tiers with allocs := s.tiers.allocs ++ [(ch, off, n, f, o)] } }, a)
  | none => none

/-- Give up every region of an object. -/
def State.dropPlaces (s : State) (f o : Nat) : State :=
  { s with tiers := { s.tiers with allocs := s.tiers.allocs.filter fun a => !(a.2.2.2.1 == f && a.2.2.2.2 == o) } }

/-- Give up one region by its node address. -/
def State.dropPlace (s : State) (a : Nat) : State :=
  { s with tiers := { s.tiers with
      allocs := s.tiers.allocs.filter fun x => !(x.1 == channelOf a && x.2.1 == chanOff a) } }

/-! ### Packing of rows in sheaves (R159, R183) -/

/-- The payload of a sheaf of some data bytes (R159). -/
def payloadOf (n : Nat) : Nat := max 4096 (ceilDiv n 64 * 64)

/-- Bytes of the sheaves that hold `n` items of `u` bytes, as many as fit to a sheaf. -/
def packSheaves (n u : Nat) : Nat :=
  if u = 0 then 0
  else
    let per := 65536 / u
    let rest := n % per
    n / per * (64 + payloadOf (per * u)) + (if rest = 0 then 0 else 64 + payloadOf (rest * u))

/-- Rows per sheaf of a matrix kind of stride `st`, the code block of NESTED included (R159, 09). -/
def rowsPerSheaf (nested : Bool) (st : Nat) : Nat :=
  if nested then
    ((List.range (65536 / st + 1)).reverse.find? fun r => ceilDiv r 64 * 64 + r * st ≤ 65536).getD 0
  else 65536 / st

/-- Bytes of the sheaves of `n` matrix rows: the data sheaves and, with SIDE, their SCALE sheaves. -/
def matrixBytes (scale fmt elems n : Nat) : Nat :=
  let st := stride64 (rowBytes fmt elems)
  let nested := scaledFmt fmt && scale == 2
  let rps := max 1 (rowsPerSheaf nested st)
  let size (r : Nat) : Nat := if r = 0 then 0 else 64 + payloadOf ((if nested then ceilDiv r 64 * 64 else 0) + r * st)
  n / rps * size rps + size (n % rps) + (if scaledFmt fmt && scale == 1 then packSheaves n 2 else 0)

/-- Codes in each CODES sheaf but the last: ⌊65,536 ÷ m⌋ (R183). -/
def codesPer (m : Nat) : Nat := 65536 / m
/-- From one full CODES sheaf to the next. -/
def codeStep (m : Nat) : Nat := 64 + payloadOf (codesPer m * m)
/-- Node address of the code of position p of a list whose CODES sheaves begin at `base` (R183). -/
def codeAddr (base m p : Nat) : Nat := base + p / codesPer m * codeStep m + 64 + p % codesPer m * m
/-- Node address of the attribute word of position p. -/
def attrAddr (base p : Nat) : Nat := base + p / 8192 * (64 + 65536) + 64 + p % 8192 * 8
/-- Bytes of the CODES sheaves of n codes, at least one sheaf. -/
def codeBytes (n m : Nat) : Nat := packSheaves (max 1 n) m
/-- Bytes of the ATTRS sheaves of n words. -/
def attrBytes (n : Nat) : Nat := packSheaves (max 1 n) 8
/-- Bytes of a tombstone region (R184). -/
def tombBytes (n delta : Nat) : Nat := ceilDiv (n + delta) 512 * 64
/-- Bytes of a list's DELTA_CODES and DELTA_ATTRS sheaves. -/
def deltaBytes (delta m : Nat) : Nat := 64 + payloadOf (delta * m) + 64 + payloadOf (delta * 8)
/-- Node address of delta code row j, and of delta attribute row j. -/
def deltaCode (base m j : Nat) : Nat := base + 64 + j * m
def deltaAttr (base delta m j : Nat) : Nat := base + 64 + payloadOf (delta * m) + 64 + j * 8

/-! ### List headers (Table VS-3) -/

/-- A list header. -/
structure ListHdr where
  len : Nat
  dead : Nat
  gen : Nat
  list : Nat
  csheaves : Nat
  codes : Nat
  asheaves : Nat
  attrs : Nat
  tombs : Nat
  dlen : Nat
  delta : Nat
  segment : Nat
  compact : Nat
  deriving DecidableEq, Repr

/-- The header that 64 bytes hold. -/
def hdrOf (b : List Byte) : ListHdr :=
  let w (i : Nat) : Nat := wordAt b (8 * i)
  { len := field (w 0) 32 32, dead := field (w 0) 0 32, gen := field (w 1) 32 32, list := field (w 1) 0 22
    csheaves := field (w 2) 40 24, codes := field (w 2) 0 40, asheaves := field (w 3) 40 24, attrs := field (w 3) 0 40
    tombs := field (w 4) 0 40, dlen := field (w 5) 53 11, delta := field (w 5) 0 40, segment := w 6, compact := w 7 }

/-- The 64 bytes of a header. -/
def hdrBytes (h : ListHdr) : List Byte :=
  wordsBytes [word [(32, 32, h.len), (0, 32, h.dead)], word [(32, 32, h.gen), (0, 22, h.list)],
    word [(40, 24, h.csheaves), (0, 40, h.codes)], word [(40, 24, h.asheaves), (0, 40, h.attrs)],
    word [(0, 40, h.tombs)], word [(53, 11, h.dlen), (0, 40, h.delta)], BitVec.ofNat 64 h.segment,
    BitVec.ofNat 64 h.compact]

/-- The header at a node address. -/
def State.hdrAt (s : State) (a : Nat) : ListHdr := hdrOf (memReadBytes s.t1 a 64)

/-- Node address of the header of list l of an index. -/
def listAddr (x : Index) (l : Nat) : Nat := x.cellBase.getD (l / x.cells2) 0 + 64 + 64 * (l % x.cells2)

/-- The header of list l of an index. -/
def State.listHdr (s : State) (x : Index) (l : Nat) : ListHdr := s.hdrAt (listAddr x l)

/-- Put a list header. -/
def State.putHdr (s : State) (x : Index) (l : Nat) (h : ListHdr) : State :=
  { s with t1 := memWriteBytes s.t1 (listAddr x l) (hdrBytes h) }

/-- Lists of an index. -/
def listCount (x : Index) : Nat := x.cells1 * x.cells2

/-- Logical channel of a first-level cell. -/
def cellChan (x : Index) (c : Nat) : Nat := field (natAt x.cellmap (2 * c) 2) 0 8

/-- Logical channel of a list. -/
def listChan (x : Index) (l : Nat) : Nat := cellChan x (l / x.cells2)

/-- Whether position p of a list is dead: its tombstone bit (R184), with the kills of applies at or after the tick of
an older snapshot taken back (R240). -/
def State.isDead (s : State) (x : Index) (h : ListHdr) (snap p : Nat) : Bool :=
  (memRead s.t1 (h.tombs + p / 8)).toNat.testBit (p % 8) &&
    !(x.kills.any fun k => k.2.1 == h.list && k.2.2 == p && decide (snap ≤ k.1.toNat))

/-- n + d of list l as a tick's snapshot has it: inserts of applies at or after that tick are not in it (R184, R195). -/
def State.lenAt (s : State) (x : Index) (l snap : Nat) : Nat :=
  let h := s.listHdr x l
  h.len + h.dlen - (x.adds.filter fun a => a.2 == l && decide (snap ≤ a.1.toNat)).length

/-- Code, attribute word of position p of a list. -/
def State.codeOf (s : State) (x : Index) (h : ListHdr) (p : Nat) : List Byte :=
  memReadBytes s.t1 (if p < h.len then codeAddr h.codes x.code p else deltaCode h.delta x.code (p - h.len)) x.code
def State.attrOf (s : State) (x : Index) (h : ListHdr) (p : Nat) : Nat :=
  memNat s.t1 (if p < h.len then attrAddr h.attrs p else deltaAttr h.delta x.delta x.code (p - h.len)) 8

/-! ### The fixed footprint (R178) -/

/-- Offsets within a cell's region: LHEADS, tombstone regions, deltas, segment map headers, second-level centroids,
and the end. -/
def cellLayout (x : Index) : Nat × Nat × Nat × Nat × Nat :=
  let o1 := 64 + payloadOf (64 * x.cells2)
  let o2 := o1 + packSheaves x.cells2 (tombBytes 0 x.delta)
  let o3 := o2 + x.cells2 * deltaBytes x.delta x.code
  let o4 := o3 + packSheaves x.cells2 64
  (o1, o2, o3, o4, o4 + matrixBytes x.scale x.cfmt x.dims x.cells2)

/-- Bytes of the first-level centroids and the codebooks, which lie in the channel of cell 0. -/
def commonBytes (x : Index) : Nat :=
  matrixBytes x.scale x.cfmt x.dims x.cells1 + matrixBytes x.scale x.cfmt (x.dims / x.code) (256 * x.code)

/-- Bytes of the fixed footprint in a channel. -/
def footprint (x : Index) (ch : Nat) : Nat :=
  ((List.range x.cells1).filter fun c => cellChan x c == ch).length * (cellLayout x).2.2.2.2 +
    (if cellChan x 0 = ch then commonBytes x else 0)

/-- The header of a new, empty list of a cell whose region begins at `base`. -/
def freshHdr (x : Index) (base l : Nat) : ListHdr :=
  let k := l % x.cells2
  let (o1, o2, o3, _, _) := cellLayout x
  let u := tombBytes 0 x.delta
  { len := 0, dead := 0, gen := 0, list := l, csheaves := 0, codes := 0, asheaves := 0, attrs := 0
    tombs := base + o1 + k / (65536 / u) * (64 + payloadOf (65536 / u * u)) + 64 + k % (65536 / u) * u
    dlen := 0, delta := base + o2 + k * deltaBytes x.delta x.code
    segment := 2 ^ 62 + (base + o3 + k / 1024 * (64 + 65536) + 64 + k % 1024 * 64), compact := 0 }

/-- The region of one cell is taken and its list headers written; the index's cell bases grow by one. -/
def State.placeCell (s : State) (x : Index) (c : Nat) : State × Index :=
  match s.takePlace x.fn x.obj (cellChan x c) (cellLayout x).2.2.2.2 with
  | none => (s, { x with cellBase := x.cellBase ++ [0] })
  | some (s1, a) =>
    let hs := (List.range x.cells2).flatMap fun k => hdrBytes (freshHdr x a (c * x.cells2 + k))
    ({ s1 with t1 := memWriteBytes s1.t1 (a + 64) hs }, { x with cellBase := x.cellBase ++ [a] })

/-- An index comes to exist: its cells are placed in order, then the first-level centroids and the codebooks. -/
def State.placeIndex (s : State) (x : Index) : State :=
  let (s1, x1) := (List.range x.cells1).foldl (fun sx c => sx.1.placeCell sx.2 c) (s, { x with cellBase := [] })
  let s2 := match s1.takePlace x.fn x.obj (cellChan x 0) (commonBytes x) with | some (t, _) => t | none => s1
  s2.setIndex x1

/-! ### Centroids, codebooks and the digest (R179, R502) -/

/-- A stored row of a format as FP32 elements, and its scale where the format has one. -/
def FpRow.elems (fmt n : Nat) (r : FpRow) : List Word32 := rowF32 fmt n r.bytes
def FpRow.scaleOf (fmt : Nat) (r : FpRow) : Option Word32 := if scaledFmt fmt then some r.scale else none

/-- Row i of a list of rows. -/
def rowOf (rs : List FpRow) (i : Nat) : Option FpRow := rs.find? fun r => r.row == i

/-- Whether every CENTROIDS and CODEBOOK row of an index has landed. -/
def allRows (x : Index) : Bool :=
  x.cents.length == x.cells1 + listCount x && x.books.length == 256 * x.code

/-- The index digest (R179): values of Table VS-1 in table order with the cell-map bytes, then the rows. -/
def indexDigest (x : Index) : Word64 :=
  let w (n : Nat) : List Byte := leBytes 8 n
  let bs := w x.metric ++ w x.dims ++ w x.vfmt ++ w x.scale ++ w x.cfmt ++ w x.code ++ w x.cells1 ++ w x.cells2 ++
    bytesAt x.cellmap 0 (2 * x.cells1) ++ leBytes 8 x.attr.toNat ++ w x.delta ++
    (x.cents.flatMap (·.bytes)) ++ (x.books.flatMap (·.bytes))
  digestWord (sha256 bs) 0

/-- Rows that a LOAD has brought join the index; the digest is fixed when the last one lands. -/
def withRows (x : Index) (books : Bool) (rs : List FpRow) : Index :=
  let put (l : List FpRow) : List FpRow := rs.foldl (fun l r => putBy FpRow.row r l) l
  let y := if books then { x with books := put x.books } else { x with cents := put x.cents }
  if allRows y then { y with digest := some (indexDigest y) } else y

/-- The stride of a full vector of an index, bytes (R178). -/
def vecStride (x : Index) : Nat := stride64 (rowBytes x.vfmt x.dims)

end Sys2Proof.Machine
end

