-- ==== Sys2Proof/Machine/Table.lean ====
section
/-! DEFINITION. Tables: ownership, placement, and reading and writing a row, its scale and its dead bit in stacked
memory (09 R224–R228, R237). -/

namespace Sys2Proof.Machine

/-- Row stride (09, "Ownership and placement"). -/
def tStride (t : TableDef) : Nat := stride64 (rowBytes t.fmt t.elems)
def tNested (t : TableDef) : Bool := scaledFmt t.fmt && t.scale == 2
def tSide (t : TableDef) : Bool := scaledFmt t.fmt && t.scale == 1
/-- Rows per block. -/
def tRps (t : TableDef) : Nat := rowsPerSheaf (tNested t) (tStride t)

/-- CRC-32C of the four bytes of g, lowest first (R226). -/
def crcLe32 (g : Nat) : Nat := crc32c (leBytes 4 g)

/-- The owner of a row under RANGE. -/
def rangeOwner (i : Nat) : List Nat → Nat → Option (Nat × Nat)
  | b :: c :: r, o => if b ≤ i ∧ i < c then some (o, i - b) else rangeOwner i (c :: r) (o + 1)
  | _, _ => none

/-- The owner of row i and its local row number there (R226); none where no owner is present. -/
def ownerOf (t : TableDef) (i : Nat) : Option (Nat × Nat) :=
  let r :=
    if t.range then rangeOwner i t.bounds 0
    else
      let blk := i / tRps t
      let g := blk / t.owners
      some ((blk % t.owners + crcLe32 g) % t.owners, g * tRps t + i % tRps t)
  match r with
  | some (o, j) => if t.nodes.getD o (0xFFFFFFFF, 0xFFFFFFFF) = (0xFFFFFFFF, 0xFFFFFFFF) then none else some (o, j)
  | none => none

/-- The table row that a local row of this node's domain is (the inverse of R226). -/
def rowOfLocal (t : TableDef) (self j : Nat) : Nat :=
  if t.range then t.bounds.getD self 0 + j
  else
    let g := j / tRps t
    let r := (self + t.owners - crcLe32 g % t.owners) % t.owners
    (g * t.owners + r) * tRps t + j % tRps t

/-- Local blocks of the owner (R227). -/
def localBlocks (t : TableDef) : Nat :=
  if t.range then
    match t.self with
    | some o => ceilDiv (t.bounds.getD (o + 1) 0 - t.bounds.getD o 0) (tRps t)
    | none => 0
  else if t.self.isSome then ceilDiv (ceilDiv t.rows (tRps t)) t.owners else 0

/-- Local blocks in a logical channel. -/
def chanBlocks (t : TableDef) (ch : Nat) : Nat := (localBlocks t + 255 - ch) / 256

/-- Bytes of one unit: the ROWS sheaf, with its SCALE sheaf before it under SIDE. -/
def unitBytes (t : TableDef) : Nat :=
  let code := if tNested t then ceilDiv (tRps t) 64 * 64 else 0
  (if tSide t then 64 + 4096 else 0) + 64 + payloadOf (code + tRps t * tStride t)

/-- Bytes of a channel's share of the row history (R227). -/
def histBytes (t : TableDef) : Nat := ceilDiv (ceilDiv t.history 256 * (tStride t + 64)) 65536 * 65536
/-- History entries that a channel's share holds. -/
def histCap (t : TableDef) : Nat := ceilDiv t.history 256
/-- Bytes of a channel's dead bitmap, with its sheaf headers. -/
def deadBytes (t : TableDef) (ch : Nat) : Nat := packSheaves (ceilDiv (chanBlocks t ch * tRps t) 512) 64
/-- Bytes of the table's region in a channel, which the grant check counts (R225, R227). -/
def regionBytes (t : TableDef) (ch : Nat) : Nat :=
  if t.self.isNone then 0
  else chanBlocks t ch * unitBytes t + histBytes t + ceilDiv (chanBlocks t ch * tRps t) 512 * 64

/-- A table comes to exist: its region is taken in every channel, and its rows hold zeros there (R227). -/
def State.placeTable (s : State) (t : TableDef) : State :=
  let place (st : State × List Nat × List Nat) (ch : Nat) : State × List Nat × List Nat :=
    if t.self.isNone then (st.1, st.2.1 ++ [0], st.2.2 ++ [0])
    else
      match st.1.takePlace t.fn t.obj ch (chanBlocks t ch * unitBytes t + histBytes t + deadBytes t ch) with
      | some (s1, a) => (s1, st.2.1 ++ [a], st.2.2 ++ [a + chanBlocks t ch * unitBytes t + histBytes t])
      | none => (st.1, st.2.1 ++ [0], st.2.2 ++ [0])
  let (s1, base, dead) := (List.range 256).foldl place (s, [], [])
  s1.setTable { t with base := base, deadBase := dead }

/-- Channel, unit and row in the block of local row j (R227). -/
def rowPlace (t : TableDef) (j : Nat) : Nat × Nat × Nat := (j / tRps t % 256, j / tRps t / 256, j % tRps t)

/-- Node address of the ROWS sheaf of local row j's block. -/
def rowsSheaf (t : TableDef) (j : Nat) : Nat :=
  let (ch, u, _) := rowPlace t j
  t.base.getD ch 0 + u * unitBytes t + (if tSide t then 64 + 4096 else 0)

/-- Node address of local row j. -/
def rowAddr (t : TableDef) (j : Nat) : Nat :=
  rowsSheaf t j + 64 + (if tNested t then ceilDiv (tRps t) 64 * 64 else 0) + j % tRps t * tStride t

/-- Effective scale of local row j: FP16 under SIDE, code and sheaf scale under NESTED, else 1. -/
def State.rowScale (s : State) (t : TableDef) (j : Nat) : Word32 :=
  if tSide t then elemF32 6 (memNat s.t1 (rowsSheaf t j - 4096 + 2 * (j % tRps t)) 2)
  else if tNested t then
    nestedScale (memNat s.t1 (rowsSheaf t j + 64 + j % tRps t) 1) (BitVec.ofNat 32 (memNat s.t1 (rowsSheaf t j + 12) 4))
  else 0x3F800000#32

/-- Bit of local row j in its channel's dead bitmap: node address and bit. -/
def deadBit (t : TableDef) (j : Nat) : Nat × Nat :=
  let (ch, u, r) := rowPlace t j
  let i := u * tRps t + r
  (t.deadBase.getD ch 0 + i / 524288 * (64 + 65536) + 64 + i % 524288 / 8, i % 8)

/-- Whether local row j is dead. -/
def State.rowDead (s : State) (t : TableDef) (j : Nat) : Bool :=
  let (a, b) := deadBit t j
  (memRead s.t1 a).toNat.testBit b

/-- Set or clear bit b of the byte at a node address. -/
def State.putBit (s : State) (a b : Nat) (on : Bool) : State :=
  let v := (memRead s.t1 a).toNat
  let w := if v.testBit b = on then v else if on then v + 2 ^ b else v - 2 ^ b
  { s with t1 := memWrite s.t1 a (BitVec.ofNat 8 w) }

/-- Stored bytes of local row j. -/
def State.rowBytesAt (s : State) (t : TableDef) (j : Nat) : List Byte :=
  memReadBytes s.t1 (rowAddr t j) (rowBytes t.fmt t.elems)

/-- Write a row's stored bytes, and its scale field as its table's mode keeps it. -/
def State.putRow (s : State) (t : TableDef) (j : Nat) (bytes : List Byte) (scaleField : Nat) : State :=
  let m := memWriteBytes s.t1 (rowAddr t j) bytes
  let m2 :=
    if tSide t then memWriteBytes m (rowsSheaf t j - 4096 + 2 * (j % tRps t)) (leBytes 2 scaleField)
    else if tNested t then memWriteBytes m (rowsSheaf t j + 64 + j % tRps t) (leBytes 1 scaleField)
    else m
  { s with t1 := m2 }

/-- A local row as an older tick's table state has it (R237): the oldest history entry at or after that tick, or the row
as it stands. Bytes, effective scale, dead bit. -/
def State.rowAt (s : State) (t : TableDef) (snap : Nat) (j : Nat) : List Byte × Word32 × Bool :=
  match (t.hist.filter fun h => h.row == j && decide (snap ≤ h.tick.toNat)).foldl
      (fun best h => match best with
        | none => some h
        | some b => if h.tick.toNat < b.tick.toNat then some h else some b) none with
  | some h => (h.bytes, h.scale, h.dead)
  | none => (s.rowBytesAt t j, s.rowScale t j, s.rowDead t j)

/-- The local row whose stored row begins at a node address of the table's region in a channel. -/
def localOfAddr (t : TableDef) (a : Nat) : Nat :=
  let ch := channelOf a
  let d := a - t.base.getD ch 0
  let u := d / unitBytes t
  let lead := (if tSide t then 64 + 4096 else 0) + 64 + (if tNested t then ceilDiv (tRps t) 64 * 64 else 0)
  (u * 256 + ch) * tRps t + (d % unitBytes t - lead) / tStride t

end Sys2Proof.Machine
end

