-- ==== Sys2Proof/Machine/Operands.lean ====
section
/-! DEFINITION. Descriptors: their common words (R366), the rings and issuers of the opcodes (Table HI-10), and the
acceptance, end and carrying of the work that they start (R366, R367, R370, R373). -/

namespace Sys2Proof

/-- Word i of a descriptor. -/
def Desc.w (d : Desc) (i : Nat) : Nat := Machine.nth d.words i
/-- SEQ. -/
def Desc.seq (d : Desc) : Word64 := BitVec.ofNat 64 (d.w 0)
/-- OPCODE and CLASS. -/
def Desc.opcode (d : Desc) : Nat := Machine.field (d.w 1) 56 8
def Desc.cls (d : Desc) : Nat := Machine.field (d.w 1) 48 8

end Sys2Proof

namespace Sys2Proof.Machine

/-- A completion without a result. -/
def compOf (status : Nat) : Comp := { status := status, flags := 0, result := 0 }

/-- Administration opcodes, which belong to ring 0 (Table HI-10). -/
def adminOp (op : Nat) : Bool := decide (1 ≤ op) && decide (op ≤ 0x0A)
/-- Data opcodes, which belong to rings 1–7. -/
def dataOp (op : Nat) : Bool := (decide (0x20 ≤ op) && decide (op ≤ 0x28)) || op == 0x30

/-- Ring and issuer of an opcode, and CLASS 0 of administration descriptors (R366). PLAN_STAGE and FORMAT are the
PF's; TARGET 3 of a QUIESCE or RESUME is reserved (Table HI-14). -/
def formCheck (d : Desc) (op : Nat) : Option Nat :=
  if !adminOp op && !dataOp op then some stBad
  else if adminOp op != (d.ring == 0) then some stNotPermitted
  else if (op = 5 || op = 6) && d.fn ≠ 0 then some stNotPermitted
  else if adminOp op && d.cls ≠ 0 then some stBad
  else if (op = 9 || op = 0x0A) && field (d.w 1) 32 2 = 3 then some stBad
  else none

/-- Whether descriptor fields are all 0: (word, lowest bit, width). -/
def zeros (d : Desc) (fs : List (Nat × Nat × Nat)) : Bool := fs.all fun f => field (d.w f.1) f.2.1 f.2.2 == 0

/-! ### Work -/

/-- The work of a descriptor, by function, ring and SEQ. -/
def State.workAt (s : State) (f r : Nat) (q : Word64) : Option Work :=
  s.host.work.find? fun w => w.fn == f && w.ring == r && w.seq == q

/-- Change the work of a descriptor. -/
def State.mapWork (s : State) (f r : Nat) (q : Word64) (g : Work → Work) : State :=
  let ws := s.host.work.map fun w => if w.fn == f && w.ring == r && w.seq == q then g w else w
  { s with host := { s.host with work := ws } }

/-- Serial order of SEQs with a window of 2⁶³ (R366): whether `a` is at or before `b`. -/
def seqLe (a b : Word64) : Bool := decide ((b - a).toNat < 2 ^ 63)

/-- The administration watermark of a function (R375): the SEQ of the last administration descriptor whose effect is
complete. -/
def State.markAdmin (s : State) (f : Nat) (q : Word64) : State :=
  let g := s.fn f
  match g.adminMark with
  | some m => if seqLe q m then s else s.setFn { g with adminMark := some q }
  | none => s.setFn { g with adminMark := some q }

/-- Whether an administration descriptor that ends with a status moves the watermark: BEGIN and SET count only with what
ends their transaction, and one that had no effect does not count, a PLAN_STAGE excepted. -/
def marksAdmin (op status : Nat) : Bool := op != 1 && op != 2 && (status == stOk || op == 5)

/-- The work of a descriptor has ended: its completion waits for the egress window (R370). -/
def State.finish (s : State) (f r : Nat) (q : Word64) (c : Comp) (bufs : List (Nat × List Byte)) : State :=
  let s1 := s.mapWork f r q fun w =>
    if w.done.isSome then w
    else { w with done := some { c with flags := c.flags ||| (if w.late then fLate else 0) }, bufs := bufs }
  match s.workAt f r q with
  | some w => if r = 0 && w.done.isNone && marksAdmin w.opcode c.status then s1.markAdmin f q else s1
  | none => s1

/-- The work of a descriptor ended with a status alone. -/
def State.endWith (s : State) (d : Desc) (status : Nat) : State := s.finish d.fn d.ring d.seq (compOf status) []

/-- An item is carried (R57, R58): its work is late, and its class counts it. -/
def State.carry (s : State) (f r : Nat) (q : Word64) (cls : Nat) : State :=
  ((s.mapWork f r q fun w => { w with late := true, carried := true }).total 17 1).classBump f cls 10 1

/-- A ring halts (R364, Table HI-8). -/
def State.haltRing (s : State) (f r reason : Nat) : State :=
  let x := s.ring f r
  let s1 := s.setRing f r { x with state := .halted, haltReason := reason }
  s1.raise .ringHalt f r reason x.sqHead

/-- The ring moves past an accepted descriptor (R365, R366). -/
def State.ringAccepts (s : State) (d : Desc) : State :=
  let x := s.ring d.fn d.ring
  let depth := 2 ^ field x.cfg.toNat 16 5
  let next := (d.idx + 1) % depth
  s.setRing d.fn d.ring { x with
    sqHead := next, nextSeq := d.seq + 1, acceptSeq := d.seq, acceptIdx := next, dirty := true }

/-- A descriptor is accepted: its work is listed, with the slots that it takes; `ended` ends it at once. -/
def State.acceptWork (s : State) (d : Desc) (op slots : Nat) (started : Bool) (ended : Option Comp) : State :=
  let x := s.ring d.fn d.ring
  let late := match x.lateThrough with | some q => seqLe d.seq q | none => false
  let w : Work :=
    { fn := d.fn, ring := d.ring, idx := d.idx, seq := d.seq, opcode := op, cls := d.cls, words := d.words
      admitTick := s.tick.count, late := late, started := started
      done := ended.map fun c => { c with flags := c.flags ||| (if late then fLate else 0) }
      bufs := [], scanned := 0, readFails := 0, slots := slots, carried := false }
  let s1 := (s.ringAccepts d).classBump d.fn d.cls 0 1
  { s1 with host := { s1.host with work := s1.host.work ++ [w] } }

/-- The bound of 64 retained snapshots (R60). -/
def State.snapshotsFull (s : State) : Bool := decide (64 ≤ s.search.snapshots.length)

/-- Whether a descriptor that passes its checks can be admitted now: `need` slots of its class are left, and no further
snapshot would be needed beyond 64 (R59, R60, R207). -/
def State.canAdmit (s : State) (f cls need : Nat) : Bool :=
  !classHasSlots cls || (decide (need ≤ s.slotsLeft f cls) && !s.snapshotsFull)

/-- Whether a ring is served now: enabled; the node ticks; a data ring only while the swath runs (R428), not quiesced
(R379) and not fallow (R381). -/
def State.ringServed (s : State) (f r : Nat) : Bool :=
  s.ticking && (s.ring f r).state == .enabled &&
    (if r = 0 then !s.isFallow || f == 0
     else s.running && !s.power.fallowAsked && !(s.fn f).quiesced)

/-- Whether a descriptor is an administration descriptor whose effect is complete (R375). -/
def State.adminDone (s : State) (d : Desc) : Bool :=
  d.ring == 0 && (match (s.fn d.fn).adminMark with | some m => seqLe d.seq m | none => false)

/-- The completion of such a descriptor, as it was (R375): a BEGIN or SET, and one that is no longer known, ended with
OK. -/
def State.rebuildAdmin (s : State) (d : Desc) : State :=
  match s.host.past.find? fun w => w.fn == d.fn && w.ring == d.ring && w.seq == d.seq with
  | some w => match w.done with
    | some c => s.finish d.fn d.ring d.seq c w.bufs
    | none => s.endWith d stOk
  | none => s.endWith d stOk

/-- An expected descriptor is accepted, where it can be admitted: the state, and whether it is to run. `refused` gives the
status that ends it at once, `need` the slots it takes; `started` says that its row runs now. -/
def State.admitDesc (s : State) (d : Desc) (op : Nat) (refused : Option Nat) (need : Nat) (started : Bool) :
    Option (State × Bool) :=
  if s.adminDone d then some ((s.acceptWork d op 0 true none).rebuildAdmin d, false)
  else
    match refused with
    | some e => some (s.acceptWork d op 0 true (some (compOf e)), false)
    | none =>
      if s.canAdmit d.fn d.cls need then
        some (s.acceptWork d op (if classHasSlots d.cls then need else 0) started none, true)
      else none

/-- A descriptor row of the command table. The descriptor was accepted in ingest and waits to run (one whose data failed to
be read waits for the next ingest, R355), or it is accepted
here, when its ring is served and it is the one expected; a descriptor out of sequence halts its ring (R366). `check`
gives the status of a descriptor that is refused (of an administration descriptor, which may rest on those before it,
when it runs), `need` the slots it takes, and `body` what it does. -/
def State.runDesc (s : State) (d : Desc) (op : Nat) (check : State → Desc → Option Nat)
    (need : State → Desc → Nat) (body : State → Desc → State) : State :=
  match s.workAt d.fn d.ring d.seq with
  | some w =>
    if w.started || w.done.isSome || w.opcode ≠ op || w.readFails == 1 then s
    else
      let s1 := s.mapWork d.fn d.ring d.seq fun w => { w with started := true }
      let e : Desc := { d with words := w.words, idx := w.idx }
      match (if adminOp op then check s1 e else none) with
      | some st => s1.endWith e st
      | none => body s1 e
  | none =>
    if !s.ringServed d.fn d.ring then s
    else if d.seq ≠ (s.ring d.fn d.ring).nextSeq then s.haltRing d.fn d.ring 1
    else
      let refused := match formCheck d op with
        | some e => some e
        | none => check s d
      match s.admitDesc d op refused (need s d) true with
      | some (s1, true) => body s1 d
      | some (s1, false) => s1
      | none => s

/-- One slot. -/
def oneSlot (_ : State) (_ : Desc) : Nat := 1

end Sys2Proof.Machine
end

