-- ==== Sys2Proof/Machine/HostIf.lean ====
section
/-! DEFINITION. The host interface: doorbells, ring configuration, completions and status blocks, events, MSI-X,
quiesce and resume (14 R363–R379, 19 R478). -/

namespace Sys2Proof.Machine

/-! ### Writing host memory -/

/-- Bytes written to host memory. -/
def State.hostWrite (s : State) (a : Nat) (bs : List Byte) : State :=
  { s with hostMem := memWriteBytes s.hostMem (a % 2 ^ 64) bs }

/-- Host memory as the host has made it by now (assumption 3). -/
def State.hostSets (s : State) (h : HostBytes) : State := { s with hostMem := memWriteCells s.hostMem h }

/-! ### MSI-X -/

/-- An MSI-X vector is sent, or left pending while its table entry is masked. -/
def State.sendVector (s : State) (f v : Nat) : State :=
  let g := s.fn f
  if ((g.msix.getD v []).getD 12 1).toNat.testBit 0 then s.setFn { g with pba := g.pba ||| BitVec.ofNat 64 (2 ^ v) }
  else { s with host := { s.host with msixSent := (f, v) :: s.host.msixSent } }

/-! ### Ring registers (Tables HI-5 to HI-7) -/

/-- Depth that a ring configuration gives. -/
def ringDepth (cfg : Word64) : Nat := 2 ^ field cfg.toNat 16 5
/-- The bits of HI_RING_CFG that are not reserved (Table HI-6). -/
def cfgMask : Nat := 0xFFFF00FF001F0003

/-- Doorbell values: bits [15:0] below the depth, no bit above (Table HI-8, DOORBELL). -/
def bellOk (cfg v : Word64) : Bool := decide (v.toNat < ringDepth cfg)

/-- A write to HI_SQ_TAIL (R478). -/
def State.sqTail (s : State) (fn ring : Nat) (value : Word64) : State :=
  let x := s.ring fn ring
  if bellOk x.cfg value then s.setRing fn ring { x with tail := value.toNat }
  else if x.state = .enabled then s.haltRing fn ring 3
  else s.bumpFn fn 8

/-- SQ_TAIL_DOORBELL (R478). -/
def execSqTailDoorbell (fn ring : Nat) (value : Word64) (host : HostBytes) (s : State) :
    Host.Outcome State Fault Refusal := .next ((s.hostSets host).sqTail fn ring value)

/-- A write to HI_CQ_HEAD (R370, R478): the entries before the index are free. -/
def State.cqHead (s : State) (fn ring : Nat) (value : Word64) : State :=
  let x := s.ring fn ring
  if bellOk x.cfg value then
    let n := (value.toNat + ringDepth x.cfg - x.cqHead) % ringDepth x.cfg
    s.setRing fn ring { x with cqHead := value.toNat, history := x.history.map (List.drop n) }
  else if x.state = .enabled then s.haltRing fn ring 3
  else s.bumpFn fn 8

/-- CQ_HEAD_DOORBELL. -/
def execCqHeadDoorbell (fn ring : Nat) (value : Word64) (s : State) : Host.Outcome State Fault Refusal :=
  .next (s.cqHead fn ring value)

/-- A write to the event ring's HEAD (R376): its entries before the index are free. -/
def State.evHead (s : State) (fn : Nat) (value : Word64) : State :=
  let g := s.fn fn
  let d := ringDepth g.ev.cfg
  if bellOk g.ev.cfg value then
    let left := (g.ev.idx + d - value.toNat) % d
    s.setFn { g with ev := { g.ev with bell := value.toNat, used := min left g.ev.used } }
  else s.bumpFn fn 8

/-- EV_HEAD_DOORBELL. -/
def execEvHeadDoorbell (fn : Nat) (value : Word64) (s : State) : Host.Outcome State Fault Refusal :=
  .next (s.evHead fn value)

/-- A write to the receive ring's TAIL (R378): entries are posted. -/
def State.rxTail (s : State) (fn : Nat) (value : Word64) : State :=
  let g := s.fn fn
  if bellOk g.rx.cfg value then s.setFn { g with rx := { g.rx with bell := value.toNat } } else s.bumpFn fn 8

/-- RX_TAIL_DOORBELL. -/
def execRxTailDoorbell (fn : Nat) (value : Word64) (host : HostBytes) (s : State) : Host.Outcome State Fault Refusal :=
  .next ((s.hostSets host).rxTail fn value)

/-- HI_RING_CFG as a write leaves it (R363): ENABLE always; the other fields only while DISABLED, and a write that
changes them at another time is counted. -/
def cfgWritten (st : RingState) (old v : Word64) : Word64 × Bool :=
  let new := BitVec.ofNat 64 (v.toNat &&& cfgMask)
  if st = .disabled then (new, false)
  else (BitVec.ofNat 64 (old.toNat / 2 * 2 + new.toNat % 2), old.toNat / 2 != new.toNat / 2)

/-- A side ring that takes a configuration write (R358, R363). -/
def State.sideCfg (s : State) (fn : Nat) (which : Nat) (x : SideRing) (put : SideRing → State) (v : Word64) : State :=
  let (c, ignored) := cfgWritten x.state x.cfg v
  let bad := v.toNat.testBit 0 && (s.compEntry fn).isNone
  let s1 := put { x with cfg := c, state := if bad then .halted else x.state, haltReason := if bad then 5 else x.haltReason }
  let s2 := if ignored then s1.bumpFn fn 8 else s1
  if bad then s2.raise .ringHalt fn which 5 0 else s2

/-- A write to HI_RING_CFG (R358, R363, R364). The enable or disable that it asks for takes effect at the next boundary. -/
def State.ringCfg (s : State) (fn : Nat) (ring : RingName) (value : Word64) : State :=
  let g := s.fn fn
  match ring with
  | .pair r =>
    let x := s.ring fn r
    let (c, ignored) := cfgWritten x.state x.cfg value
    let s1 := s.setRing fn r { x with cfg := c }
    let s2 := if ignored then s1.bumpFn fn 8 else s1
    if value.toNat.testBit 0 && (s.compEntry fn).isNone then s2.haltRing fn r 5 else s2
  | .event => s.sideCfg fn 8 g.ev (fun x => s.setFn { g with ev := x }) value
  | .receive => s.sideCfg fn 9 g.rx (fun x => s.setFn { g with rx := x }) value

/-- RING_CFG_WRITE. -/
def execRingCfgWrite (fn : Nat) (ring : RingName) (value : Word64) (s : State) : Host.Outcome State Fault Refusal :=
  .next (s.ringCfg fn ring value)

/-! ### Enabling and disabling at the boundary (R364, R369, Table HI-8) -/

/-- Why a ring pair cannot be enabled (Table HI-8), if it cannot: 6 CONFIG, 4 RESUME. -/
def enableFault (x : Ring) : Option Nat :=
  let c := x.cfg.toNat
  let n := field c 16 5
  if n < 6 || n > 16 || x.sqBase.toNat % 4096 ≠ 0 || x.cqBase.toNat % 4096 ≠ 0 || x.rsbAddr.toNat % 64 ≠ 0 ||
      field c 48 16 ≥ 2 ^ n then some 6
  else
    match x.history with
    | none => none
    | some h =>
      let low := h.headD (x.doneSeq + 1)
      if seqLe low x.resumeSeq && seqLe x.resumeSeq (x.acceptSeq + 1) then none else some 4

/-- The ring as it is when it becomes ENABLED (R364). Descriptors up to the ACCEPT_SEQ of the ring status block are
late (R375). -/
def ringEnabled (x : Ring) (rsbAccept : Option Word64) : Ring :=
  let i := field x.cfg.toNat 48 16
  { x with state := .enabled, haltReason := 0, sqHead := i, nextSeq := x.resumeSeq, cqIdx := 0, phase := true, cqHead := 0
           acceptSeq := x.resumeSeq - 1, acceptIdx := i, lateThrough := rsbAccept, history := some [], dirty := true }

/-- One ring pair at a boundary (R364). -/
def State.ringBoundary (s : State) (f r : Nat) : State :=
  let x := s.ring f r
  let on := x.cfg.toNat.testBit 0
  match x.state, on with
  | .disabled, true =>
    match enableFault x with
    | some reason => s.haltRing f r reason
    | none =>
      let acc := BitVec.ofNat 64 (memNat s.hostMem x.rsbAddr.toNat 8)
      let seen := x.history.isSome || acc ≠ 0
      s.setRing f r (ringEnabled x (if seen then some acc else none))
  | .enabled, false =>
    let busy := s.host.work.any fun w => w.fn == f && w.ring == r
    s.setRing f r { x with state := if busy then .draining else .disabled }
  | .halted, false =>
    let busy := s.host.work.any fun w => w.fn == f && w.ring == r
    s.setRing f r { x with state := if busy then .draining else .disabled, haltReason := 0 }
  | .draining, false =>
    if s.host.work.any fun w => w.fn == f && w.ring == r then s else s.setRing f r { x with state := .disabled }
  | _, _ => s

/-- One event or receive ring at a boundary: LOG2_DEPTH from 6 to `top`. -/
def sideBoundary (top : Nat) (x : SideRing) : SideRing :=
  let n := field x.cfg.toNat 16 5
  match x.state, x.cfg.toNat.testBit 0 with
  | .disabled, true =>
    if n < 6 || n > top || x.base.toNat % 4096 ≠ 0 || x.sbAddr.toNat % 64 ≠ 0 then { x with state := .halted, haltReason := 6 }
    else { x with state := .enabled, haltReason := 0, idx := 0, phase := true, bell := 0, used := 0 }
  | .enabled, false => { x with state := .disabled }
  | .halted, false => { x with state := .disabled, haltReason := 0 }
  | _, _ => x

/-- Every ring of a function at a boundary, and its quiesce (R364, R379). -/
def State.fnBoundary (s : State) (f : Nat) : State :=
  let s1 := (List.range 8).foldl (fun s r => s.ringBoundary f r) s
  let g := s1.fn f
  let ev := sideBoundary 12 g.ev
  let rx := sideBoundary 14 g.rx
  let s2 := s1.setFn { g with
    ev := ev, rx := rx, quiesced := g.quiesceNext.getD g.quiesced, quiesceNext := none }
  let s3 := if ev.state = .halted && g.ev.state ≠ .halted then s2.raise .ringHalt f 8 6 0 else s2
  if rx.state = .halted && g.rx.state ≠ .halted then s3.raise .ringHalt f 9 6 0 else s3

/-! ### Completions (R370–R372, Tables HI-9, HI-11) -/

/-- The 32 bytes of a completion. -/
def completionBytes (w : Work) (c : Comp) (tick : Word64) (phase : Bool) : List Byte :=
  wordsBytes [w.seq, c.result, tick,
    word [(48, 16, w.idx), (24, 8, w.opcode), (16, 8, c.status), (8, 8, c.flags), (0, 1, flag phase)]]

/-- The 64 bytes of a ring status block. -/
def rsbBytes (x : Ring) (tick : Word64) : List Byte :=
  wordsBytes [x.acceptSeq, word [(48, 16, x.acceptIdx)], x.doneSeq, tick, 0, 0, 0, 0]

/-- The counts that a completion adds to its class (Table OB-4). -/
def State.countComp (s : State) (w : Work) (c : Comp) : State :=
  let s1 := (s.classBump w.fn w.cls 1 1).classBump w.fn w.cls 2 (flag (c.status ≠ 0))
  let s2 := (List.range 7).foldl (fun s i => s.classBump w.fn w.cls (3 + i) (flag (c.flags.testBit i))) s1
  s2.classBump w.fn w.cls 11 w.scanned

/-- The first work of a ring, in ring order. -/
def State.headWork (s : State) (f r : Nat) : Option Work := s.host.work.find? fun w => w.fn == f && w.ring == r

/-- Whether the ring's first work has ended and the CQ has a free entry (R370). -/
def State.compReady (s : State) (f r : Nat) : Bool :=
  let x := s.ring f r
  match s.headWork f r with
  | some w => w.done.isSome && decide ((x.history.getD []).length < ringDepth x.cfg) && decide (x.state ≠ .disabled)
  | none => false

/-- A completion, after its result buffers, goes into the next free CQ entry. -/
def State.putComp (s : State) (f r : Nat) (w : Work) (c : Comp) : State :=
  let x := s.ring f r
  let d := ringDepth x.cfg
  let s1 := w.bufs.foldl (fun s b => s.hostWrite b.1 b.2) s
  let s2 := s1.hostWrite (x.cqBase.toNat + 32 * x.cqIdx) (completionBytes w c s.tick.count x.phase)
  let next := (x.cqIdx + 1) % d
  let s3 := (s2.setRing f r { x with
    cqIdx := next, phase := if next = 0 then !x.phase else x.phase, doneSeq := w.seq
    history := some (x.history.getD [] ++ [w.seq]), dirty := true, wrote := true }).countComp w c
  { s3 with host := { s3.host with
      work := s3.host.work.erase w
      past := if r = 0 || (decide (0x40 ≤ w.cls) && decide (w.cls ≤ 0x4E)) then s3.host.past ++ [w] else s3.host.past } }

/-- The ring status block after the tick's completions, and then the vector (R365, R372). -/
def State.ringStatus (s : State) (f r : Nat) : State :=
  let x := s.ring f r
  let s1 := if x.dirty then s.hostWrite x.rsbAddr.toNat (rsbBytes x s.tick.count) else s
  let s2 := s1.setRing f r { x with dirty := false, wrote := false }
  if x.wrote && x.cfg.toNat.testBit 1 then s2.sendVector f (field x.cfg.toNat 32 8) else s2

/-- COMPLETION_WRITE (R370): in an egress window, the next completion of the ring, and when no further one can be
written, the ring status block and the vector. -/
def execCompletionWrite (fn ring : Nat) (s : State) : Host.Outcome State Fault Refusal :=
  if s.tick.phase ≠ .egress then .next s
  else
    let s1 :=
      if s.compReady fn ring then
        match s.headWork fn ring with
        | some w => match w.done with | some c => s.putComp fn ring w c | none => s
        | none => s
      else s
    if s1.compReady fn ring then .next s1
    else
      let s2 := s1.ringStatus fn ring
      let x := s2.ring fn ring
      .next (if x.state = .draining && (s2.headWork fn ring).isNone then s2.setRing fn ring { x with state := .disabled }
        else s2)

/-! ### Events (R376) -/

/-- EVENT_RECORD_WRITE: the oldest raised event goes to its function's ring, or is counted as LOST; then the event
status block and the vector. -/
def execEventRecordWrite (s : State) : Host.Outcome State Fault Refusal :=
  match s.events with
  | [] => .next s
  | e :: rest =>
    let s0 := { s with events := rest }
    let g := s0.fn e.fn
    let x := g.ev
    let d := ringDepth x.cfg
    if x.state = .enabled && decide (x.used < d) then
      let y := { x with idx := (x.idx + 1) % d, used := x.used + 1 }
      let s1 := (s0.setFn { g with ev := y }).hostWrite (x.base.toNat + 32 * x.idx) e.bytes
      let s2 := s1.hostWrite x.sbAddr.toNat (wordsBytes [BitVec.ofNat 64 y.idx, BitVec.ofNat 64 y.lost])
      .next (if x.cfg.toNat.testBit 1 then s2.sendVector e.fn (field x.cfg.toNat 32 8) else s2)
    else .next (s0.setFn { g with ev := { x with lost := min 0xFFFFFFFF (x.lost + 1) } })

/-! ### The receive ring (R378) -/

/-- What a SEND of some bytes meets: no posted entry, a buffer too short, or a place. -/
inductive RxPlace where
  | none_
  | short
  | at_ (entry buf : Nat)
  deriving DecidableEq, Repr

/-- The next posted entry for a SEND. -/
def State.rxPlace (s : State) (f len : Nat) : RxPlace :=
  let x := (s.fn f).rx
  if x.state ≠ .enabled || x.idx = x.bell then .none_
  else
    let e := x.base.toNat + 32 * x.idx
    if memNat s.hostMem (e + 12) 4 < len then .short else .at_ e (memNat s.hostMem e 8)

/-- A SEND is placed: the payload, then the entry's node fields, then the receive status block and the vector, once per
tick. -/
def State.rxPut (s : State) (f conn entry buf : Nat) (bs : List Byte) : State :=
  let g := s.fn f
  let x := g.rx
  let next := (x.idx + 1) % ringDepth x.cfg
  let s1 := s.hostWrite buf bs
  let s2 := ((s1.hostWrite (entry + 8) (leBytes 4 bs.length)).hostWrite (entry + 16)
    (leBytes 8 (conn % 2 ^ 21))).hostWrite (entry + 24) (leBytes 8 (flag x.phase))
  let s3 := s2.setFn { g with rx := { x with idx := next, phase := if next = 0 then !x.phase else x.phase } }
  let s4 := s3.hostWrite x.sbAddr.toNat (leBytes 8 next)
  if s4.host.rxDirty.contains f then s4
  else
    let s5 := { s4 with host := { s4.host with rxDirty := s4.host.rxDirty ++ [f] } }
    if x.cfg.toNat.testBit 1 then s5.sendVector f (field x.cfg.toNat 32 8) else s5

/-! ### Quiesce and resume (R379) -/

/-- The quiesce or resume of a function at the next boundary. -/
def State.setQuiesce (s : State) (f : Nat) (on : Bool) : State :=
  let g := s.fn f
  s.setFn { g with quiesceNext := some on }

/-- Every function that the composition holds. -/
def State.functions (s : State) : List Nat :=
  match s.host.comp.record with
  | some rec => (compEntries rec).map fun e => field (wordAt e 0) 52 12
  | none => []

/-- Reserved fields of Table HI-14, and the fields that a QUIESCE or RESUME with a target does not use. -/
def quiesceForm (target : Nat) (d : Desc) : Bool :=
  zeros d [(1, 34, 14), (1, 12, 18), (1, 30, 2), (2, 0, 64), (3, 32, 32), (4, 0, 64), (5, 0, 64), (6, 0, 64), (7, 0, 64)] &&
    (target = 2 || zeros d [(1, 0, 12), (3, 0, 32)])

/-- Form and issuer of a QUIESCE or RESUME: TARGET 1 and 2 are the PF's; TARGET 3 is reserved. -/
def quiesceCheck (target : Nat) (s : State) (d : Desc) : Option Nat :=
  if s.isFallow then some stNotPermitted
  else if !quiesceForm target d || target > 2 then some stBad
  else if target ≠ 0 && d.fn ≠ 0 then some stNotPermitted
  else none

/-- What a QUIESCE or RESUME does: it acts at the next boundary, and completes; with TARGET 2 it goes to the peer and
completes when the peer has acknowledged. -/
def quiesceBody (target : Nat) (on : Bool) (s : State) (d : Desc) : State :=
  match target with
  | 0 => (s.setQuiesce d.fn on).endWith d stOk
  | 1 => (s.functions.foldl (fun s f => s.setQuiesce f on) s).endWith d stOk
  | _ =>
    let peer := field (d.w 3) 0 32
    let func := field (d.w 1) 0 12
    let n := Config.planConn 7 peer
    let up := match s.conn n with | some c => c.sys && c.tc == 7 && c.state == .open_ | none => false
    let s1 := s.sendPlan 7 peer (wordsBytes [word [(32, 32, func), (0, 1, flag on)], 0, 0, 0, 0, 0, 0, 0])
    let psn := match s1.conn n with | some c => (c.nextPsn + 2 ^ 24 - 1) % 2 ^ 24 | none => 0
    let q : RemoteQuiesce :=
      { fn := d.fn, ring := d.ring, seq := d.seq, peer := peer, func := func, quiesce := on, conn := n, psn := psn
        failed := !up }
    { s1 with host := { s1.host with remoteQuiesce := s1.host.remoteQuiesce ++ [q] } }

/-- Remote quiesces at the start of the egress window: acknowledged ones complete, and one that its connection has given
up on completes PARTIAL with QUIESCE_PARTIAL (R379). -/
def State.settleQuiesces (s : State) : State :=
  let out (q : RemoteQuiesce) : Bool :=
    !q.failed && match s.conn q.conn with | some c => c.sent.any fun k => k.psn == q.psn | none => false
  let one (s : State) (q : RemoteQuiesce) : State :=
    if q.failed then
      let s1 := s.finish q.fn q.ring q.seq { status := stOk, flags := fPartial, result := 0 } []
      s1.raise .quiescePartial q.fn q.peer q.seq.toNat 0
    else s.finish q.fn q.ring q.seq { status := stOk, flags := 0, result := 0 } []
  let s1 := (s.host.remoteQuiesce.filter fun q => !out q).foldl one s
  { s1 with host := { s1.host with remoteQuiesce := s.host.remoteQuiesce.filter out } }

/-- QUIESCE_MESSAGE (R379): a peer's quiesce, or its end, of a function acts at the next boundary, and is acknowledged
there. -/
def execQuiesceMessage (sender func : Nat) (quiesce : Bool) (s : State) : Host.Outcome State Fault Refusal :=
  if s.fabricOn then
    let s1 := s.setQuiesce func quiesce
    .next { s1 with host := { s1.host with quiesceAcks := s1.host.quiesceAcks ++ [sender] } }
  else .next s

/-- QUIESCE with TARGET 0. -/
def execQuiesceOwn (d : Desc) (s : State) : Host.Outcome State Fault Refusal :=
  .next (s.runDesc d 0x09 (quiesceCheck 0) oneSlot (quiesceBody 0 true))

/-- QUIESCE with TARGET 1. -/
def execQuiesceAll (d : Desc) (s : State) : Host.Outcome State Fault Refusal :=
  .next (s.runDesc d 0x09 (quiesceCheck 1) oneSlot (quiesceBody 1 true))

/-- QUIESCE with TARGET 2. -/
def execQuiesceRemote (d : Desc) (s : State) : Host.Outcome State Fault Refusal :=
  .next (s.runDesc d 0x09 (quiesceCheck 2) oneSlot (quiesceBody 2 true))

/-- RESUME, with the target that its descriptor names. -/
def execResume (d : Desc) (s : State) : Host.Outcome State Fault Refusal :=
  let target := field (d.w 1) 32 2
  .next (s.runDesc d 0x0A (quiesceCheck target) oneSlot (quiesceBody target false))

end Sys2Proof.Machine
end

