-- ==== Sys2Proof/Machine/Sheaf.lean ====
section
/-! DEFINITION. Sheaves: header, kinds, lengths, the integrity check of Table TI-5 and byte-plane compression
(06 R155–R167). -/

namespace Sys2Proof.Machine

/-! ### Header (Table TI-3) -/

/-- A sheaf header. -/
structure SheafHdr where
  magic : Nat
  kind : Nat
  fmt : Nat
  smode : Nat
  comp : Nat
  blockLen : Nat
  live : Bool
  /-- every reserved bit is 0 -/
  clean : Bool
  plen : Nat
  sscale : Word32
  rows : Nat
  stored : Nat
  rowLen : Nat
  obj : Nat
  fn : Nat
  part : Nat
  gen : Nat
  seq : Nat
  crc : Nat
  tick : Word64
  hcrc : Nat
  deriving DecidableEq, Repr

/-- The header that 64 bytes hold. -/
def shOf (b : List Byte) : SheafHdr :=
  let w (i : Nat) : Nat := wordAt b (8 * i)
  { magic := field (w 0) 48 16, kind := field (w 0) 40 8, fmt := field (w 0) 32 8, smode := field (w 0) 30 2
    comp := field (w 0) 28 2, blockLen := field (w 0) 21 7, live := (w 0).testBit 20
    clean := field (w 0) 11 9 == 0 && field (w 3) 32 4 == 0 && field (w 5) 32 32 == 0 && field (w 7) 32 32 == 0
    plen := field (w 0) 0 11, sscale := BitVec.ofNat 32 (field (w 1) 32 32), rows := field (w 1) 0 32
    stored := field (w 2) 32 32, rowLen := field (w 2) 0 32, obj := field (w 3) 48 16, fn := field (w 3) 36 12
    part := field (w 3) 0 32, gen := field (w 4) 32 32, seq := field (w 4) 0 32, crc := field (w 5) 0 32
    tick := BitVec.ofNat 64 (w 6), hcrc := field (w 7) 0 32 }

/-- The 64 bytes of a header, HDR_CRC computed over the bytes before it (R156). -/
def shBytes (h : SheafHdr) : List Byte :=
  let body := wordsBytes
    [word [(48, 16, h.magic), (40, 8, h.kind), (32, 8, h.fmt), (30, 2, h.smode), (28, 2, h.comp), (21, 7, h.blockLen),
        (20, 1, flag h.live), (0, 11, h.plen)],
      word [(32, 32, h.sscale.toNat), (0, 32, h.rows)], word [(32, 32, h.stored), (0, 32, h.rowLen)],
      word [(48, 16, h.obj), (36, 12, h.fn), (0, 32, h.part)], word [(32, 32, h.gen), (0, 32, h.seq)],
      word [(0, 32, h.crc)], h.tick]
  body ++ leBytes 8 (crc32c body)

/-! ### Kinds (Table TI-4) -/

/-- An arithmetic format of Table NF-1. -/
def arithFmt (f : Nat) : Bool := decide (1 ≤ f) && decide (f ≤ 7)

/-- Matrix layout. -/
def kindMatrix (k : Nat) : Bool := k == 0x07 || k == 0x08 || k == 0x09 || k == 0x0A || k == 0x0B || k == 0x0F

/-- FORMAT values of a kind. -/
def kindFmt (k f : Nat) : Bool :=
  match k with
  | 0x07 | 0x08 | 0x0A | 0x0B => arithFmt f
  | 0x09 => f == 3 || f == 4 || f == 5 || f == 6
  | 0x0C => f == 6
  | 0x0F => knownFmt f
  | _ => f == 8

/-- SCALE_MODE values of a kind and format (R158). -/
def kindScale (k f m : Nat) : Bool :=
  if kindMatrix k && scaledFmt f then m == 1 || m == 2 || (k == 0x0F && m == 0) else m == 0

/-- ROW_LEN values of a kind; the rows of other kinds have any length in range. -/
def kindRow (k n : Nat) : Bool :=
  match k with
  | 0x01 | 0x05 => decide (16 ≤ n) && decide (n ≤ 64) && n % 8 == 0
  | 0x02 | 0x06 => n == 8
  | 0x04 => n == 64
  | 0x03 | 0x0C | 0x0E => n == 1
  | _ => true

/-- Tiers that may hold a kind. -/
def kindTier (k t : Nat) : Bool :=
  match k with
  | 0x01 | 0x02 | 0x03 | 0x05 | 0x06 | 0x07 | 0x08 | 0x0A | 0x0B | 0x0F => t == 0 || t == 1 || t == 3
  | 0x04 | 0x0E => t == 1 || t == 3
  | 0x09 => t == 1 || t == 2 || t == 3
  | 0x0C => true
  | 0x0D => t == 1 || t == 2
  | _ => false

/-- Kinds that may be LIVE in T1. -/
def kindLive (k : Nat) : Bool := k == 3 || k == 4 || k == 5 || k == 6 || k == 0x0A || k == 0x0C

/-- Data bytes of a sheaf (R159). -/
def dataBytes (h : SheafHdr) : Nat :=
  let w := if h.kind = 3 then 1 else fmtBits h.fmt
  if kindMatrix h.kind then
    h.rows * (ceilDiv (ceilDiv (h.rowLen * w) 8) 64 * 64) + (if h.smode = 2 then ceilDiv h.rows 64 * 64 else 0)
  else ceilDiv (h.rows * h.rowLen * w) 8

/-- Length of the block directory with BYTE_PLANE (R165). -/
def dirBytes (h : SheafHdr) : Nat :=
  if h.blockLen = 0 then 0 else ceilDiv (ceilDiv h.plen h.blockLen * 8) 64 * 64

/-- A directory entry: BLOCK_CRC, CODED, reserved bits clear, STORED. -/
def dirEntry (sp : List Byte) (i : Nat) : Nat × Bool × Bool × Nat :=
  let w := natAt sp (8 * i) 8
  (field w 32 32, w.testBit 31, field w 13 18 == 0, field w 0 13)

/-! ### Byte-plane blocks (R165–R167, Table TI-8) -/

/-- High symbol and low nibble of a byte (R166). -/
def bpHigh (b : Nat) : Nat := b / 8 % 16
def bpLow (b : Nat) : Nat := b / 16 / 8 * 8 + b % 8
/-- The byte of a symbol and a low nibble. -/
def bpByte (h l : Nat) : Nat := l / 8 * 128 + h * 8 + l % 8

/-- The code of a rank: value and bits. -/
def rankCode (r : Nat) : Nat × Nat :=
  match r with
  | 0 => (0, 2) | 1 => (1, 2) | 2 => (4, 3) | 3 => (5, 3) | 4 => (12, 4) | 5 => (13, 4) | 6 => (28, 5) | 7 => (29, 5)
  | r => (0xF0 + (r - 8), 8)

/-- Symbols by descending count, ties to the lower symbol (R167). -/
def bpRanks (syms : List Nat) : List Nat :=
  let cnt (v : Nat) : Nat := syms.count v
  let ins (l : List Nat) (v : Nat) : List Nat := l.takeWhile (fun u => decide (cnt v ≤ cnt u)) ++
    v :: l.dropWhile (fun u => decide (cnt v ≤ cnt u))
  (List.range 16).foldl ins []

/-- Nibbles packed, low nibble first. -/
def packNibbles : List Nat → List Byte
  | a :: b :: r => BitVec.ofNat 8 (a + 16 * b) :: packNibbles r
  | [a] => [BitVec.ofNat 8 a]
  | [] => []

/-- Nibble j of bytes. -/
def nibbleAt (bs : List Byte) (j : Nat) : Nat := (bs.getD (j / 2) 0).toNat / (if j % 2 = 1 then 16 else 1) % 16

/-- Bits packed from bit 7 of each byte downwards, padded with 0. -/
def packMsb : Nat → List Bool → List Byte
  | 0, _ => []
  | _ + 1, [] => []
  | n + 1, bits =>
    let b := bits.take 8
    BitVec.ofNat 8 ((List.range 8).foldl (fun a i => a * 2 + flag (b.getD i false)) 0) :: packMsb n (bits.drop 8)

/-- The bits of bytes, highest of each first. -/
def bitsOf (bs : List Byte) : List Bool := bs.flatMap fun b => (List.range 8).map fun i => b.toNat.testBit (7 - i)

/-- The stored form of a block, and whether it is coded (R167). -/
def bpEncode (blk : List Byte) : List Byte × Bool :=
  let ns := blk.map (·.toNat)
  let syms := ns.map bpHigh
  let ranks := bpRanks syms
  let code (v : Nat) : Nat × Nat := rankCode (ranks.idxOf v)
  let bits := syms.flatMap fun v => bitsMsb (code v).1 0 (code v).2
  let stream := packMsb (bits.length / 8 + 1) bits
  if 8 + blk.length / 2 + ceilDiv bits.length 8 < blk.length then
    (packNibbles ranks ++ packNibbles (ns.map bpLow) ++ stream, true)
  else (blk, false)

/-- Decode the ranks of n symbols from a code stream; none where the stream fails. The bits that are left come back. -/
def bpStream : Nat → List Bool → Option (List Nat × List Bool)
  | 0, bits => some ([], bits)
  | n + 1, bits =>
    let next (r : Nat) (rest : List Bool) : Option (List Nat × List Bool) :=
      (bpStream n rest).map fun p => (r :: p.1, p.2)
    match bits with
    | false :: false :: r => next 0 r
    | false :: true :: r => next 1 r
    | true :: false :: b :: r => next (2 + flag b) r
    | true :: true :: false :: b :: r => next (4 + flag b) r
    | true :: true :: true :: false :: b :: r => next (6 + flag b) r
    | true :: true :: true :: true :: false :: a :: b :: c :: r => next (8 + 4 * flag a + 2 * flag b + flag c) r
    | _ => none

/-- The block of n bytes that a stored form holds; none where decoding fails (R167). -/
def bpDecode (n : Nat) (coded : Bool) (st : List Byte) : Option (List Byte) :=
  if !coded then (if st.length = n then some st else none)
  else
    let ranks := (List.range 16).map fun i => nibbleAt st i
    if !((List.range 16).all fun v => ranks.contains v) then none
    else
      let low := (st.drop 8).take (n / 2)
      match bpStream n (bitsOf (st.drop (8 + n / 2))) with
      | none => none
      | some (rs, rest) =>
        if rest.length < 8 && rest.all (· == false) && st.length ≥ 8 + n / 2 then
          some (rs.zipIdx.map fun (r, j) => BitVec.ofNat 8 (bpByte (ranks.getD r 0) (nibbleAt low j)))
        else none

/-- The blocks of an uncompressed payload. -/
def bpBlocks (blockLen : Nat) (p : List Byte) : List (List Byte) :=
  chunksOf (64 * blockLen) (p.length / 64 + 1) p

/-- BLOCK_LEN that the node writes (R165): the row stride of VECTORS where it lies in 512–4,096 bytes, else 4,096. -/
def nodeBlockLen (h : SheafHdr) : Nat :=
  let st := stride64 (rowBytes h.fmt h.rowLen)
  if h.kind = 9 && decide (512 ≤ st) && decide (st ≤ 4096) then st / 64 else 64

/-- A sheaf compressed as the node does it: header and stored payload, padded to 64 bytes (R165, R167). -/
def bpSheaf (h : SheafHdr) (p : List Byte) : SheafHdr × List Byte :=
  let bl := nodeBlockLen h
  let enc := (bpBlocks bl p).map fun b => (b, bpEncode b)
  let dir := enc.flatMap fun (b, st, coded) =>
    leBytes 8 (word [(32, 32, crc32c b), (31, 1, flag coded), (0, 13, st.length)]).toNat
  let body := dir ++ List.replicate (ceilDiv dir.length 64 * 64 - dir.length) 0 ++ enc.flatMap fun e => e.2.1
  ({ h with comp := 1, blockLen := bl, stored := body.length },
    body ++ List.replicate (ceilDiv body.length 64 * 64 - body.length) 0)

/-- A header committed to a tier, uncompressed: PAYLOAD_CRC, COMMIT_TICK; a live sheaf keeps PAYLOAD_CRC 0 (R156,
R161). HDR_CRC is computed when the bytes are written. -/
def committed (h : SheafHdr) (p : List Byte) (tick : Word64) : SheafHdr :=
  { h with comp := 0, blockLen := 0, stored := p.length, crc := if h.live then 0 else crc32c p, tick := tick }

/-! ### The integrity check (Table TI-5) -/

/-- Step 1. -/
def sheafStep1 (b : List Byte) : Bool :=
  let h := shOf b
  h.magic == 0x5346 && h.hcrc == crc32c (b.take 56) && h.clean

/-- Step 2, for the tier that the sheaf comes from. -/
def sheafStep2 (h : SheafHdr) (tier : Nat) : Bool :=
  decide (1 ≤ h.kind) && decide (h.kind ≤ 0x0F) && kindFmt h.kind h.fmt && kindScale h.kind h.fmt h.smode &&
    (h.smode == 2 || h.sscale == 0) && kindTier h.kind tier && decide (h.comp ≤ 1) &&
    (if h.comp = 1 then decide (8 ≤ h.blockLen) && decide (h.blockLen ≤ 64) && (tier == 2 || tier == 3)
     else h.blockLen == 0 && !(tier == 2 && h.kind == 9)) &&
    (!h.live || (kindLive h.kind && tier == 1 && h.crc == 0))

/-- Step 3. `sp` is the stored payload. -/
def sheafStep3 (h : SheafHdr) (sp : List Byte) : Bool :=
  decide (1 ≤ h.rows) && decide (h.rows ≤ 524288) && decide (1 ≤ h.rowLen) && decide (h.rowLen ≤ 131072) &&
    kindRow h.kind h.rowLen && decide (64 ≤ h.plen) && decide (h.plen ≤ 1024) &&
    h.plen * 64 == payloadOf (dataBytes h) &&
    (if h.comp = 0 then h.stored == h.plen * 64
     else
       let n := ceilDiv h.plen h.blockLen
       h.stored == dirBytes h + ((List.range n).map fun i => (dirEntry sp i).2.2.2).sum)

/-- The payload that a stored payload decodes to (step 5); none where a block fails. -/
def sheafDecode (h : SheafHdr) (sp : List Byte) : Option (List Byte) :=
  if h.comp = 0 then some (bytesAt sp 0 (h.plen * 64))
  else
    let n := ceilDiv h.plen h.blockLen
    let one (acc : Option (List Byte × Nat)) (i : Nat) : Option (List Byte × Nat) :=
      match acc with
      | none => none
      | some (got, off) =>
        let (crc, coded, clear, st) := dirEntry sp i
        let len := min (64 * h.blockLen) (64 * h.plen - 64 * h.blockLen * i)
        match bpDecode len coded (bytesAt sp off st) with
        | some b => if clear && decide (1 ≤ st) && crc32c b == crc then some (got ++ b, off + st) else none
        | none => none
    ((List.range n).foldl one (some ([], dirBytes h))).map (·.1)

/-- The binding that a landing's header must match (step 4). -/
structure Binding where
  kind : Nat
  fn : Nat
  /-- object, part, generation, sequence, for a LIST binding -/
  list : Option (Nat × Nat × Nat × Nat)
  deriving DecidableEq, Repr

/-- Step 4. -/
def sheafStep4 (h : SheafHdr) (b : Binding) : Bool :=
  h.kind == b.kind && h.fn == b.fn &&
    (match b.list with
     | none => true
     | some (o, p, g, q) => h.obj == o && h.part == p && h.gen == g && h.seq == q)

/-- The whole check: the payload where the sheaf passes, or the failing step of Table TI-5. -/
def sheafCheck (hb sp : List Byte) (tier : Nat) (b : Binding) : Except Nat (List Byte) :=
  let h := shOf hb
  if !sheafStep1 hb then .error 1
  else if !sheafStep2 h tier then .error 2
  else if !sheafStep3 h sp then .error 3
  else if !sheafStep4 h b then .error 4
  else
    match sheafDecode h sp with
    | none => .error 5
    | some p => if !h.live && crc32c p != h.crc then .error 6 else .ok p

/-- A SCALE sheaf and a data sheaf that it covers (R80, R158): generation, tier and LIVE agree. -/
def scalePair (sc d : SheafHdr) (tierS tierD : Nat) : Bool := sc.gen == d.gen && tierS == tierD && sc.live == d.live

end Sys2Proof.Machine
end

