-- ==== Sys2Proof/Machine/Watch.lean ====
section
/-! DEFINITION. The tensor watch: its descriptor, arming, firing, digests and dumps (18 R464–R467). -/

namespace Sys2Proof.Machine

/-! ### Tensors (Table OB-9, R466) -/

/-- A produced tensor: each row's stored bytes, the bytes of its scale as the digest takes them, the element values, and
what its TENSOR sheaves carry. -/
structure Tensor where
  rows : List (List Byte)
  scales : List (List Byte)
  vals : List Word32
  fmt : Nat
  rowLen : Nat
  smode : Nat
  obj : Nat
  first : Nat
  deriving DecidableEq, Repr

/-- CRC-64/ECMA-182 (R466). -/
def crc64 (bs : List Byte) : Nat :=
  (bs.flatMap fun b => bitsMsb b.toNat 0 8).foldl (crcBit 64 0x42F0E1EBA9EA3693) 0

/-- Rows with their scales. -/
def Tensor.pairs (t : Tensor) : List (List Byte × List Byte) :=
  t.rows.zipIdx.map fun (r, i) => (r, t.scales.getD i [])

/-- The stored bytes that the CRC covers. -/
def Tensor.stored (t : Tensor) : List Byte := t.pairs.flatMap fun p => p.1 ++ p.2

/-- The earliest of the values that come first in an order of sortable keys; canonical NaN where there is none. -/
def extreme (before : Nat → Nat → Bool) : List Word32 → Word32
  | [] => f32Nan
  | x :: r => r.foldl (fun a b => if before (sortable b) (sortable a) then b else a) x

/-! ### DUMP sheaves (R467) -/

/-- Rows of a tensor that share a sheaf: rows of one sheaf scale, as many as a payload holds. -/
def Tensor.groups (t : Tensor) : List (List (List Byte × List Byte)) :=
  let nested := t.smode == 2
  let per := max 1 (rowsPerSheaf nested (stride64 (rowBytes t.fmt t.rowLen)))
  let runs := if nested then t.pairs.splitBy fun a b => a.2.drop 1 == b.2.drop 1 else [t.pairs]
  runs.flatMap fun r => chunksOf per (r.length / per + 1) r

/-- A sheaf of a DUMP: header and payload compressed and ready to be written. -/
def dumpSheaf (f : Nat) (t : Tensor) (kind fmt smode rowLen part rows : Nat) (sscale : Word32) (tick : Word64)
    (data : List Byte) : List Byte :=
  let pay := data ++ List.replicate (payloadOf data.length - data.length) 0
  let h : SheafHdr :=
    { magic := 0x5346, kind := kind, fmt := fmt, smode := smode, comp := 0, blockLen := 0, live := false, clean := true
      plen := pay.length / 64, sscale := sscale, rows := rows, stored := pay.length, rowLen := rowLen, obj := t.obj
      fn := f, part := part, gen := 0, seq := 0, crc := crc32c pay, tick := tick, hcrc := 0 }
  let c := bpSheaf h pay
  shBytes c.1 ++ c.2

/-- The sheaves that a DUMP of a tensor writes, in order: a SCALE sheaf before each data sheaf under SIDE. -/
def Tensor.sheaves (t : Tensor) (f : Nat) (tick : Word64) : List (List Byte) :=
  let one (acc : List (List Byte) × Nat) (g : List (List Byte × List Byte)) : List (List Byte) × Nat :=
    let st := stride64 (rowBytes t.fmt t.rowLen)
    let part := t.first + acc.2
    let rows := g.flatMap fun p => bytesAt p.1 0 st
    let codes := g.map fun p => p.2.getD 0 0
    let lead := if t.smode = 2 then codes ++ List.replicate (ceilDiv g.length 64 * 64 - g.length) 0 else []
    let ss := if t.smode = 2 then BitVec.ofNat 32 (natAt ((g.head?.map (·.2)).getD []) 1 4) else 0
    let data := dumpSheaf f t 0x0F t.fmt t.smode t.rowLen part g.length ss tick (lead ++ rows)
    let side := if t.smode = 1 then
        [dumpSheaf f t 0x0C 6 0 1 part g.length 0 tick (g.flatMap fun p => bytesAt p.2 0 2)] else []
    (acc.1 ++ side ++ [data], acc.2 + g.length)
  (t.groups.foldl one ([], 0)).1

/-- The whole sheaves that fit in a number of bytes. -/
def fitSheaves (room : Nat) : List (List Byte) → List Byte
  | [] => []
  | b :: r => if b.length ≤ room then b ++ fitSheaves (room - b.length) r else []

/-! ### Watches (R464, R465) -/

/-- The staging allowance of a function's dumps. -/
def State.dumpRoom (s : State) (f : Nat) : Nat :=
  4096 * (match s.compEntry f with | some e => entTiles e | none => 0)

/-- What is staged now. -/
def State.dumpStaged (s : State) (f : Nat) : Nat :=
  ((s.obs.watches.filter fun w => w.fn == f).map fun w => (w.dumping.getD []).length).sum

/-- Fields of a WATCH descriptor (Table OB-8). -/
def waForm (d : Desc) : Nat := field (d.w 1) 46 2
def waTick (d : Desc) : Bool := (d.w 1).testBit 45
def waRing (d : Desc) : Nat := field (d.w 1) 42 3
def waTensor (d : Desc) : Nat := field (d.w 1) 32 8
def waObject (d : Desc) : Nat := field (d.w 1) 16 16

/-- Bytes of a stored tensor. -/
def State.storedSize (s : State) (f tensor obj count : Nat) : Nat :=
  if tensor = 0x10 then
    match s.tableDef f obj with | some t => count * rowBytes t.fmt t.elems | none => 0
  else match s.index f obj with | some x => count * x.code | none => 0

/-- The form of a WATCH. -/
def watchForm (s : State) (d : Desc) : Bool :=
  let step := !waTick d
  let t := waTensor d
  let dump := waForm d == 1
  let ahead := (BitVec.ofNat 64 (d.w 2) - d.seq).toNat
  d.cls == 0 && decide (waForm d ≤ 1) &&
    (if step then decide (1 ≤ t) && decide (t ≤ 6) else t == 0x10 || t == 0x11) &&
    d.w 4 % 64 == 0 && d.w 5 % 64 == 0 &&
    (if step then decide (1 ≤ waRing d) && decide (1 ≤ ahead) && decide (ahead ≤ 65536) && waObject d == 0 && d.w 3 == 0
     else waRing d == 0 && decide (d.w 2 ≤ s.tick.count.toNat + 1048576) && decide (1 ≤ field (d.w 3) 0 32)) &&
    (dump || (d.w 5 == 0 && field (d.w 6) 32 32 == 0)) && zeros d [(1, 40, 2), (1, 0, 16), (6, 0, 32), (7, 0, 64)]

/-- The checks of R464. -/
def watchCheck (s : State) (d : Desc) : Option Nat :=
  let dump := waForm d == 1
  let mine := s.obs.watches.filter fun w => w.fn == d.fn
  let tiles := match s.compEntry d.fn with | some e => entTiles e | none => 0
  if !watchForm s d then some stBad
  else if decide (mine.length ≥ 64) || decide (s.obs.watches.length ≥ 1024) then some stOverQuota
  else if dump && tiles < 1024 then some stNotPermitted
  else if waTick d && waTensor d = 0x10 && (s.liveTable d.fn (waObject d)).isNone then some stNoTable
  else if waTick d && waTensor d = 0x11 && (s.liveIndex d.fn (waObject d)).isNone then some stNoIndex
  else if waTick d && s.storedSize d.fn (waTensor d) (waObject d) (field (d.w 3) 0 32) >
      (if dump then s.dumpRoom d.fn else 16777216) then some stOverQuota
  else none

/-- A WATCH is admitted; it is armed at the next boundary. -/
def watchBody (s : State) (d : Desc) : State :=
  let w : Watch :=
    { fn := d.fn, ring := d.ring, seq := d.seq, armed := false, dump := waForm d == 1, atTick := waTick d, tRing := waRing d
      tensor := waTensor d, object := waObject d, target := BitVec.ofNat 64 (d.w 2), first := field (d.w 3) 32 32
      count := field (d.w 3) 0 32, raddr := d.w 4, daddr := d.w 5, dlen := field (d.w 6) 32 32, dumping := none }
  { s with obs := { s.obs with watches := s.obs.watches ++ [w] } }

/-- WATCH (R464). -/
def execWatch (d : Desc) (s : State) : Host.Outcome State Fault Refusal :=
  .next (s.runDesc d 0x30 watchCheck oneSlot watchBody)

/-- A watch leaves. -/
def State.dropWatch (s : State) (w : Watch) : State :=
  { s with obs := { s.obs with watches := s.obs.watches.erase w } }

/-- The 64 bytes of a watch result (Table OB-10). -/
def watchBytes (w : Watch) (tick : Word64) (mn mx sum : Word32) (nans crc elems bytes flags : Nat) : List Byte :=
  wordsBytes [w.seq, tick, word [(32, 32, mn.toNat), (0, 32, mx.toNat)],
    word [(32, 32, sum.toNat), (0, 32, min nans 0xFFFFFFFF)], BitVec.ofNat 64 crc, BitVec.ofNat 64 elems,
    BitVec.ofNat 64 bytes, word [(8, 8, stOk), (0, 8, flags)]]

/-- A watch ends: its result, then its completion, whose RESULT is the tick of firing or 0. -/
def State.endWatch (s : State) (w : Watch) (tick : Word64) (flags : Nat) (bytes : Nat → List Byte) : State :=
  let late := match s.workAt w.fn w.ring w.seq with | some k => if k.late then fLate else 0 | none => 0
  (s.dropWatch w).finish w.fn w.ring w.seq { status := stOk, flags := flags, result := tick }
    [(w.raddr, bytes (flags ||| late))]

/-- A watch ends with no data (R465). -/
def State.watchNone (s : State) (w : Watch) : State :=
  s.endWatch w 0 fPartial fun fl => watchBytes w 0 0 0 0 0 0 0 0 fl

/-- A watch fires on its tensor: a DIGEST ends at once; a DUMP is staged, whole sheaves only. -/
def State.fireOne (s : State) (w : Watch) (t : Tensor) : State :=
  let s1 := s.total 20 1
  let now := s.tick.count
  if w.dump then
    let all := t.sheaves w.fn now
    let room := min (64 * w.dlen) (s1.dumpRoom w.fn - s1.dumpStaged w.fn)
    let out := fitSheaves room all
    let cut := decide (out.length < (all.map List.length).sum)
    let w2 := { w with dumping := some out, target := now, count := t.vals.length, first := flag cut }
    { s1 with obs := { s1.obs with watches := s1.obs.watches.map fun x => if x == w then w2 else x } }
  else
    let real := t.vals.filter fun v => !f32IsNan v
    let mn := extreme (fun a b => decide (a < b)) real
    let mx := extreme (fun a b => decide (b < a)) real
    let sum := (flSum (real.map fl)).v
    s1.endWatch w now 0 fun fl =>
      watchBytes w now mn mx sum (countNan t.vals) (crc64 t.stored) t.vals.length 0 fl

/-- The armed STEP watches of a tensor of a descriptor fire. -/
def State.fireStep (s : State) (f r : Nat) (q : Word64) (tensor : Nat) (t : Tensor) : State :=
  (s.obs.watches.filter fun w => w.armed && !w.atTick && w.dumping.isNone && w.fn == f && w.tRing == r && w.target == q &&
    w.tensor == tensor).foldl (fun s w => s.fireOne w t) s

/-- Rows of this owner's table as a watch of kind 0x10 reads them. -/
def State.rowsTensor (s : State) (t : TableDef) (first n tick : Nat) : Tensor :=
  let js := (List.range n).map fun i => first + i
  let had := js.filter fun j => match t.self with | some o => decide (rowOfLocal t o j < t.rows) | none => false
  let at_ := had.map fun j => (j, s.rowAt t tick j)
  let vals (e : Nat × List Byte × Word32 × Bool) : List Word32 :=
    let v := rowF32 t.fmt t.elems e.2.1
    if scaledFmt t.fmt then v.map fun w => (flMul (fl w) (fl e.2.2.1)).v else v
  let scale (e : Nat × List Byte × Word32 × Bool) : List Byte :=
    if tSide t then leBytes 2 (memNat s.t1 (rowsSheaf t e.1 - 4096 + 2 * (e.1 % tRps t)) 2)
    else if tNested t then
      leBytes 1 (memNat s.t1 (rowsSheaf t e.1 + 64 + e.1 % tRps t) 1) ++ memReadBytes s.t1 (rowsSheaf t e.1 + 12) 4
    else []
  { rows := at_.map (·.2.1), scales := at_.map scale, vals := at_.flatMap vals, fmt := t.fmt, rowLen := t.elems
    smode := if scaledFmt t.fmt then t.scale else 0, obj := t.obj, first := first }

/-- Codes of a list as a watch of kind 0x11 reads them. -/
def State.codesTensor (s : State) (x : Index) (l n : Nat) : Tensor :=
  let h := s.listHdr x l
  let rows := (List.range (min n (h.len + h.dlen))).map (s.codeOf x h)
  { rows := rows, scales := [], vals := rows.flatMap fun r => r.map fun b => (flOfInt b.toNat).v, fmt := 8
    rowLen := x.code, smode := 0, obj := x.obj, first := 0 }

/-- The TICK watches of a tick fire in its guard phase, before the apply. -/
def State.fireTicks (s : State) : State :=
  let due := s.obs.watches.filter fun w => w.armed && w.atTick && w.dumping.isNone && w.target == s.tick.count
  due.foldl (fun s w =>
    if w.tensor = 0x10 then
      match s.tableDef w.fn w.object with
      | some t => s.fireOne w (s.rowsTensor t w.first w.count s.tick.count.toNat)
      | none => s.watchNone w
    else
      match s.index w.fn w.object with
      | some x => if w.first < listCount x then s.fireOne w (s.codesTensor x w.first w.count) else s.watchNone w
      | none => s.watchNone w) s

/-- Watches are armed at a boundary; a TICK target that has passed ends its watch. -/
def State.armWatches (s : State) : State :=
  let ws := s.obs.watches.map fun w => { w with armed := true }
  let s1 := { s with obs := { s.obs with watches := ws } }
  (ws.filter fun w => w.atTick && w.dumping.isNone && decide (w.target.toNat < s.tick.count.toNat)).foldl State.watchNone s1

/-- Whether the target of a STEP watch has ended without firing it. -/
def State.targetOver (s : State) (w : Watch) : Bool :=
  match s.workAt w.fn w.tRing w.target with
  | some k => k.done.isSome
  | none => (s.ring w.fn w.tRing).history.isSome && seqLe w.target (s.ring w.fn w.tRing).doneSeq

/-- The watches whose targets have ended without producing their tensors end (R465). -/
def State.settleWatches (s : State) : State :=
  (s.obs.watches.filter fun w => w.armed && !w.atTick && w.dumping.isNone && s.targetOver w).foldl State.watchNone s

/-- WATCH_DUMP_DONE (R467): the oldest staged dump has been written; its watch ends. A staged dump keeps the tick of
firing, the number of elements and whether it was cut short in the fields that its watch no longer needs. -/
def execWatchDumpDone (s : State) : Host.Outcome State Fault Refusal :=
  .next (match s.obs.watches.find? fun w => w.dumping.isSome with
    | none => s
    | some w =>
      let bytes := w.dumping.getD []
      (s.hostWrite w.daddr bytes).endWatch w w.target (if w.first = 1 then fPartial else 0) fun fl =>
        watchBytes w w.target 0 0 0 0 0 w.count bytes.length fl)

end Sys2Proof.Machine
end

