-- ==== Sys2Proof/Machine/Lookup.lean ====
section
/-! DEFINITION. Lookups: descriptors, invalid indices, the product-key search, weights, the exchange of rows and the
result (09 R229–R237, 02 R62). -/

namespace Sys2Proof.Machine

/-! ### The exponential (R232) -/

/-- Terms of the series of exp for t ÷ 2^p: term k is t^k ÷ k!. -/
def expTerms (p t : Nat) : Nat → Nat → Nat → Nat
  | 0, _, _ => 0
  | fuel + 1, k, term => term + expTerms p t fuel (k + 1) (term * t / 2 ^ p / (k + 1))

/-- Square n times in fixed point. -/
def sqrTimes (p : Nat) : Nat → Nat → Nat
  | 0, x => x
  | n + 1, x => sqrTimes p n (x * x / 2 ^ p)

/-- exp(x) correctly rounded to FP32, for x at or below 0 (R232): e^(−y) as 1 ÷ (e^(y ÷ 2^16))^(2^16), to 300 bits. -/
def flExp (a : Fl) : Fl :=
  match f32Val a.v with
  | .nan => { a with v := f32Nan }
  | .inf _ => { a with v := 0 }
  | .fin _ m e =>
    if m = 0 then { a with v := 0x3F800000#32 }
    else
      let y := if e ≥ 0 then m * 2 ^ (300 + e.toNat) else m * 2 ^ 300 / 2 ^ ((-e).toNat)
      if y ≥ 110 * 2 ^ 300 then { a with v := 0 }
      else
        let big := sqrTimes 300 16 (expTerms 300 (y / 2 ^ 16) 60 0 (2 ^ 300))
        let r := flRound false (2 ^ 600 / big) (-300) true 0
        { v := r.v, sat := a.sat + r.sat }

/-! ### Routing weights (R62) -/

/-- The weight of a node from the beacon last received from it, or, for this node itself, from the one it last sent. -/
def State.nodeWeight (s : State) (node : Nat) : Nat :=
  let of (flags : Nat) : Nat :=
    if flags.testBit 1 || flags.testBit 2 || flags.testBit 4 then 0 else if flags.testBit 3 then s.stragWeight else 256
  if node = s.nodeId then
    match s.tick.beaconOut with
    | w :: _ => of (field w.toNat 8 8)
    | [] => 0
  else
    match s.tick.peers.find? fun p => p.node == node with
    | some p => if p.age ≥ 2 then 0 else of p.flags
    | none => 0

/-- The weight of replica 0 after scaling: the two sum to 256, rounded down, the remainder to replica 0. -/
def scaledWeight (a b : Nat) : Nat := if a + b = 0 then 128 else 256 - b * 256 / (a + b)

/-- The replica that a row owner's domain is asked at (R235). -/
def State.lookReplica (s : State) (t : TableDef) (o tick : Nat) : Nat :=
  let n := t.nodes.getD o (0, 0)
  let h := crc32c (leBytes 4 s.nodeId ++ leBytes 4 tick ++ leBytes 1 o) % 256
  if h < scaledWeight (s.nodeWeight n.1) (s.nodeWeight n.2) then 0 else 1

/-- The node id of a replica of an owner. -/
def ownerNode (t : TableDef) (o r : Nat) : Nat := let n := t.nodes.getD o (0, 0); if r = 0 then n.1 else n.2

/-! ### Descriptors (R229, Table TU-2) -/

/-- Fields of a lookup descriptor. -/
def lkTable (d : Desc) : Nat := field (d.w 1) 32 16
def lkOfmt (d : Desc) : Nat := field (d.w 1) 24 8
def lkWmode (d : Desc) : Nat := field (d.w 1) 22 2
def lkK (d : Desc) : Nat := field (d.w 1) 12 6 + 1
def lkN (d : Desc) : Nat := field (d.w 1) 0 12 + 1
def lkQfmt (d : Desc) : Nat := field (d.w 5) 24 8

/-- The checks of R229, in order. -/
def lookupCheck (pk : Bool) (s : State) (d : Desc) : Option Nat :=
  let fmtOk (f : Nat) : Bool := decide (3 ≤ f) && decide (f ≤ 7)
  let form := (if pk then decide (2 ≤ lkWmode d) && fmtOk (lkQfmt d) && field (d.w 1) 0 12 == 0 && d.w 3 == 0
      else decide (lkWmode d ≤ 1) && lkQfmt d == 0 && field (d.w 1) 12 6 == 0 && (lkWmode d == 1 || d.w 3 == 0)) &&
    fmtOk (lkOfmt d) && decide (0x20 ≤ d.cls) && decide (d.cls ≤ 0x2E) && d.w 2 % 64 == 0 && d.w 3 % 64 == 0 &&
    d.w 4 % 64 == 0 && zeros d [(1, 18, 4), (5, 0, 24), (6, 0, 64), (7, 0, 64)]
  if !form then some stBad
  else
    match s.liveTable d.fn (lkTable d) with
    | none => some stNoTable
    | some t => if pk && !t.pkey then some stBad else if !s.hasSlots d.fn d.cls then some stNotPermitted else none

/-! ### Rows that a lookup names (R230) -/

/-- The drop counters of a table raised by a lookup's drops as it completes (R459). -/
def State.tableDrops (s : State) (f o : Nat) (ds : List Nat) : State :=
  match s.tableDef f o with
  | some t => s.setTable { t with drops := (t.drops.zip ds).map fun d => bump d.1 d.2 }
  | none => s

/-- Why the requester drops a row number in ingest, if it does; a row number is read as INT64. -/
def dropReason (t : TableDef) (x : Nat) : Option Nat :=
  if x ≥ 2 ^ 63 then some 0
  else if x ≥ t.rows || x = 0xFFFFFFFF then some 1
  else if (ownerOf t x).isNone then some 2 else none

/-- A row of a lookup with its drop or its owner. -/
def lookRow (t : TableDef) (x : Nat) (score : Word32) : LookRow :=
  match dropReason t x with
  | some _ => { row := x % 2 ^ 32, score := score, owner := none, st := .dropped }
  | none => { row := x, score := score, owner := (ownerOf t x).map (·.1), st := .wanted }

/-! ### The product-key search (R231) -/

/-- The sub-key of a row of the sub-key sequence: zeros with scale 0 until it is loaded. -/
def subkey (t : TableDef) (i : Nat) : FpRow :=
  (rowOf t.subkeys i).getD { row := i, bytes := List.replicate (rowBytes t.kfmt t.dims) 0, scale := 0 }

/-- A half of a query as it enters DIST: quantised to SK_FMT and dequantised (R84). -/
def queryHalf (kfmt : Nat) (x : List Word32) : List Word32 × Nat :=
  if scaledFmt kfmt then
    let (sc, q, c) := quantUnstored kfmt x
    (q.map fun w => (flMul (fl (elemF32 kfmt w)) (fl sc)).v, c.sat)
  else
    let rs := x.map fun w => convertTo kfmt (f32Val w)
    (rs.map fun r => elemF32 kfmt r.code, (rs.filter (·.sat)).length)

/-- A quantised query row as a watch takes it: stored bytes, unstored scale (R466). -/
def quantStored (fmt : Nat) (x : List Word32) : List Byte × List Byte :=
  if scaledFmt fmt then
    let (sc, q, _) := quantUnstored fmt x
    (packRow fmt q, leBytes 4 sc.toNat)
  else (packRow fmt (x.map fun w => (convertTo fmt (f32Val w)).code), [])

/-- Quantised query rows as the tensor QUERY_Q. -/
def queryTensor (fmt obj : Nat) (xs : List (List Word32)) : Tensor :=
  let st := xs.map (quantStored fmt)
  { rows := st.map (·.1), scales := st.map (·.2), vals := xs.flatMap fun x => (queryHalf fmt x).1, fmt := fmt
    rowLen := (xs.head?.getD []).length, smode := 0, obj := obj, first := 0 }

/-- The selected entries of a PKLOOKUP as the tensor PK_SELECT. -/
def pkTensor (obj : Nat) (es : List (Nat × Word32)) : Tensor :=
  { rows := es.map fun e => entryBytes [(sortable (flNeg (fl e.2)).v, e.1)], scales := [], vals := es.map (·.2), fmt := 8
    rowLen := 8, smode := 0, obj := obj, first := 0 }

/-- Keys of a half against a sub-key table: `n` keys from row `first` of the sequence. Entries, saturations. -/
def halfKeys (t : TableDef) (q : List Word32) (first n : Nat) : List KeyEntry × Nat :=
  let ks := (List.range n).map fun i =>
    let r := subkey t (first + i)
    (i, flNeg (exactIp q (FpRow.elems t.kfmt t.dims r) (FpRow.scaleOf t.kfmt r)))
  (ks.map fun (i, k) => (sortable k.v, i), (ks.map fun k => k.2.sat).sum)

/-- What the search selects: rows with their scores in selected order, whether a NaN key was met, saturations. -/
def pkSearch (t : TableDef) (qfmt k : Nat) (query : List Byte) : List (Nat × Word32) × Bool × Nat :=
  let x := rowF32 qfmt (2 * t.dims) query
  let (q1, s1) := queryHalf t.kfmt (x.take t.dims)
  let (q2, s2) := queryHalf t.kfmt (x.drop t.dims)
  let (e1, s3) := halfKeys t q1 0 t.keys1
  let (e2, s4) := halfKeys t q2 t.keys1 t.keys2
  let a := topEntries k e1
  let b := topEntries k e2
  let pairs := a.flatMap fun u => b.map fun v =>
    (flAdd (fl (unsortable u.1)) (fl (unsortable v.1)), (u.2 * t.keys2 + v.2) % 2 ^ 32)
  let es := pairs.map fun (f, i) => (sortable f.v, i)
  let nan := nanKeys e1 + nanKeys e2 + nanKeys es
  ((topEntries k es).map fun e => (e.2, (flNeg (fl (unsortable e.1))).v), decide (nan > 0),
    s1 + s2 + s3 + s4 + (pairs.map fun p => p.1.sat).sum)

/-! ### Starting a lookup (R234) -/

/-- Put a lookup back, or add it. -/
def State.setLookup (s : State) (l : Lookup) : State :=
  let same (x : Lookup) : Bool := x.fn == l.fn && x.ring == l.ring && x.seq == l.seq
  let ls := if s.tables.lookups.any same then s.tables.lookups.map fun x => if same x then l else x
    else s.tables.lookups ++ [l]
  { s with tables := { s.tables with lookups := ls } }

/-- The drops of ingest, by reason (Table TU-3). -/
def ingestDrops (t : TableDef) (xs : List Nat) : List Nat :=
  (List.range 4).map fun r => (xs.filter fun x => dropReason t x == some r).length

/-- A lookup of a table begins: GATHER reads its indices and weights, PKLOOKUP its query, which it searches with. -/
def lookupBody (pk : Bool) (s : State) (d : Desc) : State :=
  match s.tableDef d.fn (lkTable d) with
  | none => s.endWith d stNoTable
  | some t =>
    let n := if pk then lkK d else lkN d
    let found := if pk then
        pkSearch t (lkQfmt d) n (memReadBytes s.hostMem (d.w 2) (rowBytes (lkQfmt d) (2 * t.dims)))
      else
        ((List.range n).map fun i =>
          (memNat s.hostMem (d.w 2 + 8 * i) 8,
            if lkWmode d = 1 then BitVec.ofNat 32 (memNat s.hostMem (d.w 3 + 4 * i) 4) else 0x3F800000#32), false, 0)
    let rows := found.1.map fun x => lookRow t x.1 x.2
    let l : Lookup :=
      { fn := d.fn, ring := d.ring, seq := d.seq, cls := d.cls, table := lkTable d, pk := pk, ofmt := lkOfmt d
        wmode := lkWmode d, k := n, want := n, raddr := d.w 4, tag := BitVec.ofNat 32 (field (d.w 5) 32 32)
        tick := s.tick.count, rows := rows, dropped := (rows.filter fun r => r.st == .dropped).length, nan := found.2.1
        sats := found.2.2, drops := ingestDrops t (found.1.map (·.1)), spilled := false, asked := [], late := false }
    let s1 := s.setLookup l
    if pk then
      let x := rowF32 (lkQfmt d) (2 * t.dims) (memReadBytes s.hostMem (d.w 2) (rowBytes (lkQfmt d) (2 * t.dims)))
      (s1.fireStep d.fn d.ring d.seq 1 (queryTensor t.kfmt (lkTable d) [x.take t.dims, x.drop t.dims])).fireStep
        d.fn d.ring d.seq 5 (pkTensor (lkTable d) found.1)
    else s1

/-- GATHER (R229). -/
def execGather (d : Desc) (s : State) : Host.Outcome State Fault Refusal :=
  .next (s.runDesc d 0x25 (lookupCheck false) oneSlot (lookupBody false))

/-- PKLOOKUP (R229). -/
def execPklookup (d : Desc) (s : State) : Host.Outcome State Fault Refusal :=
  .next (s.runDesc d 0x26 (lookupCheck true) oneSlot (lookupBody true))

/-! ### Serving rows (R227, R237, R242) -/

/-- A table's generation in the state of a tick. -/
def genAt (t : TableDef) (snap : Nat) : Word32 :=
  match t.gens.find? fun g => decide (snap ≤ g.1.toNat) with
  | some g => g.2
  | none => t.gen

/-- A row that this node owns, as a tick's table state has it. -/
def State.ownRow (s : State) (t : TableDef) (snap j : Nat) : RowState :=
  let (b, sc, dead) := s.rowAt t snap j
  if dead then .dead else .placed b sc (genAt t snap)

/-- A row that came in joins its lookup; a dead row, and one that its owner does not own, is a drop. -/
def State.placeRow (s : State) (l : Lookup) (i : Nat) (st : RowState) : State :=
  let rows := l.rows.modify i fun r => { r with st := st }
  match st with
  | .dead => s.setLookup { l with rows := rows, dropped := l.dropped + 1, drops := l.drops.modify 3 (· + 1) }
  | .dropped => s.setLookup { l with rows := rows, dropped := l.dropped + 1, drops := l.drops.modify 2 (· + 1) }
  | _ => s.setLookup { l with rows := rows }

/-- The rows of a lookup that this node owns are gathered. -/
def State.gatherOwn (s : State) (l : Lookup) (t : TableDef) : State :=
  let one (s : State) (i : Nat) : State :=
    match s.tables.lookups.find? fun x => x.fn == l.fn && x.ring == l.ring && x.seq == l.seq with
    | none => s
    | some x =>
      let r := x.rows.getD i { row := 0, score := 0, owner := none, st := .dropped }
      if r.st = .wanted && r.owner.isSome && r.owner = t.self then
        match ownerOf t r.row with
        | some (_, j) => s.placeRow x i (s.ownRow t l.tick.toNat j)
        | none => s
      else s
  (List.range l.rows.length).foldl one s

/-! ### Weights and the result (R232, R237, Tables TU-4, TU-8) -/

/-- The rows that are reduced: elements, score, scale, generation. -/
def usedRows (t : TableDef) (l : Lookup) : List (Nat × List Word32 × Word32 × Option Word32 × Word32) :=
  l.rows.zipIdx.filterMap fun (r, i) =>
    match r.st with
    | .placed b sc g =>
      some (i, rowF32 t.fmt t.elems b, r.score, if scaledFmt t.fmt then some sc else none, g)
    | _ => none

/-- The weights of the remaining rows, by WMODE. -/
def lookWeights (wmode : Nat) (scores : List Word32) : List Fl :=
  if wmode = 3 then
    let real := scores.filter fun x => !f32IsNan x
    let m := match real with
      | [] => f32Nan
      | x :: r => r.foldl (fun a b => if sortable a < sortable b then b else a) x
    let e := scores.map fun x => flExp (flSub (fl x) (fl m))
    let z := flSum e
    e.map fun x => flDiv x z
  else scores.map fl

/-- The lower and the higher of generations by serial comparison. -/
def genLow (a b : Word32) : Word32 := if (b - a).toNat < 2 ^ 31 then a else b
def genHigh (a b : Word32) : Word32 := if (b - a).toNat < 2 ^ 31 then b else a

/-- EFLAGS of a PKLOOKUP entry. -/
def lookEflags (r : LookRow) : Nat :=
  (match r.st with | .dead | .dropped => 1 | .missing => 2 | _ => 0) + (if f32IsNan r.score then 4 else 0)

/-- The end of a lookup: its weights, its reduce, its result and its completion. -/
def State.endLookup (s : State) (l : Lookup) (t : TableDef) : State :=
  let used := usedRows t l
  let ws := lookWeights l.wmode (used.map fun u => u.2.2.1)
  let terms := (used.zip ws).map fun (u, w) => (u.2.1, w.v, u.2.2.2.1)
  let out := weightedReduce t.elems terms
  let (codes, c) := convRow l.ofmt out
  let missing := (l.rows.filter fun r => r.st == .missing).length
  let sats := l.sats + c.sat + factorSats terms + (ws.map (·.sat)).sum
  let flags := (if l.dropped > 0 then fInvalid else 0) + (if missing > 0 then fPartial else 0) +
    (if l.nan then fNanSeen else 0) + (if sats > 0 then fSaturated else 0)
  let shown := flags ||| (match s.workAt l.fn l.ring l.seq with | some w => if w.late then fLate else 0 | none => 0)
  let gens := used.map fun u => u.2.2.2.2
  let lo := match gens with | [] => BitVec.ofNat 32 (s.freshAt 0).toNat | g :: r => r.foldl genLow g
  let hi := match gens with | [] => BitVec.ofNat 32 (s.freshAt 1).toNat | g :: r => r.foldl genHigh g
  let hdr := wordsBytes [l.seq, word [(32, 32, l.tag.toNat), (20, 12, l.fn), (0, 16, l.table)],
    word [(32, 32, lo.toNat), (0, 32, hi.toNat)],
    word [(48, 16, l.want), (32, 16, used.length), (16, 16, l.dropped), (0, 16, missing)], l.tick, 0, 0,
    word [(8, 8, stOk), (0, 8, shown)]]
  let row := packRow l.ofmt codes
  let body := row ++ List.replicate (ceilDiv row.length 64 * 64 - row.length) 0
  let wOf (i : Nat) : Word32 := match (used.zip ws).find? fun z => z.1.1 == i with | some z => z.2.v | none => 0
  let entry (i : Nat) : List Byte :=
    match l.rows[i]? with
    | some r => wordsBytes [word [(32, 32, r.score.toNat), (0, 32, r.row)], word [(32, 32, (wOf i).toNat), (0, 8, lookEflags r)]]
    | none => wordsBytes [word [(32, 32, 0x7FC00000), (0, 32, 0xFFFFFFFF)], 0]
  let entries := if l.pk then (List.range l.k).flatMap entry else []
  let s0 := s.tableDrops l.fn l.table l.drops
  let s1 := if gens.isEmpty then s0.tookMany 2 else s0
  let tensor : Tensor :=
    { rows := [row], scales := [], vals := codes.map (elemF32 l.ofmt), fmt := l.ofmt, rowLen := t.elems, smode := 0
      obj := l.table, first := 0 }
  let s1w := s1.fireStep l.fn l.ring l.seq 6 tensor
  let s2 := s1w.finish l.fn l.ring l.seq { status := stOk, flags := flags, result := BitVec.ofNat 64 used.length }
    [(l.raddr, hdr ++ body ++ entries)]
  let left := s2.tables.lookups.filter fun x => !(x.fn == l.fn && x.ring == l.ring && x.seq == l.seq)
  { s2 with tables := { s2.tables with lookups := left } }

/-- A lookup at the close of window B (R234): its own rows are gathered; missing rows carry a STRICT lookup, and are left
out of a BOUNDED one. -/
def State.closeLookup (s : State) (l0 : Lookup) : State :=
  let same (x : Lookup) : Bool := x.fn == l0.fn && x.ring == l0.ring && x.seq == l0.seq
  match s.tableDef l0.fn l0.table with
  | none => s.finish l0.fn l0.ring l0.seq (compOf stNoTable) []
  | some t =>
    let s1 := s.gatherOwn l0 t
    match s1.tables.lookups.find? same with
    | none => s1
    | some l =>
      if l.spilled then (s1.setLookup { l with late := true }).carry l.fn l.ring l.seq l.cls
      else if l.rows.any (fun r => r.st == .wanted) then
        if s1.strict l.fn l.cls then (s1.setLookup { l with late := true }).carry l.fn l.ring l.seq l.cls
        else s1.endLookup { l with rows := l.rows.map fun r => if r.st = .wanted then { r with st := .missing } else r } t
      else s1.endLookup l t

/-- EXCHANGE_WINDOW_B_CLOSE (R234). -/
def execExchangeWindowBClose (s : State) : Host.Outcome State Fault Refusal :=
  .next (s.tables.lookups.foldl State.closeLookup s)

/-! ### The exchange (R235, R236) -/

/-- A row that a lookup still wants from another node: lookup's function, ring and SEQ, place in its rows, owner, and
the entry that asks for it. -/
structure Want where
  fn : Nat
  ring : Nat
  seq : Word64
  idx : Nat
  owner : Nat
  node : Nat
  entry : Word64 × Word64
  deriving DecidableEq, Repr

/-- The replica that a lookup asks an owner at: the other one than last time (R235). -/
def State.askReplica (s : State) (l : Lookup) (t : TableDef) (o : Nat) : Nat :=
  match l.asked.find? fun a => a.1 == o with
  | some (_, r) => if l.late then 1 - r else r
  | none => s.lookReplica t o s.tick.count.toNat

/-- The rows that lookups want, with the replica chosen by `rep`. -/
def State.wantsBy (s : State) (rep : Lookup → TableDef → Nat → Nat) : List Want :=
  s.tables.lookups.flatMap fun l =>
    match s.tableDef l.fn l.table with
    | none => []
    | some t => l.rows.zipIdx.filterMap fun (r, i) =>
        match r.st, r.owner with
        | .wanted, some o =>
          if some o = t.self then none
          else some { fn := l.fn, ring := l.ring, seq := l.seq, idx := i, owner := o, node := ownerNode t o (rep l t o)
                      entry := (word [(52, 12, l.fn), (36, 16, l.table), (0, 32, r.row)], l.tick) }
        | _, _ => none

/-- Order of entries: word 0, then word 1. -/
def entryLe (a b : Word64 × Word64) : Bool :=
  decide (a.1.toNat < b.1.toNat) || (a.1 == b.1 && decide (a.2.toNat ≤ b.2.toNat))

/-- The distinct entries for a node in ascending order. -/
def entriesFor (ws : List Want) (node : Nat) : List (Word64 × Word64) :=
  (((ws.filter fun w => w.node == node).map (·.entry)).dedup).mergeSort entryLe

/-- An exchange message (Table TU-5): header then body. -/
def exchMsg (sender kind count : Nat) (tick : Word64) (body : List Byte) : List Byte :=
  let h := wordsBytes [word [(32, 32, sender), (0, 8, kind)], tick, word [(32, 32, count)],
    BitVec.ofNat 64 body.length, 0, 0, 0]
  h ++ leBytes 8 (crc32c (body ++ h)) ++ body

/-- Window A opens: one request to each node that owns wanted rows, once in a tick. -/
def State.exchangeA (s : State) : State :=
  if s.tables.exchA = some s.tick.count then s
  else
    let ws := s.wantsBy s.askReplica
    let nodes := (ws.map (·.node)).dedup
    let send (s : State) (n : Nat) : State :=
      let es := entriesFor ws n
      s.sendPlan 3 n (exchMsg s.nodeId 1 es.length s.tick.count (es.flatMap fun e => leBytes 8 e.1.toNat ++ leBytes 8 e.2.toNat))
    let s1 := nodes.foldl send s
    let ask (l : Lookup) : Lookup :=
      match s.tableDef l.fn l.table with
      | none => l
      | some t =>
        let os := ((l.rows.filter fun r => r.st == .wanted).filterMap (·.owner)).dedup
        { l with asked := (l.asked.filter fun a => !os.contains a.1) ++ os.map fun o => (o, s.askReplica l t o) }
    { s1 with tables := { s1.tables with exchA := some s.tick.count, lookups := s1.tables.lookups.map ask } }

/-- A message's header words, body and count, where its CRC, lengths and reserved fields are good. -/
def exchParse (kind : Nat) (p : List Byte) : Option (Nat × Word64 × Nat × List Byte) :=
  let body := p.drop 64
  let w (i : Nat) : Nat := wordAt p (8 * i)
  if decide (64 ≤ p.length) && w 7 == crc32c (body ++ p.take 56) && field (w 0) 0 8 == kind && field (w 0) 8 24 == 0 &&
      field (w 2) 0 32 == 0 && w 3 == body.length && w 4 == 0 && w 5 == 0 && w 6 == 0 then
    some (field (w 0) 32 32, BitVec.ofNat 64 (w 1), field (w 2) 32 32, body)
  else none

/-- Whether an instant lies in a TC3 LAND window of a phase (R236, R346). -/
def State.inWindow (s : State) (phase atNs : Nat) : Bool :=
  (gateRecs s.plan0).any fun g =>
    g.kind == 2 && g.tc == 3 && g.phase == phase && decide (g.open_ ≤ atNs) && decide (atNs < g.close)

/-- EXCHANGE_REQUEST (R233, R236): an owner takes a request in window A; a bad one, or one outside its window, is
discarded and counted. -/
def execExchangeRequest (payload : List Byte) (atNs : Nat) (s : State) : Host.Outcome State Fault Refusal :=
  .next (match exchParse 1 payload with
    | some (sender, tick, n, body) =>
      if s.inWindow 4 atNs && tick = s.tick.count && body.length = 16 * n then
        let es := (List.range n).map fun i => (BitVec.ofNat 64 (wordAt body (16 * i)), BitVec.ofNat 64 (wordAt body (16 * i + 8)))
        let r : ExchReq := { sender := sender, tick := tick, entries := es }
        { s with tables := { s.tables with requests := s.tables.requests ++ [r] } }
      else s.bumpFabric 11
    | none => s.bumpFabric 11)

/-- The answer to one request entry (Table TU-7): its two words, and the row at its stride. -/
def State.answer (s : State) (e : Word64 × Word64) : List Byte × List Byte :=
  let w := e.1.toNat
  let no (st : Nat) : List Byte × List Byte := (wordsBytes [word [(60, 4, st)], 0], [])
  match s.tableDef (field w 52 12) (field w 36 16) with
  | none => no 2
  | some t =>
    match ownerOf t (field w 0 32) with
    | none => no 3
    | some (o, j) =>
      if some o ≠ t.self || field w 0 32 ≥ t.rows then no 3
      else
        match s.ownRow t e.2.toNat j with
        | .placed b sc g =>
          let (mode, v) := if tSide t then (1, (convertTo 6 (f32Val sc)).code) else if tNested t then (2, sc.toNat) else (0, 0)
          (wordsBytes [word [(58, 2, mode), (0, 32, v)], word [(0, 32, g.toNat)]],
            b ++ List.replicate (tStride t - b.length) 0)
        | _ => no 1

/-- Window B opens: one response to each requester, once in a tick; a lagging node answers none (R239). -/
def State.exchangeB (s : State) : State :=
  if s.tables.exchB = some s.tick.count then s
  else
    let send (s : State) (r : ExchReq) : State :=
      let as := r.entries.map s.answer
      s.sendPlan 3 r.sender (exchMsg s.nodeId 2 as.length s.tick.count (as.flatMap (·.1) ++ as.flatMap (·.2)))
    let mine := if s.tables.lagging then [] else s.tables.requests.filter fun r => r.tick == s.tick.count
    let s1 := mine.foldl send s
    { s1 with tables := { s1.tables with exchB := some s.tick.count, requests := [] } }

/-- TABLE_MISMATCH, once per tick for a table and owner (R230). -/
def State.mismatch (s : State) (fn table owner status : Nat) : State :=
  if s.tables.mismatched.contains (fn, table, owner) then s
  else
    { s with tables := { s.tables with mismatched := s.tables.mismatched ++ [(fn, table, owner)] } }.raise
      .tableMismatch fn table owner status

/-- The effective scale that a response entry carries. -/
def answerScale (w : Nat) : Word32 :=
  match field w 58 2 with
  | 1 => elemF32 6 (field w 0 16)
  | 2 => BitVec.ofNat 32 (field w 0 32)
  | _ => 0x3F800000#32

/-- One answer goes to every lookup that asked for its row. -/
def State.takeAnswer (s : State) (ws : List Want) (e : Word64 × Word64) (w0 w1 : Nat) (row : List Byte) : State :=
  let st : RowState := match field w0 60 4 with
    | 0 => .placed row (answerScale w0) (BitVec.ofNat 32 (field w1 0 32))
    | 1 => .dead
    | _ => .dropped
  let code := field w0 60 4
  (ws.filter fun w => w.entry == e).foldl (fun s w =>
    match s.tables.lookups.find? fun l => l.fn == w.fn && l.ring == w.ring && l.seq == w.seq with
    | none => s
    | some l =>
      let s1 := s.placeRow l w.idx st
      if code ≥ 2 then s1.mismatch w.fn l.table w.owner (if code = 3 then 3 else 2) else s1) s

/-- The answers of a response, each with the row that follows the entries. -/
def State.takeAnswers (s : State) (ws : List Want) (body : List Byte) : List ((Word64 × Word64) × Nat) → Nat → State
  | [], _ => s
  | (e, i) :: r, off =>
    let w0 := wordAt body (16 * i)
    let t := s.tableDef (field e.1.toNat 52 12) (field e.1.toNat 36 16)
    let (stride, len) := match t with | some t => (tStride t, rowBytes t.fmt t.elems) | none => (0, 0)
    let ok := field w0 60 4 = 0
    (s.takeAnswer ws e w0 (wordAt body (16 * i + 8)) (bytesAt body off len)).takeAnswers ws body r
      (if ok then off + stride else off)

/-- EXCHANGE_RESPONSE (R236): the rows that an owner returns in window B. -/
def execExchangeResponse (payload : List Byte) (atNs : Nat) (s : State) : Host.Outcome State Fault Refusal :=
  .next (match exchParse 2 payload with
    | some (sender, tick, n, body) =>
      let ws := (s.wantsBy fun l _ o => match l.asked.find? fun a => a.1 == o with | some a => a.2 | none => 0).filter
        fun w => w.node == sender
      let es := entriesFor ws sender
      if s.inWindow 6 atNs && tick = s.tick.count && es.length = n && decide (16 * n ≤ body.length) then
        s.takeAnswers ws body es.zipIdx (16 * n)
      else s.bumpFabric 11
    | none => s.bumpFabric 11)

end Sys2Proof.Machine
end

