-- ==== Sys2Proof/Machine/Warren.lean ====
section
/-! DEFINITION. The warrens: logical burrows, their micro-programs and micro-ops, throttling, refresh and faults
(05 R122–R150), and the faults of tiles (04 R120). -/

namespace Sys2Proof.Machine

/-! ### Burrows -/

/-- A burrow that holds nothing. -/
def burrowReset (i : Nat) : Burrow :=
  { id := i, store := [], running := none, pc := 0, wait := .none, bound := [], item := none, cursor := 0, topk := []
    lut0 := [], lut1 := [], ready0 := none, ready1 := none, half := 0, last := 0, pulls := [], basePairs := []
    filter := [], landing := List.replicate 64 0, counts := Counts0, scanned := 0, cycles := 0, fenced := false }

/-- A logical burrow; one that is not listed holds nothing. -/
def State.burrow (s : State) (i : Nat) : Burrow :=
  (s.warren.burrows.find? fun b => b.id == i).getD (burrowReset i)

/-- Put a burrow back. -/
def State.setBurrow (s : State) (b : Burrow) : State :=
  { s with warren := { s.warren with burrows := putBy Burrow.id b s.warren.burrows } }

/-- A memory stack. -/
def State.stack (s : State) (i : Nat) : Stack := s.warren.dram.getD i stackReset

/-- Put a stack back. -/
def State.setStack (s : State) (i : Nat) (x : Stack) : State :=
  { s with warren := { s.warren with dram := s.warren.dram.set i x } }

/-- The physical unit of a logical channel: the (c + 1)-th unit that was good at boot (R124), until a failure in service
moves the channel to the spare unit, or leaves it without one (R147, R148; assumption 22). -/
def Stack.unitOf (x : Stack) (c : Nat) : Option Nat :=
  match x.moved.find? fun m => m.1 == c with
  | some m => m.2
  | none => ((List.range 33).filter fun u => !x.bootOut.contains u)[c]?

/-- The logical channel that a physical unit serves. -/
def Stack.chanOf (x : Stack) (u : Nat) : Option Nat :=
  (List.range 32).find? fun c => x.unitOf c == some u

/-- Issue cycles per 20 at a throttle level (Table WA-9). -/
def issuePer20 (level : Nat) : Nat := [20, 19, 18, 17, 16].getD level 12

/-- The cycle, from the tick edge, at which `c` issue cycles that begin at cycle `t` have been done at a level (R143):
issue falls on the first n cycles of every group of 20. -/
def elapse (level t c : Nat) : Nat :=
  let n := issuePer20 level
  if c = 0 then t
  else
    let k := t / 20 * n + min (t % 20) n + c - 1
    k / n * 20 + k % n + 1

/-! ### Micro-ops (Table WA-4) -/

/-- Fields of a micro-op. -/
def mOp (w : Nat) : Nat := field w 56 8
def mFlag (w i : Nat) : Bool := w.testBit (51 + i)
def mTarget (w : Nat) : Nat := field w 40 11
def mStile (w : Nat) : Nat := field w 24 14
def mValue (w : Nat) : Nat := field w 0 24

/-- The micro-op that a running burrow is at. -/
def Burrow.opWord (b : Burrow) : Option Nat :=
  match b.running with
  | none => none
  | some _ => (b.store[b.pc]?).map BitVec.toNat

/-- Entry words (R136). -/
def entOffset (e : Nat) : Nat := 64 * field e 0 25
def entPlace (e : Nat) : Nat := field e 32 4
def entLeaf (e : Nat) : Nat := field e 32 32
/-- A row entry without a row. -/
def entNone (e : Nat) : Bool := field e 0 32 == 0xFFFFFFFF

/-- The header of a scan entry's list. -/
def State.entryHdr (s : State) (b : Burrow) (e : Nat) : ListHdr := s.hdrAt (chanAddr b.id (entOffset e))

/-- Cost of SCANL (Table WA-5). -/
def scanCost (n d k : Nat) (delta : Bool) : Nat :=
  if n = 0 && !delta then 4
  else 32 + ceilDiv n 16 * ceilDiv k 32 + (if delta then 16 + ceilDiv d 16 * ceilDiv k 32 else 0)

/-- Row length in bytes and elements of the table that a row item reads. -/
def State.itemRow (s : State) (it : BurrowItem) : Nat × Nat :=
  match s.tableDef it.fn it.object with
  | some t => (rowBytes t.fmt t.elems, t.elems)
  | none => (0, 0)

/-- Code bytes of the index that a scan item reads. -/
def State.itemCode (s : State) (it : BurrowItem) : Nat :=
  match s.index it.fn it.object with | some x => x.code | none => 0

/-- Issue cycles of a micro-op (Table WA-5), for the burrow's item and entry. -/
def State.microCost (s : State) (b : Burrow) (w : Nat) : Nat :=
  match mOp w with
  | 0x04 =>
    match b.item with
    | some it =>
      let h := s.entryHdr b ((it.entries.getD b.cursor 0).toNat)
      scanCost h.len h.dlen (s.itemCode it) (mFlag w 1)
    | none => 4
  | 0x05 => 16 + (b.item.elim 0 BurrowItem.cap)
  | 0x06 => 16 + (b.item.elim 0 fun it => it.entries.length * ceilDiv (s.itemRow it).1 512)
  | 0x07 => 24 + (b.item.elim 0 fun it =>
      let r := it.entries.length
      r * ceilDiv (s.itemRow it).1 512 + 2 * r * ceilDiv (s.itemRow it).2 32)
  | 0x09 => 3
  | 0x0B => 2
  | 0x0C => 1
  | _ => 4

/-- The start of the slot that a burrow runs. -/
def State.slotStart (s : State) (b : Burrow) : Nat :=
  match b.running with
  | some k => (s.bslot b.id k).elim 0 BSlot.start
  | none => 0

/-- The cycle that a burrow has come to. -/
def State.burrowCycle (s : State) (b : Burrow) : Nat :=
  elapse (s.stack (b.id / 32)).level (s.slotStart b) b.cycles

/-- A burrow does a micro-op of one opcode: its issue cycles pass, then `f` acts. A burrow that runs no slot, waits, or is
at another micro-op does nothing. -/
def State.micro (s : State) (i op : Nat) (f : State → Burrow → Nat → State) : State :=
  let b := s.burrow i
  match b.opWord with
  | none => s
  | some w =>
    if mOp w = op && b.wait = .none && s.running then
      let b1 := { b with cycles := b.cycles + s.microCost b w, pc := b.pc + 1 }
      f (s.setBurrow b1) b1 w
    else s

/-- The counts of a burrow's item are latched into the node totals (R455, R456), with its END record. -/
def State.latchItem (s : State) (b : Burrow) : State :=
  match b.item with
  | none => s
  | some it =>
    let c := b.counts
    let s1 := (((((((s.total 8 1).total 9 c.sat).total 10 c.nan).total 11 c.sund).total 12 c.range).total 13 c.ecc).total
      14 b.scanned)
    let phase := match b.running with | some k => (s.bslot b.id k).elim 0 BSlot.phase | none => 0
    if s.burrowTraced b.id then
      s1.traceEnd (4096 + b.id) it.kind phase (cyclesOfNs (s.burrowCycle b)) c false
    else s1

/-! ### Items and LUTs -/

/-- The delivery block of a scan item: 128 bytes of base pairs, 128 of filter program, and the LUT (R136). -/
def State.delivery (s : State) (it : BurrowItem) : List Byte :=
  scratchBytes s.mesh.epoch (s.tile it.lutTile) it.lutAddr (256 + 512 * s.itemCode it)

/-- Which item a half holds. -/
def Burrow.ready (b : Burrow) (h : Nat) : Option Nat := if h = 0 then b.ready0 else b.ready1
/-- Bytes of a half. -/
def Burrow.lut (b : Burrow) (h : Nat) : List Byte := if h = 0 then b.lut0 else b.lut1

/-- Half h takes a delivery block, ready for an item's slot number. -/
def Burrow.putLut (b : Burrow) (h : Nat) (bs : List Byte) (slot : Nat) : Burrow :=
  if h = 0 then { b with lut0 := bs, ready0 := some slot } else { b with lut1 := bs, ready1 := some slot }

/-- The base pairs and the filter program of half h become the current item's. -/
def Burrow.useHalf (b : Burrow) (h : Nat) : Burrow :=
  let bs := b.lut h
  { b with half := h, basePairs := bytesAt bs 0 128, filter := bytesAt bs 128 128, wait := .none }

/-- BURROW_SLOT_START (R135): the slot starts at its ENTRY micro-op, if the burrow holds a program and is good. -/
def execBurrowSlotStart (burrow slot : Nat) (s : State) : Host.Outcome State Fault Refusal :=
  let b := s.burrow burrow
  match s.bslot burrow slot with
  | none => .next s
  | some k =>
    if s.running && b.running.isNone && !b.store.isEmpty then
      .next (s.setBurrow { b with running := some slot, pc := k.entry, wait := .none, item := none, cursor := 0,
                                  counts := Counts0, scanned := 0, cycles := 0 })
    else .next s

/-- The first bound item of the slot that a burrow runs. -/
def Burrow.nextItem (b : Burrow) : Option BurrowItem :=
  match b.running with
  | none => none
  | some k => (b.bound.find? fun p => p.1 == k).map (·.2)

/-- The first bound item of a slot taken from the list. -/
def dropFirst (k : Nat) : List (Nat × BurrowItem) → List (Nat × BurrowItem)
  | [] => []
  | p :: r => if p.1 = k then r else p :: dropFirst k r

/-- NEXT (R130): the item that ran is latched; the slot's next bound item is loaded, or the program jumps. -/
def execNextItem (burrow : Nat) (s : State) : Host.Outcome State Fault Refusal :=
  .next (s.micro burrow 0x01 fun s b w =>
    let s1 := s.latchItem b
    let b1 := { b with item := none, cursor := 0, counts := Counts0, scanned := 0, topk := [] }
    match b.nextItem, b.running with
    | some it, some k =>
      let b2 := { b1 with item := some it, bound := dropFirst k b.bound }
      let s2 := s1.setBurrow b2
      if s.burrowTraced burrow then
        let now := s.burrowCycle b
        s2.traceBegin (4096 + burrow) it.kind ((s.bslot burrow k).elim 0 BSlot.phase) (cyclesOfNs now)
          (cyclesOfNs (now - max it.lutReady (s.slotStart b)))
      else s2
    | _, _ => s1.setBurrow { b1 with pc := mTarget w })

/-- LUTGET (R130): the pull of the next item's delivery block into a half starts, or of the current item's. -/
def execLutget (burrow : Nat) (s : State) : Host.Outcome State Fault Refusal :=
  .next (s.micro burrow 0x02 fun s b w =>
    let h := flag (mFlag w 0)
    match (match b.nextItem with | some it => some it | none => b.item) with
    | none => s
    | some it =>
      let b1 := if h = 0 then { b with ready0 := none } else { b with ready1 := none }
      s.setBurrow { b1 with pulls := b1.pulls ++ [(h, it)] })

/-- LUT_PULL_LANDED (R127): the block lands in its half; a LUTW that waits for it goes on. -/
def execLutPullLanded (burrow half : Nat) (s : State) : Host.Outcome State Fault Refusal :=
  let b := s.burrow burrow
  match b.pulls.find? fun p => p.1 == half with
  | none => .next s
  | some p =>
    let b1 := { b with pulls := b.pulls.erase p }.putLut half (s.delivery p.2) p.2.slot
    let mine := b1.wait = .lut half && b1.item.map BurrowItem.slot = b1.ready half
    .next (s.setBurrow (if mine then b1.useHalf half else b1))

/-- LUTW (R130): goes on when the half holds the current item's block, else waits. -/
def execLutw (burrow : Nat) (s : State) : Host.Outcome State Fault Refusal :=
  .next (s.micro burrow 0x03 fun s b w =>
    let h := flag (mFlag w 0)
    if b.item.isSome && b.item.map BurrowItem.slot = b.ready h then s.setBurrow (b.useHalf h)
    else s.setBurrow { b with wait := .lut h })

/-! ### Scans (R131) -/

/-- Scores of one entry's candidates: the key entries of those that pass, saturations, NaN keys of those that pass,
reserved filter operations met, candidates. Tile commands and burrows compute alike (R24, R131). -/
def State.scanList (s : State) (x : Index) (h : ListHdr) (snap n : Nat) (base : Word32) (ibase : Nat)
    (lut : List Nat) (prog : List Byte) : List KeyEntry × Counts :=
  let one (p : Nat) : Option KeyEntry × Counts :=
    let (ok, bad) := filterWord x.attr.toNat prog (filterLen prog) (s.attrOf x h p)
    let c := { Counts0 with range := bad }
    if ok && !s.isDead x h snap p then
      let k := codeScore base lut ((s.codeOf x h p).map (·.toNat))
      let e := sortable k.v
      (some (e, (ibase + p) % 2 ^ 32), { c with sat := k.sat, nan := flag (e = 0xFFFFFFFF) })
    else (none, c)
  let rs := (List.range n).map one
  (rs.filterMap (·.1), rs.foldl (fun a r => addCounts a r.2) Counts0)

/-- SCANL (R130, R131): the entry at the cursor is scanned into the local top-k. -/
def execScanl (burrow : Nat) (s : State) : Host.Outcome State Fault Refusal :=
  .next (s.micro burrow 0x04 fun s b w =>
    match b.item with
    | none => s
    | some it =>
      match it.entries[b.cursor]?, s.index it.fn it.object with
      | some e, some x =>
        let h := s.entryHdr b e.toNat
        let n := h.len + (if mFlag w 1 then h.dlen else 0)
        let bp := 8 * entPlace e.toNat
        let lutB := (b.lut b.half).drop 256
        let lut := (List.range (256 * x.code)).map fun i => natAt lutB (2 * i) 2
        let (es, c) := s.scanList x h it.snapshot.toNat n (BitVec.ofNat 32 (natAt b.basePairs bp 4))
          (natAt b.basePairs (bp + 4) 4) lut b.filter
        s.setBurrow { b with topk := topEntries it.cap es, last := b.cursor, cursor := b.cursor + 1,
                             counts := addCounts b.counts c, scanned := b.scanned + n }
      | _, _ => s.setBurrow { b with topk := [], last := b.cursor })

/-- Bytes written to a tile's scratch by another engine; a fenced source writes nothing (R391). -/
def State.scratchPut (s : State) (tile addr : Nat) (bs : List Byte) : State :=
  let t := s.tile tile
  s.setTile { t with scratch := cellPutBytes t.scratch addr bs }

/-- EMIT (R130, R131): CAP key entries go to the item's destination for the entry last scanned, then +1 to its stile. -/
def execEmit (burrow : Nat) (s : State) : Host.Outcome State Fault Refusal :=
  .next (s.micro burrow 0x05 fun s b _ =>
    match b.item with
    | none => s
    | some it =>
      if b.fenced then s
      else
        let p := entPlace (it.entries.getD b.last 0).toNat
        (s.scratchPut it.dstTile (it.dstAddr + p * it.cap * 8) (entryBytes (padEntries it.cap b.topk))).planSignal
          it.stile 1)

/-! ### Rows (R132) -/

/-- GATH and RSUB signal their micro-op's stile when SIGDONE is set. -/
def State.microDone (s : State) (w : Nat) : State := if mFlag w 2 then s.planSignal (mStile w) (mValue w) else s

/-- GATH (R132): the item's rows are written in entry order; an entry without a row writes nothing. -/
def execGath (burrow : Nat) (s : State) : Host.Outcome State Fault Refusal :=
  .next (s.micro burrow 0x06 fun s b w =>
    match b.item with
    | none => s
    | some it =>
      if b.fenced then s
      else
        let n := (s.itemRow it).1
        let put (s : State) (e : Word64 × Nat) : State :=
          if entNone e.1.toNat then s
          else s.scratchPut it.dstTile (it.dstAddr + e.2 * stride64 n)
            (memReadBytes s.t1 (chanAddr burrow (entOffset e.1.toNat)) n)
        (it.entries.zipIdx.foldl put s).microDone w)

/-- Whether every leaf of a block of the tree is a row of the item or padding (R132). -/
def subLocal (mine : List Nat) (leaves lo size : Nat) : Bool :=
  (List.range size).all fun i => decide (leaves ≤ lo + i) || mine.contains (lo + i)

/-- The outputs of RSUB in ascending leaf order: the first leaf of each and its size; size 1 is a row as stored. -/
def rsubParts (mine : List Nat) (leaves : Nat) : Nat → Nat → Nat → List (Nat × Nat)
  | 0, lo, _ => if mine.contains lo then [(lo, 1)] else []
  | f + 1, lo, size =>
    if leaves ≤ lo then []
    else if size ≤ 1 then (if mine.contains lo then [(lo, 1)] else [])
    else if subLocal mine leaves lo size then [(lo, size)]
    else rsubParts mine leaves f lo (size / 2) ++ rsubParts mine leaves f (lo + size / 2) (size / 2)

/-- RSUB (R132): each maximal local subtree of two or more leaves is summed; other leaves go out as stored, with their
scales. The outputs stand one after another at the destination, each at the stride of a row of FP32 elements and its
scale (assumption 13). -/
def execRsub (burrow : Nat) (s : State) : Host.Outcome State Fault Refusal :=
  .next (s.micro burrow 0x07 fun s b w =>
    match b.item with
    | none => s
    | some it =>
      match s.tableDef it.fn it.object with
      | none => s
      | some t =>
        if b.fenced then s
        else
          let leaf (e : Word64 × Nat) : Nat × List Byte × Word32 × Word32 :=
            let a := chanAddr burrow (entOffset e.1.toNat)
            (entLeaf e.1.toNat, memReadBytes s.t1 a (rowBytes t.fmt t.elems), s.rowScale t (localOfAddr t a),
              it.weights.getD e.2 0x3F800000#32)
          let ls := (it.entries.zipIdx.filter fun e => !entNone e.1.toNat).map leaf
          let parts := rsubParts (ls.map (·.1)) it.leaves 13 0 (pow2Up 13 it.leaves 1)
          let rowAt (i : Nat) := ls.find? fun l => l.1 == i
          let sum (lo size : Nat) : List Fl :=
            weightedReduce t.elems ((List.range size).map fun i =>
              match rowAt (lo + i) with
              | some (_, bs, sc, wt) => (rowF32 t.fmt t.elems bs, wt, if scaledFmt t.fmt then some sc else none)
              | none => (List.replicate t.elems 0, 0, none))
          let step := stride64 (4 * t.elems + 4)
          let put (acc : State × Counts) (pi : (Nat × Nat) × Nat) : State × Counts :=
            let dst := it.dstAddr + pi.2 * step
            if pi.1.2 = 1 then
              match rowAt pi.1.1 with
              | some (_, bs, sc, _) => (acc.1.scratchPut it.dstTile dst (bytesAt bs 0 (4 * t.elems) ++ leBytes 4 sc.toNat), acc.2)
              | none => acc
            else
              let fs := sum pi.1.1 pi.1.2
              (acc.1.scratchPut it.dstTile dst (fs.flatMap fun f => leBytes 4 f.v.toNat),
                addCounts acc.2 { Counts0 with sat := (fs.map (·.sat)).sum })
          let (s1, c) := parts.zipIdx.foldl put (s, Counts0)
          (s1.setBurrow { b with counts := addCounts b.counts c }).microDone w)

/-! ### Control micro-ops -/

/-- SIG (R130). -/
def execSig (burrow : Nat) (s : State) : Host.Outcome State Fault Refusal :=
  .next (s.micro burrow 0x08 fun s _ w => s.planSignal (mStile w) (mValue w))

/-- Whether a burrow's WAITS condition holds; what a home's WAIT_CONSUME takes first is not left (R290). -/
def State.stileHolds (s : State) (i t : Nat) : Bool :=
  t = 0 || decide (t ≤ (s.stile i).count - s.homeTakes i 16384)

/-- WAITS (R130). -/
def execWaits (burrow : Nat) (s : State) : Host.Outcome State Fault Refusal :=
  .next (s.micro burrow 0x09 fun s b w =>
    if s.stileHolds (mStile w) (mValue w) then s else s.setBurrow { b with wait := .stile (mStile w) (mValue w) })

/-- BCOPY (R130, R141): words of the landing area go to another burrow's of the same stack. -/
def execBcopy (burrow : Nat) (s : State) : Host.Outcome State Fault Refusal :=
  .next (s.micro burrow 0x0A fun s b w =>
    let n := field (mValue w) 0 4 + 1
    let dest := s.burrow (burrow / 32 * 32 + field (mValue w) 8 5)
    if b.fenced then s
    else (s.setBurrow { dest with landing := b.landing.take n ++ dest.landing.drop n }).microDone w)

/-- JUMP (R130). -/
def execJump (burrow : Nat) (s : State) : Host.Outcome State Fault Refusal :=
  .next (s.micro burrow 0x0B fun s b w =>
    let more := match b.item with | some it => decide (b.cursor < it.entries.length) | none => false
    if !mFlag w 3 || more then s.setBurrow { b with pc := mTarget w } else s)

/-- END (R130): the slot ends; the item that ran is latched. -/
def execEndSlot (burrow : Nat) (s : State) : Host.Outcome State Fault Refusal :=
  .next (s.micro burrow 0x0C fun s b _ =>
    (s.latchItem b).setBurrow { b with running := none, item := none, cursor := 0, topk := [] })

/-- STILE_WAIT_SATISFIED (R289, R290): a tile's queue or a burrow's micro-program whose condition holds goes on. -/
def execStileWaitSatisfied (eng : Engine) (cycle : Nat) (s : State) : Host.Outcome State Fault Refusal :=
  .next (match eng with
    | .tile i => if s.running then s.tileDrain i (s.tile i).queue.length cycle else s
    | .burrow i =>
      let b := s.burrow i
      match b.wait with
      | .stile k t => if s.running && s.stileHolds k t then s.setBurrow { b with wait := .none } else s
      | _ => s)

/-! ### Throttling and refresh (R142–R144) -/

/-- The thermal band of a temperature, as a level 0–5 (Table WA-9). -/
def thermalBand (t : Nat) : Nat :=
  if t < 85 then 0 else if t < 88 then 1 else if t < 91 then 2 else if t < 93 then 3 else if t < 95 then 4 else 5

/-- THROTTLE_LEVEL_CHANGE (R143, R144): a 10 µs boundary with the hottest sensor's reading and the power estimate of the
interval. `cool` says that the sensor has read at least 2 °C below the band's lower edge for 100 µs, `calm` that a
100 µs interval in which the estimate stayed below 95 % of WA_PWR_LIMIT ends here. -/
def execThrottleLevelChange (stack temp power : Nat) (cool calm : Bool) (s : State) :
    Host.Outcome State Fault Refusal :=
  if stack ≥ 8 then .next s
  else
    let x := s.stack stack
    let limit := s.cfg 3 0 stack
    let band := thermalBand temp
    let thermal := if band > x.thermal then band else if cool then x.thermal - 1 else x.thermal
    let plevel := if power > limit then min 4 (x.powerLevel + 1) else if calm then x.powerLevel - 1 else x.powerLevel
    let level := max thermal plevel
    let first := level = 5 && x.level5Tick ≠ some s.tick.count
    let s1 := s.setStack stack { x with
      temp := temp, power := power, thermal := thermal, powerLevel := plevel, level := level
      level5Tick := if level = 5 then some s.tick.count else none }
    .next (if first then s1.raise .stackLevel5 0 stack temp 0 else s1)

/-- REFRESH_RATE_CHANGE (R142): the doubled rate from 85 °C. -/
def execRefreshRateChange (stack temp : Nat) (s : State) : Host.Outcome State Fault Refusal :=
  if stack ≥ 8 then .next s
  else .next (s.setStack stack { s.stack stack with temp := temp, doubleRefresh := decide (85 ≤ temp) })

/-! ### Faults (R120, R146–R148, R391) -/

/-- A part joins those that the next boundary decides. -/
def State.fence (s : State) (p : Part) : State :=
  if s.faults.fenced.contains p then s else { s with faults := { s.faults with fenced := s.faults.fenced ++ [p] } }

/-- The fault of a row of Table FS-1 puts the node in the fault hold (R390). -/
def State.nodeFault (s : State) (row part : Nat) : State := s.faultHold 0x0A row row part

/-- A shard query that a poisoned item serves: it starts its scan again in the next swath (R57, R393). -/
def ShardJob.poison (j : ShardJob) : ShardJob :=
  { j with
    scanned := false, overCap := [], rescan := false, merged := [], scannedCount := 0, passedCount := 0, waits := []
    reranked := 0, gleaned := 0, lost := 0, run := 1, carried := true, late := true }

/-- Whether a scan item of a channel holds a pair of a shard query that has been scanned. -/
def State.itemServes (s : State) (ch : Nat) (it : BurrowItem) (j : ShardJob) : Bool :=
  it.kind == 1 && j.scanned && j.ask.fn == it.fn && j.ask.cls == it.cls && j.ask.index == it.object &&
    j.snap == some it.snapshot &&
    it.entries.any fun e => j.ask.lists.isEmpty || j.ask.lists.contains (s.hdrAt (chanAddr ch (entOffset e.toNat))).list

/-- The shard queries and lookups that items of a channel's burrow serve are carried (R393). -/
def State.poisonItems (s : State) (ch : Nat) (its : List BurrowItem) : State :=
  let hit := s.search.shard.filter fun j => its.any fun it => s.itemServes ch it j
  let jobs := s.search.shard.map fun j => if hit.any fun k => k.id == j.id then j.poison else j
  let looks := s.tables.lookups.map fun l =>
    if its.any fun it => it.kind != 1 && l.fn == it.fn && l.cls == it.cls && l.table == it.object then
      { l with spilled := true }
    else l
  let s1 := { s with
    search := { s.search with shard := jobs }
    tables := { s.tables with lookups := looks }
    flash := { s.flash with reads := s.flash.reads.filter fun r => !hit.any fun k => k.id == r.job } }
  hit.foldl (fun s j => (s.total 17 1).classBump j.ask.fn j.ask.cls 10 1) s1

/-- A physical unit fails: it is fenced with its burrow until the boundary (R147, R391). -/
def State.unitFails (s : State) (stack u : Nat) (c : Cause) : State :=
  let s1 := (s.fence (.unit stack u)).raiseNamed c [stack, u, ((s.stack stack).chanOf u).getD 255]
  match (s.stack stack).chanOf u with
  | some ch =>
    let b := s1.burrow (32 * stack + ch)
    (s1.poisonItems (32 * stack + ch) (b.item.toList ++ b.bound.map (·.2))).setBurrow { b with fenced := true }
  | none => s1

/-- An uncorrectable block at a node address (Table WA-10, R397): it is counted for its channel, the items that read it
are carried, and the replay uses the channel redirect; the sixteenth in 1,024 ticks is a channel loss. -/
def State.badBlockAt (s : State) (a : Nat) (its : List BurrowItem) : State :=
  let ch := channelOf a
  let stack := ch / 32
  let x := s.stack stack
  let unit := (x.unitOf (ch % 32)).getD 0
  let bad := (x.badBlocks.filter fun p => p.1 = ch % 32 && decide (s.tick.count.toNat < p.2.toNat + 1024)) ++
    [(ch % 32, s.tick.count)]
  let s1 := (s.setStack stack { x with badBlocks := bad }).raiseNamed .eccBlock [stack, unit, ch % 32]
  let s2 := s1.poisonItems ch its
  let r : Redirect := { chan := ch, start := s.tick.count + 1, replayOnly := true, partner := 0 }
  let rs := s2.faults.redirects
  let s3 := { s2 with faults := { s2.faults with
    redirects := if rs.any fun y => y.chan == ch then rs else rs ++ [r] } }
  if (bad.filter fun p => p.1 = ch % 32).length ≥ 16 then s3.unitFails stack unit .channelLoss else s3

/-- WARREN_FAULT (R146, Table WA-10). -/
def execWarrenFault (stack unit : Nat) (kind : WarrenKind) (s : State) : Host.Outcome State Fault Refusal :=
  if stack ≥ 8 || unit > 32 then .next s
  else
    let x := s.stack stack
    .next (match kind with
      | .corrected n => s.setStack stack { x with eccCorr := bump x.eccCorr n }
      | .block a => s.badBlockAt a (s.burrow (channelOf a)).item.toList
      | .channel => s.unitFails stack unit .channelLoss
      | .parity => s.unitFails stack unit .unitFault
      | .residue => s.unitFails stack unit .unitFault
      | .bus again =>
        let s1 := s.raiseNamed .busFault [stack, unit, flag again]
        if again then
          { s1 with warren := { s1.warren with resending := s1.warren.resending.filter fun i => i != stack } }.nodeFault
            8 stack
        else { s1 with warren := { s1.warren with resending := s1.warren.resending ++ [stack] } })

/-- UNIT_REFILL_COMPLETE (R147): the spare unit's channel holds its full contents; the boundary that follows ends the
redirect (R400). -/
def execUnitRefillComplete (stack : Nat) (s : State) : Host.Outcome State Fault Refusal :=
  if stack ≥ 8 then .next s else .next (s.setStack stack { s.stack stack with refill := none })

/-- The physical place of a logical tile: column x, and the (y + 1)-th good row of the column (R98). -/
def State.physTile (s : State) (i : Nat) : Nat × Nat :=
  let x := i % 64
  let good := (List.range 66).filter fun p => !s.mesh.mappedOut.contains (x, p)
  (x, good.getD (i / 64) 65)

/-- TILE_FAULT (R120, Table TL-9). -/
def execTileFault (tile : Nat) (kind : TileFaultKind) (s : State) : Host.Outcome State Fault Refusal :=
  let fails (s : State) : State :=
    let (x, p) := s.physTile tile
    let t := s.tile tile
    ((s.setTile { t with fenced := true }).fence (.tile x p)).raiseNamed .tileFault [x, p, tile]
  if tile ≥ 4096 then .next s
  else
    .next (match kind with
      | .corrected flit =>
        let t := s.tile tile
        if flit then { s with mesh := { s.mesh with flitEcc := bump s.mesh.flitEcc 1 } }
        else (s.setTile { t with counts := addCounts t.counts { Counts0 with ecc := 1 } }).total 5 1
      | .double => fails s
      | .parity => fails s
      | .residue => fails s
      | .wire x p d move =>
        let cs := s.mesh.copies.map fun c => if move = some c.id then { c with poisoned := true } else c
        let s1 := { s with mesh := { s.mesh with copies := cs } }
        let s2 := s1.raiseNamed .tileFault [x, p, tile]
        if s.mesh.spareWires.contains (x, p, d) then s2.nodeFault 4 (4 * (64 * p + x) + d)
        else s2.fence (.wire x p d))

end Sys2Proof.Machine
end

