-- ==== Sys2Proof/Machine/Bind.lean ====
section
/-! DEFINITION. Work items and their binding to burrow slots (05 R136–R138). -/

namespace Sys2Proof.Machine

/-! ### Demand of an item (R137) -/

/-- Cycles that LUTW counts for a full pull. -/
def pullCycles (code : Nat) : Nat := 160 + ceilDiv (256 + code * 512) 256

/-- Cost along the micro-program's path for an item, from a micro-op to the NEXT after the item's own; LUTW's own cost is
left out. -/
def State.walkCost (s : State) : Nat → Burrow → Bool → Nat
  | 0, _, _ => 0
  | fuel + 1, b, begun =>
    match b.store[b.pc]? with
    | none => 0
    | some w64 =>
      let w := w64.toNat
      let cost := if begun then s.microCost b w else 0
      let on := { b with pc := b.pc + 1 }
      match mOp w with
      | 0x01 => if begun then 0 else s.microCost b w + s.walkCost fuel on true
      | 0x03 => s.walkCost fuel on begun
      | 0x04 => cost + s.walkCost fuel { on with cursor := b.cursor + 1 } begun
      | 0x0B =>
        let more := match b.item with | some it => decide (b.cursor < it.entries.length) | none => false
        cost + s.walkCost fuel (if !mFlag w 3 || more then { b with pc := mTarget w } else on) begun
      | 0x0C => cost
      | _ => cost + s.walkCost fuel on begun

/-- The demand of an item in a slot that begins at a micro-op, without LUTW. -/
def State.itemDemand (s : State) (b : Burrow) (entry : Nat) (it : BurrowItem) : Nat :=
  s.walkCost 4096 { b with item := some it, cursor := 0, pc := entry } false

/-- LUTW's cost: a full pull for K above 32, for the first item of a slot and for one that waits for its LUT; else what
the previous item's demand leaves of it. Row items pull nothing. -/
def lutwCost (kind code : Nat) (waits : Bool) (prev : Option Nat) : Nat :=
  if kind ≠ 1 then 0
  else
    match prev with
    | none => pullCycles code
    | some d => if code > 32 || waits then pullCycles code else max 4 (pullCycles code - d)

/-- The binding loop of R137 from cycle t: items bound, items spilled. -/
def State.bindSlot (s : State) (b : Burrow) (entry endAt : Nat) :
    Nat → Option Nat → List BurrowItem → List BurrowItem × List BurrowItem
  | _, _, [] => ([], [])
  | t, prev, it :: r =>
    let at_ := max t it.lutReady
    let own := s.itemDemand b entry it
    let d := own + lutwCost it.kind (s.itemCode it) (decide (t < at_)) prev
    let e := at_ + d + 4 * ceilDiv d 16
    if e > endAt then ([], it :: r)
    else
      let q := s.bindSlot b entry endAt e (some own) r
      (it :: q.1, q.2)

/-! ### Items (R136) -/

/-- An item of a slot of a function and class, with what the plan's layout gives it. -/
def planItem (f c slot b kind : Nat) : BurrowItem :=
  { slot := slot, kind := kind, cap := 0, stile := Config.itemPlan 0 f c slot b % 16384
    dstTile := Config.itemPlan 1 f c slot b % 4096, dstAddr := Config.itemPlan 2 f c slot b % 65536
    lutTile := Config.itemPlan 3 f c slot b % 4096, lutAddr := Config.itemPlan 4 f c slot b % 65536, entries := []
    lutReady := if kind = 1 then Config.itemPlan 5 f c slot b else 0, fn := f, cls := c, object := 0, snapshot := 0
    weights := [], leaves := 0 }

/-- The scan item of a query for its thin lists in one logical channel. -/
def scanItem (x : Index) (f c slot ch cap : Nat) (snap : Word64) (lists : List Nat) : BurrowItem :=
  { planItem f c slot ch 1 with
    cap := cap, object := x.obj, snapshot := snap
    entries := lists.zipIdx.map fun (l, p) => word [(32, 4, p), (0, 25, chanOff (listAddr x l) / 64)] }

/-- The row items of a lookup in one logical channel, of a slot kind: the rows of this owner that lie there. -/
def rowItem (t : TableDef) (l : Lookup) (slot ch kind : Nat) : Option BurrowItem :=
  let mine := l.rows.zipIdx.filterMap fun (r, leaf) =>
    if r.st = .wanted && r.owner.isSome && r.owner = t.self then
      match ownerOf t r.row with
      | some (_, j) => if (rowPlace t j).1 = ch then some (j, leaf, r.score) else none
      | none => none
    else none
  if mine.isEmpty then none
  else
    let ws := lookWeights l.wmode (l.rows.map (·.score))
    some { planItem l.fn l.cls slot ch kind with
      object := l.table, snapshot := l.tick, leaves := l.rows.length
      entries := mine.map fun m => word [(32, 32, m.2.1), (0, 32, chanOff (rowAddr t m.1) / 64)]
      weights := mine.map fun m => (ws.getD m.2.1 flZero).v }

/-- The order in which the items of a slot's function and class are bound. -/
def itemBefore (a b : BurrowItem) : Bool := decide ([a.lutReady, a.slot] ≤ [b.lutReady, b.slot])

/-- The 64 bytes of a work item record (Table WA-8), with the offset of its entries. -/
def itemBytes (it : BurrowItem) (off : Nat) : List Byte :=
  wordsBytes [word [(32, 20, it.slot), (28, 4, it.kind), (16, 8, it.cap), (0, 16, it.entries.length)],
    word [(50, 14, it.stile), (44, 6, it.dstTile / 64), (38, 6, it.dstTile % 64), (0, 16, it.dstAddr)],
    word [(32, 32, off), (20, 12, if it.kind = 1 then it.lutTile else 0), (0, 16, if it.kind = 1 then it.lutAddr else 0)],
    0, 0, 0, 0, 0]

/-- The records of a channel's items stand from the start of its work area, and their entries after them (assumption
18). -/
def State.writeItems (s : State) (ch : Nat) (its : List BurrowItem) : State :=
  let base := chanAddr ch workArea
  let lead := 8 * its.length
  let step (acc : List Byte × List Byte) (it : BurrowItem) : List Byte × List Byte :=
    (acc.1 ++ itemBytes it (lead + acc.2.length / 8), acc.2 ++ wordsBytes it.entries)
  let (recs, ents) := its.foldl step ([], [])
  { s with t1 := memWriteBytes s.t1 base (recs ++ ents) }

/-- The items of one channel are bound to its burrow's slots, slot by slot in slot order; items that one slot spills go on
to the next slot of their function, class and kind. The state, the bound pairs, and the items left over. -/
def State.bindBurrow (s : State) (ch : Nat) (items : List BurrowItem) : State × List BurrowItem :=
  let b := s.burrow ch
  let slots := (burrowSlots (secBytes s.plan0 2) ch).zipIdx
  let one (acc : List (Nat × BurrowItem) × List BurrowItem) (k : BSlot × Nat) :
      List (Nat × BurrowItem) × List BurrowItem :=
    let mine := (acc.2.filter fun it => it.kind == k.1.kind && it.fn == k.1.fn && it.cls == k.1.cls).mergeSort itemBefore
    if mine.isEmpty || b.store.isEmpty then acc
    else
      let (got, _) := s.bindSlot b k.1.entry k.1.endAt k.1.start none mine
      (acc.1 ++ got.map fun it => (k.2, it), acc.2.filter fun it => !got.contains it)
  let (bound, left) := slots.foldl one ([], items)
  if items.isEmpty then (s, [])
  else ((s.setBurrow { b with bound := bound }).writeItems ch (bound.map (·.2)), left)

/-- Slot kinds that a burrow's table gives a function and class. -/
def State.slotKinds (s : State) (ch f c : Nat) : List Nat :=
  ((burrowSlots (secBytes s.plan0 2) ch).filter fun k => k.fn == f && k.cls == c).map (·.kind)

/-- The row items of the tick's lookups in a channel. -/
def State.rowItems (s : State) (ch : Nat) : List BurrowItem :=
  s.tables.lookups.zipIdx.flatMap fun (l, i) =>
    match s.tableDef l.fn l.table with
    | none => []
    | some t => [2, 3].filterMap fun k => if (s.slotKinds ch l.fn l.cls).contains k then rowItem t l i ch k else none

/-- Lookups whose row items were spilled are carried. -/
def State.spillRows (s : State) (left : List BurrowItem) : State :=
  let ls := s.tables.lookups.zipIdx.map fun (l, i) =>
    { l with spilled := left.any fun it => it.kind != 1 && it.slot == i }
  { s with tables := { s.tables with lookups := ls } }

end Sys2Proof.Machine
end

