-- ==== Sys2Proof/Machine/Coarse.lean ====
section
/-! DEFINITION. The coarse stage of a search, and the choice of list, storing and coding of an inserted vector
(07 R185–R189, 09 R239, R244). -/

namespace Sys2Proof.Machine

/-! ### The query (R187, steps 1 and 2) -/

/-- A vector converted to FP32, and normalised for COSINE; saturations met. -/
def queryFp (x : Index) (fmt : Nat) (bytes : List Byte) : List Word32 × Nat :=
  let v := rowF32 fmt x.dims bytes
  if x.metric = 1 then
    let (r, n) := normalise v
    (n.map (·.v), r.sat + (n.map (·.sat)).sum)
  else (v, 0)

/-- Quantised to IX_CFMT with an unstored scale and dequantised: what enters every key of the coarse stage. -/
def coarseVec (x : Index) (v : List Word32) : List Word32 × Nat := queryHalf x.cfmt v

/-- Row i of the centroid sequence (R179); zeros until it is loaded. -/
def centRow (x : Index) (i : Nat) : FpRow :=
  (rowOf x.cents i).getD { row := i, bytes := List.replicate (rowBytes x.cfmt x.dims) 0, scale := 0 }

/-- Elements of a codebook row. -/
def bookDims (x : Index) : Nat := x.dims / x.code
/-- Row c of subquantiser j. -/
def bookRow (x : Index) (j c : Nat) : FpRow :=
  (rowOf x.books (256 * j + c)).getD
    { row := 256 * j + c, bytes := List.replicate (rowBytes x.cfmt (bookDims x)) 0, scale := 0 }

/-- Ranking key of a query against row i of the centroid sequence (R86). -/
def centKey (x : Index) (q : List Word32) (i : Nat) : Fl :=
  let r := centRow x i
  exactKey (x.metric == 2) q (r.elems x.cfmt x.dims) (r.scaleOf x.cfmt)

/-- Keys of rows of the centroid sequence, each under a number: entries and saturations. -/
def centKeys (x : Index) (q : List Word32) (rows : List (Nat × Nat)) : List KeyEntry × Nat :=
  let ks := rows.map fun (n, i) => (n, centKey x q i)
  (ks.map fun (n, k) => (sortable k.v, n), (ks.map fun k => k.2.sat).sum)

/-- First-level keys, entered by cell number. -/
def cellKeys (x : Index) (q : List Word32) : List KeyEntry × Nat :=
  centKeys x q ((List.range x.cells1).map fun c => (c, c))

/-- Second-level keys of cells, entered by list id. -/
def listKeys (x : Index) (q : List Word32) (cells : List Nat) : List KeyEntry × Nat :=
  centKeys x q (cells.flatMap fun c => (List.range x.cells2).map fun k => (c * x.cells2 + k, x.cells1 + c * x.cells2 + k))

/-- The walk of R188: lists in ascending key order, at most 16 of one channel, at most n. -/
def probeWalk (x : Index) (n : Nat) : List KeyEntry → List Nat → List Nat
  | [], got => got
  | e :: r, got =>
    if got.length ≥ n then got
    else if (got.filter fun l => listChan x l == listChan x e.2).length ≥ 16 then probeWalk x n r got
    else probeWalk x n r (got ++ [e.2])

/-- The coarse stage (R187, R188): the probe list in ascending list id order, saturations, NaN keys. -/
def coarseStage (x : Index) (fmt cells nprobe : Nat) (bytes : List Byte) : List Nat × Nat × Bool :=
  let (v, s1) := queryFp x fmt bytes
  let (q, s2) := coarseVec x v
  let (e1, s3) := cellKeys x q
  let best := (topEntries cells e1).map (·.2)
  let (e2, s4) := listKeys x q best
  let lists := probeWalk x nprobe (entrySort entryBefore e2) []
  (lists.mergeSort fun a b => decide (a ≤ b), s1 + s2 + s3 + s4, decide (nanKeys e1 + nanKeys e2 > 0))

/-! ### An inserted vector (Table TU-10, R244) -/

/-- A vector as stored: its bytes in IX_VFMT, its scale as the log record and the codeword carry it, its norm, the
values that it dequantises to, and the saturations of storing it. -/
structure StoredVec where
  bytes : List Byte
  scale : Word32
  norm : Word32
  vals : List Word32
  sats : Nat
  deriving DecidableEq, Repr

/-- Values of a stored vector: elements dequantised with the effective row scale. -/
def storedVals (x : Index) (bytes : List Byte) (scale : Word32) : List Word32 :=
  let e := rowF32 x.vfmt x.dims bytes
  if scaledFmt x.vfmt then e.map fun w => (flMul (fl w) (fl scale)).v else e

/-- The norm r of R85 that goes with a stored vector of a COSINE index. -/
def storedNorm (x : Index) (bytes : List Byte) (scale : Word32) : Word32 :=
  if x.metric = 1 then (normalise (storedVals x bytes scale)).1.v else 0

/-- A source vector converted, normalised for COSINE and quantised (R239, R244). -/
def storeVec (x : Index) (fmt : Nat) (src : List Byte) : StoredVec :=
  let (v, s0) := queryFp x fmt src
  let (codes, scale, sats) :=
    if !scaledFmt x.vfmt then
      let rs := v.map fun w => convertTo x.vfmt (f32Val w)
      (rs.map (·.code), 0x3F800000#32, (rs.filter (·.sat)).length)
    else if x.scale = 2 then
      let e := nestedScale 255 (rawScale x.vfmt v)
      let (q, c) := quantRow x.vfmt e v
      (q, e, c.sat)
    else
      let (sc, q, c) := quantSide x.vfmt v
      (q, elemF32 6 sc, c.sat)
  let bytes := packRow x.vfmt codes
  { bytes := bytes, scale := scale, norm := storedNorm x bytes scale, vals := storedVals x bytes scale, sats := s0 + sats }

/-- The list of an inserted vector: the best cell, then the best list in it (R239). -/
def insertList (x : Index) (vals : List Word32) : Nat × Nat :=
  let (q, s0) := coarseVec x vals
  let (e1, s1) := cellKeys x q
  let c := ((topEntries 1 e1).map (·.2)).headD 0
  let (e2, s2) := listKeys x q [c]
  (((topEntries 1 e2).map (·.2)).headD 0, s0 + s1 + s2)

/-- A stored row of the index's coarse format, dequantised. -/
def rowVals (fmt n : Nat) (r : FpRow) : List Word32 :=
  let e := r.elems fmt n
  if scaledFmt fmt then e.map fun w => (flMul (fl w) (fl r.scale)).v else e

/-- The code of a vector of a list (R186): for IP and COSINE of the residual, for L2 of the vector. -/
def codeVec (x : Index) (vals : List Word32) (l : Nat) : List Byte :=
  let v := if x.metric = 2 then vals
    else (vals.zip (rowVals x.cfmt x.dims (centRow x (x.cells1 + l)))).map fun (a, c) => (flSub (fl a) (fl c)).v
  let d := bookDims x
  (List.range x.code).map fun j =>
    let sub := (v.drop (j * d)).take d
    let es := (List.range 256).map fun c =>
      let r := bookRow x j c
      (sortable (exactL2 sub (r.elems x.cfmt d) (r.scaleOf x.cfmt)).v, c)
    BitVec.ofNat 8 (((topEntries 1 es).map (·.2)).headD 0)

end Sys2Proof.Machine
end

