-- ==== Sys2Proof/Machine/Media.lean ====
section
/-! DEFINITION. The flash medium: geometry, dies, superblocks, the stream of codewords, the journal, segment maps and
log records (10 R248–R258, R262, R265, R268–R272). -/

namespace Sys2Proof.Machine

/-! ### Geometry (R248, R252) -/

/-- Bytes of a page, spare area included. -/
def pageBytes : Nat := 18432
/-- Data pages in a superblock's stream. -/
def streamPages : Nat := 3840

/-- Die number of a channel, CE and LUN. -/
def dieNum (c e l : Nat) : Nat := 16 * c + 4 * e + l
/-- Die set of a die. -/
def setOfDie (d : Nat) : Nat := 16 * (d / 256) + 4 * (d / 4 % 4) + d % 4
/-- Die of a die set on the k-th channel of its half. -/
def setDie (s k : Nat) : Nat := dieNum (16 * (s / 16) + k) (s % 16 / 4) (s % 4)
/-- The dies of a die set. -/
def setDies (s : Nat) : List Nat := (List.range 16).map (setDie s)

/-- The channel of the half, 0–15, of a data page of the stream of block b; the parity page rotates (R252). -/
def pageChan (b page : Nat) : Nat :=
  let par := (b + page / 15) % 16
  if page % 15 < par then page % 15 else page % 15 + 1

/-- The die that a data page of a superblock lies on. -/
def pageDie (set b page : Nat) : Nat := setDie set (pageChan b page)

/-- Places of codewords in the stream: each takes its bytes, and none crosses a page (R250, R258). -/
def placeWords : Nat → Nat → List Nat → List (Nat × Nat)
  | _, _, [] => []
  | page, off, n :: r =>
    let (p, o) := if off + n > pageBytes then (page + 1, 0) else (page, off)
    (p, o) :: placeWords p (o + n) r

/-! ### Dies -/

/-- A die that nothing has been found of. -/
def dieReset (d : Nat) : Die :=
  { id := d, state := .absent, rebuild := false, volume := 0, mtS := 0, reserve := [0, 0, 0, 0], bad := [] }

/-- A die. -/
def State.die (s : State) (d : Nat) : Die := (s.flash.dies.find? fun x => x.id == d).getD (dieReset d)

/-- Put a die back. -/
def State.setDie (s : State) (x : Die) : State :=
  { s with flash := { s.flash with dies := putBy Die.id x s.flash.dies } }

/-- Flash counter i of Table FL-15 raised by n. -/
def State.bumpFlash (s : State) (i n : Nat) : State :=
  { s with flash := { s.flash with counters := bumpAt s.flash.counters i n } }

/-- A journal record of this tick (Table FL-11). Its ARGS words are the model's order of what the table names. -/
def State.jot (s : State) (type : Nat) (args : List Nat) : State :=
  let r : JRec := { type := type, serial := s.flash.serial, tick := s.tick.count, args := args.map (BitVec.ofNat 64) }
  { s with flash := { s.flash with jPending := s.flash.jPending ++ [r], serial := s.flash.serial + 1 } }

/-- The code of a die state (Table FL-14). -/
def DieState.code : DieState → Nat
  | .absent => 0 | .good => 1 | .failed => 2 | .retired => 3

/-- A die changes state: journal and MEDIA event (R255). -/
def State.dieTo (s : State) (d : Nat) (st : DieState) : State :=
  let x := s.die d
  ((s.setDie { x with state := st }).jot 7 [d, st.code]).raiseNamed .dieState [d, st.code]

/-- A die becomes FAILED; the rebuild of its set starts at the next boundary. -/
def State.dieFails (s : State) (d : Nat) : State := if (s.die d).state = .good then s.dieTo d .failed else s

/-! ### Superblocks and volumes -/

/-- Order of superblocks: die set, plane, block. -/
def sbKey (set plane block : Nat) : Nat := (set * 4 + plane) * 2048 + block
/-- A superblock that is not listed: free, never erased. -/
def sbReset (set plane block : Nat) : Superblock :=
  { set := set, plane := plane, block := block, erases := 0, state := .free, page := 0, off := 0, programmed := [], suspended := false }

/-- A superblock. -/
def State.sb (s : State) (set plane block : Nat) : Superblock :=
  (s.flash.sbs.find? fun x => x.set == set && x.plane == plane && x.block == block).getD (sbReset set plane block)

/-- Put a superblock back. -/
def State.setSb (s : State) (x : Superblock) : State :=
  let sbs := putBy (fun y : Superblock => sbKey y.set y.plane y.block) x s.flash.sbs
  { s with flash := { s.flash with sbs := sbs } }

/-- The index of the volume that a die set belongs to. -/
def State.volumeOf (s : State) (set : Nat) : Option Nat :=
  s.flash.vols.findIdx? fun v => v.diesets.toNat.testBit set

/-- Whether a die set takes new writes: formatted, and every die GOOD (R255). -/
def State.setWrites (s : State) (set : Nat) : Bool :=
  (s.volumeOf set).isSome && (setDies set).all fun d => (s.die d).state == .good

/-- Blocks of the root areas, which no superblock takes (R273). -/
def rootBlock (set plane block : Nat) : Bool := (set == 0 || set == 16) && plane == 0 && decide (block < 16)

/-- Whether a superblock can be taken. -/
def State.sbFree (s : State) (x : Superblock) : Bool :=
  x.state == .free && s.setWrites x.set && !rootBlock x.set x.plane x.block

/-- The first superblock of a die set that was never used. -/
def State.freshSb (s : State) (set : Nat) : Option Superblock :=
  (List.range 4).findSome? fun p => (List.range 2048).findSome? fun b =>
    if s.flash.sbs.any (fun x => x.set == set && x.plane == p && x.block == b) then none
    else if rootBlock set p b then none else some (sbReset set p b)

/-- The free superblock with the lowest erase count, ties to the lower die set, plane and block (R265). -/
def State.pickSb (s : State) : Option Superblock :=
  let fresh := ((List.range 32).filter s.setWrites).findSome? s.freshSb
  let better (best : Option Superblock) (x : Superblock) : Option Superblock :=
    match best with
    | none => some x
    | some y =>
      let before := decide (x.erases < y.erases) ||
        (x.erases == y.erases && decide (sbKey x.set x.plane x.block < sbKey y.set y.plane y.block))
      if before then some x else best
  (s.flash.sbs.filter s.sbFree).foldl better fresh

/-- Data bytes of one superblock. -/
def sbBytes : Nat := 60 * 1048576

/-- Data capacity of the volumes less 12 % overprovisioning (R269), and the bytes that valid codewords take. -/
def State.flashRoom (s : State) : Nat :=
  ((List.range 32).filter s.setWrites).length * (8192 * sbBytes) * 88 / 100
def State.flashHeld (s : State) : Nat := (s.flash.words.map fun w => w.user.length + 128).sum
/-- Whether `n` more bytes leave the overprovisioning free (R269). -/
def State.flashFits (s : State) (n : Nat) : Bool := decide (s.flashHeld + n ≤ s.flashRoom)

/-- The MEDIA event of a write refused for overprovisioning, at most once per tick (R269). -/
def State.tellFull (s : State) : State :=
  if s.flash.opTold then s
  else { s with flash := { s.flash with opTold := true } }.raiseNamed .mediaRefill [0]

/-! ### Writing the stream (R250, R252, R258) -/

/-- A codeword to be written: user bytes and metadata. -/
structure CwData where
  user : List Byte
  scale : Word32
  norm : Word32
  tag : Word32
  crc : Word32
  deriving DecidableEq, Repr

/-- Where the next codeword of a superblock may stand: a page is programmed once, so that what follows a programmed page
begins in the next one (assumption 17). -/
def Superblock.nextPos (x : Superblock) : Nat × Nat :=
  if x.programmed.contains x.page then (x.page + 1, 0) else (x.page, x.off)

/-- Codewords go to an open superblock from its stream position; none where they do not fit in what is left of it. -/
def State.writeIn (s : State) (x : Superblock) (ws : List CwData) : Option (State × FlashPlace) :=
  let places := placeWords x.nextPos.1 x.nextPos.2 (ws.map fun w => w.user.length + 128)
  match places.head?, places.getLast?, ws.getLast? with
  | some f, some l, some wl =>
    if l.1 ≥ streamPages then none
    else
      let new := (places.zip ws).map fun (q, w) =>
        ({ set := x.set, plane := x.plane, block := x.block, page := q.1, off := q.2, user := w.user, scale := w.scale
           norm := w.norm, tag := w.tag, crc := w.crc } : Codeword)
      let s1 := s.setSb { x with state := .open_, page := l.1, off := l.2 + wl.user.length + 128 }
      let s2 := { s1 with flash := { s1.flash with words := s1.flash.words ++ new } }
      some (s2, { set := x.set, plane := x.plane, block := x.block, page := f.1, off := f.2 })
  | _, _, _ => none

/-- A superblock is closed for writing. -/
def State.closeSb (s : State) (k : Nat × Nat × Nat) : State :=
  let x := s.sb k.1 k.2.1 k.2.2
  if x.state = .open_ then s.setSb { x with state := .full } else s

/-- Codewords that belong together go to the open superblock of a stream, or to a new one. The state, the superblock that
is open then, and where the first codeword stands. -/
def State.writeTo (s : State) (open_ : Option (Nat × Nat × Nat)) (ws : List CwData) :
    Option (State × (Nat × Nat × Nat) × FlashPlace) :=
  let here : Option (State × FlashPlace) := match open_ with
    | some k =>
      let x := s.sb k.1 k.2.1 k.2.2
      if x.state == SbState.open_ && s.setWrites x.set then s.writeIn x ws else none
    | none => none
  match here with
  | some (s1, p) => some (s1, (p.set, p.plane, p.block), p)
  | none =>
    let s0 := match open_ with | some k => s.closeSb k | none => s
    match s0.pickSb with
    | none => none
    | some x => (s0.writeIn x ws).map fun (s1, p) => (s1, (p.set, p.plane, p.block), p)

/-- Codewords for the insert log. -/
def State.writeLogWords (s : State) (ws : List CwData) : Option (State × FlashPlace) :=
  (s.writeTo s.flash.logOpen ws).map fun (s1, k, p) => ({ s1 with flash := { s1.flash with logOpen := some k } }, p)

/-- Codewords of a segment. -/
def State.writeSegWords (s : State) (ws : List CwData) : Option (State × FlashPlace) :=
  (s.writeTo s.flash.segOpen ws).map fun (s1, k, p) => ({ s1 with flash := { s1.flash with segOpen := some k } }, p)

/-- The codeword that begins at a place. -/
def State.cwAt (s : State) (p : FlashPlace) : Option Codeword :=
  s.flash.words.find? fun w =>
    w.set == p.set && w.plane == p.plane && w.block == p.block && w.page == p.page && w.off == p.off

/-- Codewords at places are valid no longer. -/
def State.dropWords (s : State) (ps : List FlashPlace) : State :=
  let keep := s.flash.words.filter fun w =>
    !(ps.contains { set := w.set, plane := w.plane, block := w.block, page := w.page, off := w.off })
  { s with flash := { s.flash with words := keep } }

/-- Pieces of stored bytes: 1,024 to a codeword (R258). -/
def codePieces (bs : List Byte) : List (List Byte) := chunksOf 1024 (bs.length / 1024 + 1) bs

/-- TAG of a piece of a vector, and of any other codeword over its locator (Table FL-3). -/
def vecTag (vid : Word64) (piece : Nat) : Word32 := BitVec.ofNat 32 (crc32c (leBytes 8 vid.toNat ++ leBytes 1 piece))
def locTag (loc : Nat) : Word32 := BitVec.ofNat 32 (crc32c (leBytes 8 loc))

/-! ### Locators and segment maps (R256, R257) -/

/-- The T2 locators of Table FL-5. -/
def segLocator (sheaf addr : Nat) : Nat := 2 ^ 62 + sheaf * 2 ^ 40 + addr
def logLocator (lsn : Nat) : Nat := 2 ^ 63 + lsn

/-- What a locator names; reserved types name nothing. -/
inductive Locator where
  | segment (sheaf addr : Nat)
  | log (lsn : Nat)
  | reserved
  deriving DecidableEq, Repr

/-- Read a locator. -/
def locator (w : Nat) : Locator :=
  if field w 56 6 ≠ 0 then .reserved
  else
    match field w 62 2 with
    | 1 => .segment (field w 40 16) (field w 0 40)
    | 2 => if field w 40 16 = 0 then .log (field w 0 40) else .reserved
    | _ => .reserved

/-- A segment map's sheaf entry (Table FL-7). -/
structure SegEntry where
  place : FlashPlace
  dirLen : Nat
  /-- STORED of each block -/
  sizes : List Nat
  deriving DecidableEq, Repr

/-- The 112 bytes of a sheaf entry. -/
def segEntryBytes (e : SegEntry) : List Byte :=
  let sizes := e.sizes.zipIdx.foldl (fun a x => a + (x.1 - 1) % 4096 * 2 ^ (12 * x.2)) 0
  leBytes 8 (word [(59, 5, e.place.set), (57, 2, e.place.plane), (46, 11, e.place.block), (34, 12, e.place.page),
    (19, 15, e.place.off), (7, 12, e.dirLen), (0, 7, e.sizes.length)]).toNat ++ leBytes 96 sizes ++ leBytes 8 0

/-- The sheaf entry that 112 bytes hold. -/
def segEntryOf (b : List Byte) : SegEntry :=
  let w := wordAt b 0
  { place := { set := field w 59 5, plane := field w 57 2, block := field w 46 11, page := field w 34 12, off := field w 19 15 }
    dirLen := field w 7 12
    sizes := (List.range (field w 0 7)).map fun i => field (natAt b 8 96) (12 * i) 12 + 1 }

/-- A segment map's header (Table FL-6): SHEAVES, LIST, GENERATION, WRITE_TICK, ROWS. -/
structure SegHdr where
  sheaves : Nat
  list : Nat
  gen : Nat
  writeTick : Nat
  rows : Nat
  deriving DecidableEq, Repr

/-- The 64 bytes of a map header. -/
def segHdrBytes (h : SegHdr) : List Byte :=
  wordsBytes [word [(32, 32, h.sheaves), (0, 22, h.list)], word [(32, 32, h.gen)], BitVec.ofNat 64 h.writeTick,
    BitVec.ofNat 64 h.rows, 0, 0, 0, 0]

/-- The map header at a node address. -/
def State.segHdr (s : State) (a : Nat) : SegHdr :=
  let w (i : Nat) : Nat := memNat s.t1 (a + 8 * i) 8
  { sheaves := field (w 0) 32 32, list := field (w 0) 0 22, gen := field (w 1) 32 32, writeTick := w 2, rows := w 3 }

/-- Sheaf entry t of a map. -/
def State.segEntry (s : State) (a t : Nat) : SegEntry := segEntryOf (memReadBytes s.t1 (a + 64 + 112 * t) 112)

/-- Sizes of a sheaf's codewords: the directory, then each block's pieces (R258). -/
def sheafSizes (e : SegEntry) : List Nat :=
  (e.dirLen + 128) :: e.sizes.flatMap fun n =>
    (List.range (ceilDiv n 1024)).map fun q => min 1024 (n - 1024 * q) + 128

/-- Where the pieces of block i stand (R258). -/
def blockPlaces (e : SegEntry) (i : Nat) : List FlashPlace :=
  let ps := placeWords e.place.page e.place.off (sheafSizes e)
  let before := 1 + ((e.sizes.take i).map fun n => ceilDiv n 1024).sum
  ((ps.drop before).take (ceilDiv (e.sizes.getD i 0) 1024)).map fun q => { e.place with page := q.1, off := q.2 }

/-- Every codeword place of a sheaf. -/
def sheafPlaces (e : SegEntry) : List FlashPlace :=
  (placeWords e.place.page e.place.off (sheafSizes e)).map fun q => { e.place with page := q.1, off := q.2 }

/-- Rows of a segment's sheaves: R = min(64, ⌊65,536 ÷ stride⌋). -/
def segRows (stride : Nat) : Nat := min 64 (65536 / stride)

/-- Stored bytes that codewords at places hold, joined; none where one is missing. -/
def State.joinWords (s : State) (ps : List FlashPlace) : Option (List Byte) :=
  ps.foldl (fun a p => match a, s.cwAt p with | some b, some w => some (b ++ w.user) | _, _ => none) (some [])

/-- A VECTORS sheaf read whole from flash: header and stored payload. -/
def State.segSheaf (s : State) (e : SegEntry) : Option (List Byte × List Byte) :=
  match sheafPlaces e with
  | [] => none
  | d :: rest =>
    match s.cwAt d, s.joinWords rest with
    | some w, some blocks => some (w.user.take 64, w.user.drop 64 ++ blocks)
    | _, _ => none

/-! ### The insert log (R244, R262) -/

/-- A record as it lies in its LOG sheaf: header, payload of at least 4,096 bytes. The sheaf holds the one record
(assumption 17). -/
def logSheaf (s : State) (loc : Nat) (f o : Nat) (rec : List Byte) : List Byte :=
  let pay := bytesAt rec 0 (max 4096 (ceilDiv rec.length 64 * 64))
  let h : SheafHdr :=
    { magic := 0x5346, kind := 0x0D, fmt := 8, smode := 0, comp := 0, blockLen := 0, live := false, clean := true
      plen := pay.length / 64, sscale := 0, rows := 1, stored := pay.length, rowLen := rec.length, obj := o, fn := f
      part := loc % 2 ^ 32, gen := 0, seq := 0, crc := crc32c pay, tick := s.tick.count, hcrc := 0 }
  shBytes h ++ pay

/-- The codewords of a record's LOG sheaf. -/
def logWords (s : State) (lsn f o : Nat) (rec : List Byte) : List CwData :=
  (codePieces (logSheaf s lsn f o rec)).map fun p =>
    { user := p, scale := 0, norm := 0, tag := locTag (logLocator lsn), crc := BitVec.ofNat 32 (crc32c p) }

/-- Places of the codewords of a record. -/
def logPlaces (e : LogEntry) : List FlashPlace :=
  let n := 64 + max 4096 (ceilDiv e.bytes.length 64 * 64)
  let sizes := (List.range (ceilDiv n 1024)).map fun q => min 1024 (n - 1024 * q) + 128
  (placeWords e.page e.off sizes).map fun q => { set := e.set, plane := e.plane, block := e.block, page := q.1, off := q.2 }

/-- A record goes into the log: it takes the next log sequence number and a place in the log superblock. A record that
finds no place is not durable until there is one. -/
def State.logRecord (s : State) (partner : Bool) (f o : Nat) (rec : List Byte) (vec : Option (Nat × Nat × Nat × Nat)) :
    State × Nat :=
  let n := s.flash.nextLsn
  let (s1, p) := match s.writeLogWords (logWords s n f o rec) with
    | some (t, p) => (t, p)
    | none => (s, { set := 0, plane := 0, block := 0, page := streamPages, off := 0 })
  let e : LogEntry :=
    { lsn := n, bytes := rec, set := p.set, plane := p.plane, block := p.block, page := p.page, off := p.off
      durable := false, partner := partner, vec := vec }
  ({ s1 with flash := { s1.flash with log := s1.flash.log ++ [e], nextLsn := n + 1 } }, n)

/-- The log record that holds the full vector of a position. -/
def State.vecLog (s : State) (f o l p : Nat) : Option LogEntry :=
  s.flash.log.find? fun e => e.vec == some (f, o, l, p)

/-- Whether a record's pages, and every data page of its stripes before them, have been programmed (R262). -/
def State.recDurable (s : State) (e : LogEntry) : Bool :=
  let x := s.sb e.set e.plane e.block
  (logPlaces e).all fun p => decide (p.page < streamPages) &&
    (List.range (p.page % 15 + 1)).all fun i => x.programmed.contains (p.page / 15 * 15 + i)

/-! ### Bad blocks and uncorrectable codewords (R255, R268) -/

/-- A bad block is replaced from the reserve of its die and plane; with none left the die is FAILED. -/
def State.badBlock (s : State) (d plane block : Nat) : State :=
  let x := s.die d
  let n := x.reserve.getD plane 0
  let s1 := s.bumpFlash 8 1
  if n = 0 then s1.dieFails d
  else
    let s2 := (s1.setDie { x with reserve := x.reserve.set plane (n - 1) }).jot 6 [d, plane, block, n - 1]
    { s2 with flash := { s2.flash with remaps := s2.flash.remaps ++ [(d, plane, block, n - 1)] } }

/-- An uncorrectable codeword is counted for its die and its block: 64 within 1,024 ticks fail the die, 8 within 16,384
make the block bad. -/
def State.uncorrectable (s : State) (p : FlashPlace) : State :=
  let d := pageDie p.set p.block p.page
  let now := s.tick.count.toNat
  let x := s.die d
  let bad := (x.bad.filter fun t => decide (now < t.toNat + 1024)) ++ [s.tick.count]
  let s1 := s.setDie { x with bad := bad }
  let all := (s1.flash.blockBad.filter fun b => decide (now < b.2.2.2.toNat + 16384)) ++ [(d, p.plane, p.block, s.tick.count)]
  let mine := all.filter fun b => b.1 == d && b.2.1 == p.plane && b.2.2.1 == p.block
  let kept := if mine.length ≥ 8 then all.filter fun b => !mine.contains b else all
  let s2 := { s1 with flash := { s1.flash with blockBad := kept } }
  let s3 := if mine.length ≥ 8 then s2.badBlock d p.plane p.block else s2
  if bad.length ≥ 64 then s3.dieFails d else s3

/-- Whether the die of a place is GOOD or only retired from writing, so that a read can be served from it. -/
def State.placeReads (s : State) (p : FlashPlace) : Bool := (s.die (pageDie p.set p.block p.page)).state == .good

end Sys2Proof.Machine
end

