-- ==== Sys2Proof/Machine/Updates.lean ====
section
/-! DEFINITION. Updates: descriptors, log records, replication, the loading of sheaves and the apply
(09 R238–R245, 07 R181, R502). -/

namespace Sys2Proof.Machine

/-! ### The domain of this node (R62, R240) -/

/-- The shard domain that this node belongs to. -/
def State.ownDomain (s : State) : Option Domain :=
  s.faults.domains.find? fun d => d.node0 == s.nodeId || d.node1 == s.nodeId

/-- This node's replica number in its domain. -/
def State.replica (s : State) : Nat :=
  match s.ownDomain with | some d => if d.node0 = s.nodeId then 0 else 1 | none => 0

/-- The other node of the domain, where there is one. -/
def State.partner (s : State) : Option Nat :=
  match s.ownDomain with
  | some d =>
    let p := if d.node0 = s.nodeId then d.node1 else d.node0
    if p = 0xFFFFFFFF || p = s.nodeId then none else some p
  | none => none

/-- The partner's beacon has been missing for two ticks, or there is no partner (R239). -/
def State.partnerGone (s : State) : Bool :=
  match s.partner with
  | none => true
  | some p => match s.tick.peers.find? fun b => b.node == p with | some b => decide (2 ≤ b.age) | none => true

/-! ### Descriptors (R238, Table TU-9) -/

def upCount (d : Desc) : Nat := field (d.w 1) 0 13 + 1
def upObject (d : Desc) : Nat := field (d.w 1) 32 16
def upDfmt (d : Desc) : Nat := field (d.w 1) 24 8
def upPass (d : Desc) : Nat := field (d.w 5) 0 32

/-- The form of an update descriptor. -/
def upForm (op : Nat) (d : Desc) : Bool :=
  let c := upCount d
  let ins := op == 0x21
  let row := op == 0x27
  (if ins || row then decide (c ≤ 256) else decide (c ≤ 4096)) &&
    (if ins then decide (3 ≤ upDfmt d) && decide (upDfmt d ≤ 7)
     else if row then decide (5 ≤ upDfmt d) && decide (upDfmt d ≤ 7) else upDfmt d == 0) &&
    d.w 2 % 64 == 0 && d.w 3 % 64 == 0 && d.w 4 % 64 == 0 && (ins || row || d.w 3 == 0) &&
    (row || upPass d == 0) && (op == 0x23 || (row && upPass d != 0) || d.w 6 == 0) &&
    zeros d [(1, 13, 11), (7, 0, 64)] && decide (0x40 ≤ d.cls) && decide (d.cls ≤ 0x4E)

/-- The checks of R238: form, the kind of the object, that it exists, that an index takes inserts. -/
def upCheck (op : Nat) (s : State) (d : Desc) : Option Nat :=
  let ix := s.liveIndex d.fn (upObject d)
  let tb := s.liveTable d.fn (upObject d)
  if !upForm op d then some stBad
  else
    match op with
    | 0x21 | 0x22 =>
      match ix with
      | some x => if op = 0x21 && x.digest.isNone then some stNoIndex else none
      | none => if tb.isSome then some stBad else some stNoIndex
    | 0x23 => if ix.isNone && tb.isNone then some stNoIndex else none
    | _ => if tb.isSome then none else if ix.isSome then some stBad else some stNoTable

/-! ### Log records (R244, Table TU-12) -/

/-- The bytes of an update item's log record. -/
def recBytes (u : UpItem) : List Byte :=
  let n := u.payload.length
  let pay := u.payload ++ List.replicate (ceilDiv n 64 * 64 - n) 0
  let h := wordsBytes [u.seq,
    word [(48, 16, u.obj), (36, 12, u.fn), (33, 3, u.ring), (32, 1, u.origin), (24, 8, u.op), (0, 12, u.item)],
    u.tick, u.target, word [(32, 32, u.pass.toNat), (0, 32, u.scale.toNat)], u.attr, BitVec.ofNat 64 n]
  h ++ leBytes 8 (crc32c (pay ++ h)) ++ pay

/-- The item that a log record holds; none where its CRC, length, reserved bits or OP are wrong. -/
def recItem (r : LogRec) : Option UpItem :=
  let b := r.bytes
  let w (i : Nat) : Nat := wordAt b (8 * i)
  let n := field (w 6) 0 32
  let op := field (w 1) 24 8
  let ok := decide (64 ≤ b.length) && b.length == 64 + ceilDiv n 64 * 64 && w 7 == crc32c (b.drop 64 ++ b.take 56) &&
    field (w 1) 12 12 == 0 && field (w 6) 32 32 == 0 &&
    (op == 0x21 || op == 0x22 || op == 0x27 || op == 0x28)
  if ok then
    some { origin := field (w 1) 32 1, fn := field (w 1) 36 12, ring := field (w 1) 33 3, seq := BitVec.ofNat 64 (w 0)
           item := field (w 1) 0 12, op := op, obj := field (w 1) 48 16, cls := r.cls, target := BitVec.ofNat 64 (w 3)
           pass := BitVec.ofNat 32 (field (w 4) 32 32), scale := BitVec.ofNat 32 (field (w 4) 0 32)
           attr := BitVec.ofNat 64 (w 5), payload := bytesAt b 64 n, dfmt := r.dfmt, tick := BitVec.ofNat 64 (w 2)
           held := false }
  else none

/-- Function of a log record. -/
def recFn (b : List Byte) : Nat := field (wordAt b 8) 36 12
/-- TICK of a log record. -/
def recTick (b : List Byte) : Nat := wordAt b 16

/-- Bytes that a log record's LOG sheaf takes on flash. -/
def recCost (u : UpItem) : Nat := 64 + max 4096 (64 + ceilDiv u.payload.length 64 * 64) + 128 * 6

/-- Flash bytes of a function: its log records and its segments (Table HI-4, FLASH_GIB). -/
def State.flashOf (s : State) (f : Nat) : Nat :=
  ((s.flash.log.filter fun e => recFn e.bytes == f).map fun e => 64 + max 4096 (ceilDiv e.bytes.length 64 * 64)).sum +
    ((s.flash.segs.filter fun g => g.fn == f).map fun g =>
      ((List.range (s.segHdr g.map).sheaves).map fun t =>
        (let e := s.segEntry g.map t; e.dirLen + e.sizes.sum)).sum).sum

/-- A function's T2 partition, bytes. -/
def State.flashGrant (s : State) (f : Nat) : Nat :=
  match s.compEntry f with | some e => entFlash e * 2 ^ 30 | none => 0

/-! ### Fetching an update (Table TU-10) -/

/-- An item of a descriptor, with no payload. -/
def upItem (s : State) (d : Desc) (op i : Nat) (target : Nat) : UpItem :=
  { origin := s.replica, fn := d.fn, ring := d.ring, seq := d.seq, item := i, op := op, obj := upObject d, cls := d.cls
    target := BitVec.ofNat 64 target, pass := BitVec.ofNat 32 (upPass d), scale := 0, attr := 0, payload := []
    dfmt := upDfmt d, tick := s.tick.count + 1, held := false }

/-- Item i of an INSERT: its vector converted, quantised and given its list; the saturations of that. -/
def State.insertItem (s : State) (x : Index) (d : Desc) (i : Nat) : UpItem × Nat :=
  let n := rowBytes (upDfmt d) x.dims
  let v := storeVec x (upDfmt d) (memReadBytes s.hostMem (d.w 2 + i * stride64 n) n)
  let (l, sat) := insertList x v.vals
  ({ upItem s d 0x21 i l with scale := v.scale, attr := BitVec.ofNat 64 (memNat s.hostMem (d.w 3 + 8 * i) 8)
                              payload := v.bytes }, v.sats + sat)

/-- Item i of a ROWWRITE: the source row. -/
def State.rowItem (s : State) (t : TableDef) (d : Desc) (i : Nat) : UpItem :=
  let n := rowBytes (upDfmt d) t.elems
  { upItem s d 0x27 i (memNat s.hostMem (d.w 3 + 8 * i) 8) with
    attr := BitVec.ofNat 64 (d.w 6), payload := memReadBytes s.hostMem (d.w 2 + i * stride64 n) n }

/-- The items of an update descriptor other than LOAD, with the saturations met. -/
def State.upItems (s : State) (d : Desc) (op : Nat) : List UpItem × Nat :=
  let is := List.range (upCount d)
  match op with
  | 0x21 =>
    match s.index d.fn (upObject d) with
    | some x => let r := is.map (s.insertItem x d); (r.map (·.1), (r.map (·.2)).sum)
    | none => ([], 0)
  | 0x27 =>
    match s.tableDef d.fn (upObject d) with
    | some t => (is.map (s.rowItem t d), 0)
    | none => ([], 0)
  | _ => (is.map fun i => upItem s d op i (memNat s.hostMem (d.w 2 + 8 * i) 8), 0)

/-- The outcome record of an update descriptor. -/
def State.upResult (s : State) (origin f r : Nat) (q : Word64) : Option UpResult :=
  s.tables.results.find? fun x => x.origin == origin && x.fn == f && x.ring == r && x.seq == q

/-- Change it, or add it. -/
def State.mapResult (s : State) (origin f r : Nat) (q : Word64) (g : UpResult → UpResult) : State :=
  let same (x : UpResult) : Bool := x.origin == origin && x.fn == f && x.ring == r && x.seq == q
  let rs := if s.tables.results.any same then s.tables.results.map fun x => if same x then g x else x
    else s.tables.results ++ [g { origin := origin, fn := f, ring := r, seq := q, tick := 0, status := 0, words := []
                                  applied := 0, late := false, saturated := false, open_ := true }]
  { s with tables := { s.tables with results := rs } }

/-- The highest SEQ applied of an origin, function and ring (R245). -/
def State.watermark (s : State) (origin f r : Nat) : Option Word64 :=
  (s.tables.watermarks.find? fun w => w.1 == origin && w.2.1 == f && w.2.2.1 == r).map fun w => w.2.2.2

/-- Whether a SEQ is at or below its watermark. -/
def State.applied (s : State) (origin f r : Nat) (q : Word64) : Bool :=
  match s.watermark origin f r with | some w => seqLe q w | none => false

/-- A descriptor fetched again after a reset completes as it did (R245, R375). -/
def State.rebuild (s : State) (d : Desc) : State :=
  match s.host.past.find? fun w => w.fn == d.fn && w.ring == d.ring && w.seq == d.seq with
  | some w => match w.done with
    | some c => s.finish d.fn d.ring d.seq c w.bufs
    | none => s.endWith d stOk
  | none => if (s.upResult s.replica d.fn d.ring d.seq).isSome then s else s.endWith d stOk

/-- An update is fetched: its items are logged and wait for the apply of the next tick. One that is fetched again after a
reset, and whose items still wait, is not taken twice. -/
def updateBody (op : Nat) (s : State) (d : Desc) : State :=
  let waits := s.tables.queue.any fun u => u.origin == s.replica && u.fn == d.fn && u.ring == d.ring && u.seq == d.seq
  if s.applied s.replica d.fn d.ring d.seq then s.rebuild d
  else if waits then s
  else
    let (us, sat) := s.upItems d op
    let cost := (us.map recCost).sum
    if op = 0x21 && !s.flashFits cost then (s.tellFull).endWith d stOverQuota
    else if s.flashOf d.fn + cost > s.flashGrant d.fn then s.endWith d stOverQuota
    else
      let s1 := us.foldl (fun s u => (s.logRecord false d.fn (upObject d) (recBytes u) none).1) s
      let s2 := s1.mapResult s.replica d.fn d.ring d.seq fun r => { r with saturated := decide (sat > 0) }
      { s2 with tables := { s2.tables with queue := s2.tables.queue ++ us } }

/-- INSERT (R238, R239). -/
def execInsert (d : Desc) (s : State) : Host.Outcome State Fault Refusal :=
  .next (s.runDesc d 0x21 (upCheck 0x21) oneSlot (updateBody 0x21))

/-- DELETE (R238, R239). -/
def execDelete (d : Desc) (s : State) : Host.Outcome State Fault Refusal :=
  .next (s.runDesc d 0x22 (upCheck 0x22) oneSlot (updateBody 0x22))

/-- ROWWRITE (R238, R239). -/
def execRowwrite (d : Desc) (s : State) : Host.Outcome State Fault Refusal :=
  .next (s.runDesc d 0x27 (upCheck 0x27) oneSlot (updateBody 0x27))

/-- ROWDELETE (R238, R239). -/
def execRowdelete (d : Desc) (s : State) : Host.Outcome State Fault Refusal :=
  .next (s.runDesc d 0x28 (upCheck 0x28) oneSlot (updateBody 0x28))

/-! ### LOAD (R238, R240) -/

/-- A LOAD begins: its sheaves are read from the shared tier as the moves of the load land. -/
def loadBody (s : State) (d : Desc) : State :=
  if s.applied s.replica d.fn d.ring d.seq then s.rebuild d
  else
    let j : LoadJob :=
      { fn := d.fn, ring := d.ring, seq := d.seq, obj := upObject d, count := upCount d, daddr := d.w 2, raddr := d.w 4
        tag := BitVec.ofNat 32 (field (d.w 5) 32 32), arg := BitVec.ofNat 64 (d.w 6), landed := [], next := d.w 2
        failed := false }
    { s with tables := { s.tables with loads := s.tables.loads ++ [j] } }

/-- LOAD (R238, R240). -/
def execLoad (d : Desc) (s : State) : Host.Outcome State Fault Refusal :=
  .next (s.runDesc d 0x23 (upCheck 0x23) oneSlot loadBody)

/-- A load in progress. -/
def State.loadAt (s : State) (f r : Nat) (q : Word64) : Option LoadJob :=
  s.tables.loads.find? fun j => j.fn == f && j.ring == r && j.seq == q

/-- Put a load back. -/
def State.setLoad (s : State) (j : LoadJob) : State :=
  let ls := s.tables.loads.map fun x => if x.fn == j.fn && x.ring == j.ring && x.seq == j.seq then j else x
  { s with tables := { s.tables with loads := ls } }

/-- A load ends. -/
def State.dropLoad (s : State) (j : LoadJob) : State :=
  let ls := s.tables.loads.filter fun x => !(x.fn == j.fn && x.ring == j.ring && x.seq == j.seq)
  { s with tables := { s.tables with loads := ls } }

/-- Kinds that the image of a load of an object may hold. -/
def State.loadKind (s : State) (j : LoadJob) (k : Nat) : Bool :=
  k == 0x0C || (if (s.liveIndex j.fn j.obj).isSome then k == 7 || k == 8 else k == 0x0A || k == 0x0B)

/-- The SCALE sheaf that covers what comes next in a sequence of sheaves (R76). -/
def lastScale (l : List (List Byte × List Byte)) : Option (List Byte × List Byte) :=
  l.reverse.find? fun x => (shOf x.1).kind == 0x0C

/-- The next sheaf of a load as it stands in host memory: header, stored bytes, and the address after it. -/
def State.loadSheaf (s : State) (j : LoadJob) : List Byte × List Byte × Nat :=
  let hb := memReadBytes s.hostMem j.next 64
  let n := min (shOf hb).stored 131072
  (hb, memReadBytes s.hostMem (j.next + 64) n, j.next + 64 + ceilDiv n 64 * 64)

/-- The next sheaf of a load lands and passes its check, or fails: a first failure is retried in the next tick, a second
ends the load with BAD_DESCRIPTOR and a MEMORY event that names the host address (Table TI-6). -/
def State.loadLands (s : State) (j : LoadJob) (good : Bool) : State :=
  let (hb, sp, after) := s.loadSheaf j
  let h := shOf hb
  let paired := match lastScale j.landed with
    | some sc => h.kind = 0x0C || h.smode ≠ 1 || scalePair (shOf sc.1) h 3 3
    | none => h.kind = 0x0C || h.smode ≠ 1
  let res := if good && s.loadKind j h.kind && paired then
      sheafCheck hb sp 3 { kind := h.kind, fn := j.fn, list := none } else .error 0
  if j.count ≤ j.landed.length then s
  else if !s.inT3 j.next (after - j.next) then (s.dropLoad j).finish j.fn j.ring j.seq (compOf stBad) []
  else
  match res with
  | .ok p => s.setLoad { j with landed := j.landed ++ [(hb, p)], next := after, failed := false }
  | .error _ =>
    if j.failed then
      ((s.raiseNamed .sheafFault [j.next]).dropLoad j).finish j.fn j.ring j.seq (compOf stBad) []
    else s.setLoad { j with failed := true }

/-- A row of a loaded matrix sheaf: its number, bytes, scale field as stored, effective scale. -/
structure LoadRow where
  row : Nat
  bytes : List Byte
  field_ : Nat
  scale : Word32
  /-- sheaf scale, and which sheaf of the image it came from -/
  sscale : Word32
  sheaf : Nat
  deriving DecidableEq, Repr

/-- Rows of one data sheaf. `side` is the SCALE sheaf's payload, `at_` the sheaf's first row in it. -/
def sheafRows (h : SheafHdr) (p side : List Byte) (at_ idx : Nat) : List LoadRow :=
  let n := rowBytes h.fmt h.rowLen
  let nested := h.smode == 2
  let lead := if nested then ceilDiv h.rows 64 * 64 else 0
  (List.range h.rows).map fun i =>
    let fld := if h.smode = 1 then natAt side (2 * (at_ + i)) 2 else if nested then natAt p i 1 else 0
    { row := h.part + i, bytes := bytesAt p (lead + i * stride64 n) n, field_ := fld
      scale := if h.smode = 1 then elemF32 6 fld else if nested then nestedScale fld h.sscale else 0x3F800000#32
      sscale := h.sscale, sheaf := idx }

/-- Rows of every data sheaf of a kind in an image, in order. -/
def imageRows (kind : Nat) : List (List Byte × List Byte) → Nat → List Byte → Nat → List LoadRow
  | [], _, _, _ => []
  | (hb, p) :: r, i, side, at_ =>
    let h := shOf hb
    if h.kind = 0x0C then imageRows kind r (i + 1) p 0
    else (if h.kind = kind then sheafRows h p side at_ i else []) ++ imageRows kind r (i + 1) side (at_ + h.rows)

/-- Whether the data sheaves of an image have the format, row length and scale mode of the object's rows of a kind. -/
def imageFits (kind fmt elems scale obj : Nat) (l : List (List Byte × List Byte)) : Bool :=
  l.all fun x =>
    let h := shOf x.1
    h.kind ≠ kind || (h.fmt == fmt && h.rowLen == elems && h.obj == obj && h.smode == (if scaledFmt fmt then scale else 0))

/-! ### Rows in place (R79, R237) -/

/-- HDR_CRC of a sheaf header in stacked memory computed again. -/
def State.restamp (s : State) (a : Nat) : State :=
  let b := memReadBytes s.t1 a 56
  if natAt b 6 2 = 0x5346 then { s with t1 := memWriteBytes s.t1 (a + 56) (leBytes 8 (crc32c b)) } else s

/-- The sheaf scale of local row j's block set. -/
def State.setSheafScale (s : State) (t : TableDef) (j : Nat) (v : Word32) : State :=
  let a := rowsSheaf t j
  { s with t1 := memWriteBytes s.t1 (a + 12) (leBytes 4 v.toNat) }.restamp a

/-- FP32 values written into local row j as its table stores them, with the dead bit cleared; whether a value
saturated (R74, R79). -/
def State.writeRow (s : State) (t : TableDef) (j : Nat) (v : List Word32) : State × Bool :=
  let (s1, codes, fld, c) :=
    if !scaledFmt t.fmt then
      let rs := v.map fun w => convertTo t.fmt (f32Val w)
      (s, rs.map (·.code), 0, (rs.filter (·.sat)).length)
    else if t.scale = 2 then
      let S := BitVec.ofNat 32 (memNat s.t1 (rowsSheaf t j + 12) 4)
      let raw := rawScale t.fmt v
      let S1 := if S = 0 then raw else S
      let (c, q, k) := quantNestedRow t.fmt S1 v
      (if S = 0 && raw ≠ 0 then s.setSheafScale t j raw else s, q, c, k.sat)
    else
      let (sc, q, k) := quantSide t.fmt v
      (s, q, sc, k.sat)
  let s2 := s1.putRow t j (packRow t.fmt codes) fld
  let (a, b) := deadBit t j
  (s2.putBit a b false, decide (c > 0))

/-- Local row j as it stands goes to the history (R237). -/
def State.keepRow (s : State) (f o j : Nat) : State :=
  match s.tableDef f o with
  | none => s
  | some t =>
    let h : HistRow :=
      { row := j, tick := s.tick.count, bytes := s.rowBytesAt t j, scale := s.rowScale t j, dead := s.rowDead t j }
    s.setTable { t with hist := t.hist ++ [h] }

/-- History entries older than 64 ticks leave. -/
def State.pruneHist (s : State) (t : TableDef) : State :=
  s.setTable { t with
    hist := t.hist.filter fun h => decide (s.tick.count.toNat < h.tick.toNat + 64)
    gens := t.gens.filter fun g => decide (s.tick.count.toNat < g.1.toNat + 64) }

/-- Whether the history has room for an entry of local row j: an entry 64 ticks old no longer takes any (R237). -/
def histRoom (t : TableDef) (now j : Nat) : Bool :=
  let ch := (rowPlace t j).1
  decide ((t.hist.filter fun h => (rowPlace t h.row).1 == ch && decide (now < h.tick.toNat + 64)).length < histCap t)

/-! ### Applying a LOAD -/

/-- Local rows of a block that the table has. -/
def blockRows (t : TableDef) (self blk : Nat) : List Nat :=
  ((List.range (tRps t)).map fun i => blk * tRps t + i).filter fun j =>
    let i := rowOfLocal t self j
    decide (i < t.rows) && ownerOf t i == some (self, j)

/-- The ROWS of an image that this node owns, written into their local rows (R227). Answers whether any was. -/
def State.loadTable (s : State) (t : TableDef) (rows : List LoadRow) : State × Bool :=
  match t.self with
  | none => (s, false)
  | some self =>
    let mine := rows.filterMap fun r =>
      match ownerOf t r.row with
      | some (o, j) => if o = self && r.row < t.rows && r.row ≠ 0xFFFFFFFF then some (j, r) else none
      | none => none
    let whole (blk : Nat) : Bool :=
      let got := mine.filter fun m => m.1 / tRps t == blk
      let one := match got.head? with | some g => got.all fun m => m.2.sheaf == g.2.sheaf | none => true
      (blockRows t self blk).all (fun j => got.any fun m => m.1 == j) && (!tNested t || one)
    let put (s : State) (m : Nat × LoadRow) : State :=
      let s0 := s.keepRow t.fn t.obj m.1
      let e := rowF32 t.fmt t.elems m.2.bytes
      if tNested t && !whole (m.1 / tRps t) then
        (s0.writeRow t m.1 (e.map fun w => (flMul (fl w) (fl m.2.scale)).v)).1
      else
        let s1 := if tNested t then s0.setSheafScale t m.1 m.2.sscale else s0
        let s2 := s1.putRow t m.1 m.2.bytes m.2.field_
        let (a, b) := deadBit t m.1
        s2.putBit a b false
    (mine.foldl put s, !mine.isEmpty)

/-- The rows of an image as rows of a matrix kind that the node holds. -/
def fpRows (rs : List LoadRow) : List FpRow := rs.map fun r => { row := r.row, bytes := r.bytes, scale := r.scale }

/-- What a load whose sheaves have all landed does: none where its data does not fit its object; else the state and
whether anything was applied. -/
def State.loadApply (s : State) (j : LoadJob) : Option (State × Bool) :=
  match s.liveIndex j.fn j.obj, s.liveTable j.fn j.obj with
  | some x, _ =>
    if imageFits 7 x.cfmt x.dims x.scale j.obj j.landed && imageFits 8 x.cfmt (bookDims x) x.scale j.obj j.landed then
      let cs := fpRows ((imageRows 7 j.landed 0 [] 0).filter fun r => decide (r.row < x.cells1 + listCount x))
      let bs := fpRows ((imageRows 8 j.landed 0 [] 0).filter fun r => decide (r.row < 256 * x.code))
      some (s.setIndex (withRows (withRows x false cs) true bs), !(cs.isEmpty && bs.isEmpty))
    else none
  | none, some t =>
    if imageFits 0x0A t.fmt t.elems t.scale j.obj j.landed && imageFits 0x0B t.kfmt t.dims t.scale j.obj j.landed then
      let ks := fpRows ((imageRows 0x0B j.landed 0 [] 0).filter fun r => decide (r.row < t.keys1 + t.keys2))
      let t1 := { t with subkeys := ks.foldl (fun l r => putBy FpRow.row r l) t.subkeys }
      let (s1, any) := s.loadTable t1 (imageRows 0x0A j.landed 0 [] 0)
      match s1.tableDef j.fn j.obj with
      | some t2 => some (s1.setTable { t2 with subkeys := t1.subkeys }, any || !ks.isEmpty)
      | none => some (s1, any)
    else none
  | none, none => none

/-- Whether a load holds CENTROIDS or CODEBOOK sheaves of an index whose digest is fixed (R502). -/
def State.loadBarred (s : State) (j : LoadJob) : Bool :=
  match s.liveIndex j.fn j.obj with
  | some x => x.digest.isSome && j.landed.any fun l => (shOf l.1).kind == 7 || (shOf l.1).kind == 8
  | none => false

/-- Bytes of an update result (R243). -/
def upResultBytes (q : Word64) (tag : Nat) (tick : Word64) (applied status flags c : Nat) (words : List (Nat × Word64)) :
    List Byte :=
  let h := wordsBytes [q, word [(32, 32, tag)], tick, word [(0, 16, applied)], 0, 0, 0, word [(8, 8, status), (0, 8, flags)]]
  let ws := (List.range c).flatMap fun i =>
    leBytes 8 (match words.find? fun w => w.1 == i with | some w => w.2.toNat | none => 0)
  h ++ ws

/-- A load at its apply tick: it is applied, or it ends with a status and applies nothing (R240). -/
def State.loadDue (s : State) (j : LoadJob) : State :=
  let s0 := s.dropLoad j
  let result (n st : Nat) : List (Nat × List Byte) :=
    [(j.raddr, upResultBytes j.seq j.tag.toNat s.tick.count n st 0 0 [])]
  let fail (st : Nat) : State := s0.finish j.fn j.ring j.seq (compOf st) (result 0 st)
  if j.landed.length < j.count || j.arg ≠ s.tick.count then fail stBad
  else if s.loadBarred j then fail stNotPermitted
  else
    match s0.loadApply j with
    | none => fail stBad
    | some (s1, any) =>
      let n := if any then j.count else 0
      let c : Comp := { status := stOk, flags := 0, result := BitVec.ofNat 64 n }
      s1.finish j.fn j.ring j.seq c (result n stOk)

/-! ### Applying an item (Table TU-11) -/

/-- What became of an item. -/
inductive Applied where
  /-- it took effect or was found invalid: its result word; `hit` when it counts as APPLIED -/
  | word (w : Word64) (hit : Bool)
  | held
  deriving DecidableEq, Repr

/-- A vector id of Table VS-2. -/
def vecId (x : Index) (l p : Nat) : Word64 := word [(54, 6, x.shard), (32, 22, l), (0, 32, p)]

/-- The log record of an item becomes the home of a delta position's vector. -/
def State.mapLog (s : State) (rec : List Byte) (v : Nat × Nat × Nat × Nat) : State :=
  let log := s.flash.log.map fun e => if e.bytes == rec then { e with vec := some v } else e
  { s with flash := { s.flash with log := log } }

/-- INSERT at the apply. -/
def State.applyInsert (s : State) (u : UpItem) (x : Index) : State × Applied :=
  let l := u.target.toNat
  let h := s.listHdr x l
  if h.dlen ≥ x.delta then (s, .held)
  else
    let p := h.len + h.dlen
    let code := codeVec x (storedVals x u.payload u.scale) l
    let m1 := memWriteBytes s.t1 (deltaCode h.delta x.code h.dlen) code
    let m2 := memWriteBytes m1 (deltaAttr h.delta x.delta x.code h.dlen) (leBytes 8 u.attr.toNat)
    let s1 := { s with t1 := m2 }.putHdr x l { h with dlen := h.dlen + 1 }
    let s2 := s1.setIndex { x with adds := x.adds ++ [(s.tick.count, l)] }
    (s2.mapLog (recBytes u) (u.fn, u.obj, l, p), .word (vecId x l p) true)

/-- The list and position that a vector id names, if it names a position of the index. -/
def State.idPlace (s : State) (x : Index) (id : Nat) : Option (Nat × Nat × ListHdr) :=
  let l := field id 32 22
  let p := field id 0 32
  if field id 60 4 = 0 && field id 54 6 = x.shard && l < listCount x then
    let h := s.listHdr x l
    if p < h.len + h.dlen then some (l, p, h) else none
  else none

/-- DELETE at the apply. -/
def State.applyDelete (s : State) (u : UpItem) (x : Index) : State × Applied :=
  match s.idPlace x u.target.toNat with
  | none => (s, .word 2 false)
  | some (l, p, h) =>
    if (memRead s.t1 (h.tombs + p / 8)).toNat.testBit (p % 8) then (s, .word 1 false)
    else
      let s1 := (s.putBit (h.tombs + p / 8) (p % 8) true).putHdr x l { h with dead := h.dead + 1 }
      (s1.setIndex { x with kills := x.kills ++ [(s.tick.count, l, p)] }, .word 0 true)

/-- The local row that a row item acts on, or the status that it ends with. -/
def rowItemPlace (t : TableDef) (r : Nat) : Nat ⊕ Nat :=
  if r ≥ t.rows || r = 0xFFFFFFFF then .inl 2
  else
    match ownerOf t r with
    | some (o, j) => if some o = t.self then .inr j else .inl 3
    | none => .inl 3

/-- ROWWRITE and ROWDELETE at the apply. -/
def State.applyRow (s : State) (u : UpItem) (t : TableDef) : State × Applied :=
  match rowItemPlace t u.target.toNat with
  | .inl st => (s, .word (BitVec.ofNat 64 st) false)
  | .inr j =>
    if u.op = 0x28 && s.rowDead t j then (s, .word 1 false)
    else if !histRoom t s.tick.count.toNat j then (s, .held)
    else
      let s1 := s.keepRow u.fn u.obj j
      if u.op = 0x28 then
        let (a, b) := deadBit t j
        (s1.putBit a b true, .word 0 true)
      else
        let (s2, sat) := s1.writeRow t j (rowF32 u.dfmt t.elems u.payload)
        let s3 := if sat then s2.mapResult u.origin u.fn u.ring u.seq fun r => { r with saturated := true } else s2
        let s4 := if u.pass ≠ 0 then
            match s3.tableDef u.fn u.obj with
            | some t2 =>
              let n := match t2.pass with | some (_, _, n) => n | none => 0
              s3.setTable { t2 with pass := some (u.pass, u.attr, n + 1) }
            | none => s3
          else s3
        (s4, .word 0 true)

/-- What ends a whole descriptor before any of its items applies: the list of an INSERT is full, a pass rule of R242 is
broken, the object is gone. -/
def State.upRefused (s : State) (u : UpItem) : Option Nat :=
  match u.op with
  | 0x21 =>
    match s.liveIndex u.fn u.obj with
    | none => some stNoIndex
    | some x =>
      let mine := s.tables.queue.filter fun v =>
        v.origin == u.origin && v.fn == u.fn && v.ring == u.ring && v.seq == u.seq
      let full (v : UpItem) : Bool :=
        let h := s.listHdr x v.target.toNat
        decide (h.len + h.dlen + (mine.filter fun y => y.target == v.target).length > 2 ^ 32 - 1)
      if mine.any fun v => decide (v.target.toNat ≥ listCount x) then some stBad
      else if mine.any full then some stOverQuota else none
  | 0x22 => if (s.liveIndex u.fn u.obj).isNone then some stNoIndex else none
  | _ =>
    match s.liveTable u.fn u.obj with
    | none => some stNoTable
    | some t =>
      if u.op = 0x27 && u.pass ≠ 0 then
        let argOk := match t.pass with | some (p, a, _) => p ≠ u.pass || a == u.attr | none => true
        if u.pass = t.gen + 1 && argOk then none else some stBad
      else none

/-- An item that is not held acts. -/
def State.applyItem (s : State) (u : UpItem) : State × Applied :=
  match u.op with
  | 0x21 => match s.liveIndex u.fn u.obj with | some x => s.applyInsert u x | none => (s, .word 2 false)
  | 0x22 => match s.liveIndex u.fn u.obj with | some x => s.applyDelete u x | none => (s, .word 2 false)
  | _ => match s.liveTable u.fn u.obj with | some t => s.applyRow u t | none => (s, .word 2 false)

/-- The apply as it runs: the state, items taken of each function and class, tables whose row items are held from here on,
and the items that stay. -/
structure Applying where
  s : State
  taken : List (Nat × Nat × Nat)
  stuck : List (Nat × Nat)
  left : List UpItem

/-- Items of a function and class that this apply has taken. -/
def Applying.count (a : Applying) (f c : Nat) : Nat :=
  match a.taken.find? fun t => t.1 == f && t.2.1 == c with | some t => t.2.2 | none => 0

/-- One item more of a function and class. -/
def Applying.take (a : Applying) (f c : Nat) : Applying :=
  { a with taken := (f, c, a.count f c + 1) :: a.taken.filter fun t => !(t.1 == f && t.2.1 == c) }

/-- An item stays for the next apply, and its completion is late. -/
def Applying.hold (a : Applying) (u : UpItem) : Applying :=
  { a with
    s := a.s.mapResult u.origin u.fn u.ring u.seq fun r => { r with late := true }
    left := a.left ++ [{ u with held := true }] }

/-- One item of the apply (R240). -/
def applyStep (a : Applying) (u : UpItem) : Applying :=
  let res := a.s.upResult u.origin u.fn u.ring u.seq
  let ended : Bool := match res with | some r => r.status != 0 | none => false
  let row := u.op = 0x27 || u.op = 0x28
  if ended then a
  else if a.count u.fn u.cls ≥ Config.applyCount a.s.plan0 u.fn u.cls then a.hold u
  else if row && a.stuck.contains (u.fn, u.obj) then a.hold u
  else
    let first := match res with | some r => r.words.isEmpty | none => true
    let bad := if first then a.s.upRefused u else none
    match bad with
    | some st =>
      { a with s := a.s.mapResult u.origin u.fn u.ring u.seq fun r => { r with status := st, tick := a.s.tick.count } }
    | none =>
      match a.s.applyItem u with
      | (_, .held) =>
        let b := a.hold u
        if row then { b with stuck := b.stuck ++ [(u.fn, u.obj)] } else b
      | (s1, .word w hit) =>
        let s2 := s1.mapResult u.origin u.fn u.ring u.seq fun r =>
          { r with words := r.words ++ [(u.item, w)], applied := r.applied + flag hit, tick := a.s.tick.count }
        { a with s := s2 }.take u.fn u.cls

/-- The order of R240: tick of admission, origin, function, ring, SEQ, item. -/
def upBefore (a b : UpItem) : Bool :=
  let k (u : UpItem) : List Nat := [u.tick.toNat, u.origin, u.fn, u.ring, u.seq.toNat, u.item]
  decide (k a ≤ k b)

/-- TB_GEN of a table after the apply (R242). -/
def State.passEnd (s : State) (t : TableDef) : State :=
  match t.pass with
  | some (p, arg, n) =>
    if arg.toNat ≤ n then s.setTable { t with gen := p, pass := none, gens := t.gens ++ [(s.tick.count, t.gen)] } else s
  | none => s

/-- The watermark of an item raised (R245), with its journal record. -/
def State.raiseMark (s : State) (u : UpItem) : State :=
  let key (w : Nat × Nat × Nat × Word64) : Bool := w.1 == u.origin && w.2.1 == u.fn && w.2.2.1 == u.ring
  if s.applied u.origin u.fn u.ring u.seq then s
  else
    let ws := (s.tables.watermarks.filter fun w => !key w) ++ [(u.origin, u.fn, u.ring, u.seq)]
    ({ s with tables := { s.tables with watermarks := ws } }).jot 0x0A [u.fn, u.ring, u.origin, u.seq.toNat]

/-- Whether an item is due: its tick has come, and a node that catches up has every batch before it (R405). -/
def State.itemDue (s : State) (u : UpItem) : Bool :=
  seqLe u.tick s.tick.count &&
    (match s.faults.rejoin with
     | .catchUp next _ _ _ => seqLe u.tick next
     | .seeding => false
     | _ => true)

/-- Step 3 of R240: the update items that are due. -/
def State.applyUpdates (s : State) : State :=
  let due := s.tables.queue.filter s.itemDue
  let later := s.tables.queue.filter fun u => !s.itemDue u
  let order := (due.filter (·.held)) ++ (due.filter fun u => !u.held).mergeSort upBefore
  let a := order.foldl applyStep { s := s, taken := [], stuck := [], left := [] }
  let s1 := { a.s with tables := { a.s.tables with queue := a.left ++ later } }
  let s2 := s1.tables.defs.foldl State.passEnd s1
  let done := order.filter fun u => !a.left.any fun v =>
    v.origin == u.origin && v.fn == u.fn && v.ring == u.ring && v.seq == u.seq
  done.foldl State.raiseMark s2

/-- Whether an apply's changes are still told apart: it is one of the last 64, or a retained snapshot is older. -/
def State.applyKept (s : State) (t : Word64) : Bool :=
  decide (s.tick.count.toNat < t.toNat + 64) || s.search.snapshots.any fun n => decide (n.toNat ≤ t.toNat)

/-- Kills, inserts and histories that no snapshot needs any more leave. -/
def State.pruneOld (s : State) : State :=
  let ixs := s.search.indexes.map fun x =>
    { x with kills := x.kills.filter fun k => s.applyKept k.1, adds := x.adds.filter fun a => s.applyKept a.1 }
  let s1 := { s with search := { s.search with indexes := ixs } }
  s1.tables.defs.foldl State.pruneHist s1

/-! ### Replication (R239, R245) -/

/-- A batch is taken: its records are logged and admitted, those at or below the watermark are discarded and counted. -/
def State.takeBatch (s : State) (tick : Word64) (logged : Option Word64) (recs : List LogRec) : State :=
  let one (s : State) (r : LogRec) : State :=
    match recItem r with
    | none => s
    | some u =>
      let known := s.tables.queue.any fun v =>
        v.origin == u.origin && v.fn == u.fn && v.ring == u.ring && v.seq == u.seq && v.item == u.item
      if s.applied u.origin u.fn u.ring u.seq || known then
        { s with tables := { s.tables with duplicates := bump s.tables.duplicates 1 } }
      else
        let s1 := (s.logRecord true u.fn u.obj r.bytes none).1
        { s1 with tables := { s1.tables with queue := s1.tables.queue ++ [u] } }
  let s1 := recs.foldl one s
  let later (a : Option Word64) (b : Word64) : Option Word64 :=
    match a with | some x => if seqLe x b then some b else some x | none => some b
  { s1 with tables := { s1.tables with
    partnerTick := later s1.tables.partnerTick tick
    loggedThere := match logged with | some l => later s1.tables.loggedThere l | none => s1.tables.loggedThere } }

/-- The batch after a gap that a node which catches up cannot fill: REJOIN_REFUSED (R405). -/
def State.refuseRejoin (s : State) (needed oldest : Word64) : State :=
  ({ s with faults := { s.faults with rejoin := .refused } }).raise .rejoinRefused 0 0 needed.toNat oldest.toNat

/-- What a batch does for a node that catches up (R405): the one that it needs next moves it on, as far as it has later
ones; a batch of the running ticks waits for those before it; an older one beyond the next shows that the partner no
longer holds what is needed. -/
def State.catchUpBatch (s : State) (next : Word64) (n : Nat) (since : Word64) (live : Option Word64) (tick : Word64)
    (logged : Option Word64) (recs : List LogRec) : State :=
  let put (s : State) (r : Rejoin) : State := { s with faults := { s.faults with rejoin := r } }
  if tick = next then
    let s1 := s.takeBatch tick logged recs
    if live = some (next + 1) then put s1 (.catchUp (s1.tables.partnerTick.getD next + 1) (n + 1) since none)
    else put s1 (.catchUp (next + 1) (n + 1) since live)
  else if seqLe tick next then s.takeBatch tick logged recs
  else if live.isSome || seqLe (s.tick.count - 1) tick then
    put (s.takeBatch tick logged recs) (.catchUp next (n + 1) since (some (live.getD tick)))
  else s.refuseRejoin next tick

/-- REPLICATION_BATCH (R239, R405): the partner's batch of a tick. A node whose rejoining was refused takes none. -/
def execReplicationBatch (tick : Word64) (logged : Option Word64) (recs : List LogRec) (s : State) :
    Host.Outcome State Fault Refusal :=
  .next (match s.faults.rejoin with
    | .catchUp next n since live => s.catchUpBatch next n since live tick logged recs
    | .refused => s
    | _ => s.takeBatch tick logged recs)

/-- LOGGED: the last tick of the partner whose records are all durable here. -/
def State.loggedNow (s : State) : Option Word64 :=
  let taken := match s.faults.rejoin with
    | .catchUp next _ _ _ => some (next - 1)
    | .refused => none
    | _ => s.tables.partnerTick
  match taken with
  | none => none
  | some p =>
    let open_ := (s.flash.log.filter fun e => e.partner && !e.durable).map fun e => recTick e.bytes
    match open_.min? with
    | none => some p
    | some t => if t - 2 < p.toNat then some (BitVec.ofNat 64 (t - 2)) else some p

/-- The replication batch of a tick in the model's own layout (the spec gives none): tick, whether LOGGED is given and
LOGGED, the number of records, and each record after its length, source format and class. -/
def batchBytes (tick : Word64) (logged : Option Word64) (us : List UpItem) : List Byte :=
  let head := wordsBytes [tick, BitVec.ofNat 64 (flag logged.isSome), logged.getD 0, BitVec.ofNat 64 us.length, 0, 0, 0, 0]
  head ++ us.flatMap fun u =>
    let b := recBytes u
    wordsBytes [BitVec.ofNat 64 b.length, word [(8, 8, u.dfmt), (0, 8, u.cls)]] ++ b

/-- The replication batch of the tick is sent to the partner on TC2. -/
def State.sendReplication (s : State) : State :=
  match s.partner with
  | none => s
  | some p =>
    let mine := s.tables.queue.filter fun u => u.origin == s.replica && u.tick == s.tick.count + 1
    let l := s.loggedNow
    { s with tables := { s.tables with loggedHere := l } }.sendPlan 2 p (batchBytes s.tick.count l mine)

/-- Whether the node is lagging, as the end of ingest finds it (R239); a node that rejoins its domain is (R405). -/
def State.checkLagging (s : State) : State :=
  let late := match s.tables.partnerTick with | some p => !seqLe (s.tick.count - 1) p | none => false
  let lags := match s.faults.rejoin with | .none => !s.partnerGone && late | _ => true
  { s with tables := { s.tables with lagging := lags } }

/-! ### Completion of updates (R239, R243) -/

/-- Whether the origin may complete an update of its tick f. -/
def State.mayComplete (s : State) (w : Work) : Bool :=
  if s.partnerGone then
    s.flash.log.all fun e => e.durable || e.partner || recFn e.bytes ≠ w.fn || field (wordAt e.bytes 8) 33 3 ≠ w.ring ||
      wordAt e.bytes 0 ≠ w.seq.toNat
  else match s.tables.loggedThere with | some l => seqLe w.admitTick l | none => false

/-- An update whose items have all been settled in an earlier tick, and whose records are safe, ends. -/
def State.endUpdate (s : State) (r : UpResult) : State :=
  match s.workAt r.fn r.ring r.seq with
  | none => s
  | some w =>
    let d : Desc := { fn := w.fn, ring := w.ring, idx := w.idx, words := w.words }
    let c := upCount d
    let settled := r.status ≠ 0 || r.words.length ≥ c
    if !(settled && seqLe (r.tick + 1) s.tick.count && s.mayComplete w) then s
    else
      let invalid := w.opcode ≠ 0x21 && r.words.any fun x => x.2 == 2 || x.2 == 3
      let flags := (if r.late then fLate else 0) + (if invalid then fInvalid else 0) + (if r.saturated then fSaturated else 0)
      let n := if r.status = 0 then r.applied else 0
      let shown := flags ||| (if w.late then fLate else 0)
      let s1 := s.finish r.fn r.ring r.seq { status := r.status, flags := flags, result := BitVec.ofNat 64 n }
        [(d.w 4, upResultBytes r.seq (field (d.w 5) 32 32) r.tick n r.status shown (if r.status = 0 then c else 0) r.words)]
      { s1 with tables := { s1.tables with results := s1.tables.results.erase r } }

/-- The updates that complete in this egress window; the outcomes of the partner's updates are not kept. -/
def State.endUpdates (s : State) : State :=
  let s1 := (s.tables.results.filter fun r => r.origin == s.replica).foldl State.endUpdate s
  let keep := s1.tables.results.filter fun r => r.origin == s.replica ||
    s1.tables.queue.any fun u => u.origin == r.origin && u.fn == r.fn && u.ring == r.ring && u.seq == r.seq
  { s1 with tables := { s1.tables with results := keep } }

end Sys2Proof.Machine
end

