-- ==== Sys2Proof/Machine/Compact.lean ====
section
/-! DEFINITION. Full vectors on flash, the writing of segments, compaction and rotation, moves of superblocks, and the
capacity of the tiers with shedding (09 R241, 10 R255–R257, R263, R265, R269, 06 R174–R176). -/

namespace Sys2Proof.Machine

/-! ### Where a full vector is (R185, R198, R256–R258) -/

/-- Where a position's full vector is read from. -/
inductive VecHome where
  /-- pieces of a block of the segment, and the length of the block -/
  | segment (places : List FlashPlace) (len : Nat)
  | log (e : LogEntry)
  | lost
  | nowhere
  deriving DecidableEq, Repr

/-- The lost-codeword entry of a vector. -/
def State.lostOf (s : State) (f o : Nat) (vid : Word64) : Option LostWord :=
  s.flash.lost.find? fun w => w.fn == f && w.obj == o && w.vid == vid

/-- The segment of a list. -/
def State.segOf (s : State) (f o l : Nat) : Option Segment :=
  s.flash.segs.find? fun g => g.fn == f && g.obj == o && g.list == l

/-- Where the full vector of position p of list l is. A lost vector is read from its refilled copy once that copy counts
(R275). -/
def State.vecHome (s : State) (x : Index) (l p : Nat) : VecHome :=
  let plain : VecHome :=
    match s.vecLog x.fn x.obj l p with
    | some e => .log e
    | none =>
      match s.segOf x.fn x.obj l with
      | none => .nowhere
      | some g =>
        let R := segRows (vecStride x)
        if p < (s.segHdr g.map).rows then
          let e := s.segEntry g.map (p / R)
          .segment (blockPlaces e (p % R)) (vecStride x)
        else .nowhere
  match s.lostOf x.fn x.obj (vecId x l p) with
  | none => plain
  | some w =>
    match w.refill with
    | .refilled lsn tick =>
      if seqLe tick s.tick.count then
        match s.flash.log.find? fun e => e.lsn == lsn with | some e => .log e | none => .lost
      else .lost
    | _ => .lost

/-- A full vector as it is stored: row bytes, effective scale, norm. -/
structure FullVec where
  row : List Byte
  scale : Word32
  norm : Word32
  deriving DecidableEq, Repr

/-- The block that stored bytes hold: raw where they are as long as the block, coded where they are shorter (R167). -/
def decodeBlock (len : Nat) (st : List Byte) : Option (List Byte) := bpDecode len (decide (st.length < len)) st

/-- The vector that a log record of an INSERT, or a refilled record, holds. -/
def logVec (x : Index) (e : LogEntry) : FullVec :=
  let n := field (wordAt e.bytes 48) 0 32
  let sc := BitVec.ofNat 32 (field (wordAt e.bytes 32) 0 32)
  let row := bytesAt e.bytes 64 n
  { row := row, scale := sc, norm := storedNorm x row sc }

/-- The full vector of a position, where it can be read. -/
def State.fullVec (s : State) (x : Index) (l p : Nat) : Option FullVec :=
  match s.vecHome x l p with
  | .segment ps len =>
    match s.joinWords ps, ps.head?.bind s.cwAt with
    | some st, some w =>
      (decodeBlock len st).map fun b => { row := b.take (rowBytes x.vfmt x.dims), scale := w.scale, norm := w.norm }
    | _, _ => none
  | .log e => some (logVec x e)
  | _ => none

/-! ### Writing a segment (R257, R258) -/

/-- A VECTORS sheaf of rows as codewords: the directory codeword, then each block's pieces, with the map entry's sizes. Row
scales travel in the codewords' metadata, so the sheaf holds no code block. `ids` gives each row's vector id. -/
def sheafWords (x : Index) (s : State) (l t : Nat) (gen : Nat) (vs : List (Word64 × FullVec)) : List CwData × Nat × List Nat :=
  let st := vecStride x
  let data := vs.flatMap fun v => bytesAt v.2.row 0 st
  let pay := data ++ List.replicate (payloadOf data.length - data.length) 0
  let h : SheafHdr :=
    { magic := 0x5346, kind := 9, fmt := x.vfmt, smode := if scaledFmt x.vfmt then 1 else 0, comp := 0, blockLen := 0
      live := false, clean := true, plen := pay.length / 64, sscale := 0, rows := vs.length, stored := pay.length
      rowLen := x.dims, obj := x.obj, fn := x.fn, part := l, gen := gen, seq := t, crc := crc32c pay, tick := s.tick.count
      hcrc := 0 }
  let (h2, body) := bpSheaf h pay
  let dirN := dirBytes h2
  let dir := shBytes h2 ++ body.take dirN
  let blocks := bpBlocks h2.blockLen pay
  let enc := blocks.map fun b => (b, (bpEncode b).1)
  let first : CwData :=
    { user := dir, scale := 0, norm := 0, tag := locTag (segLocator t 0), crc := BitVec.ofNat 32 (crc32c dir) }
  let rest := enc.zipIdx.flatMap fun (b, i) =>
    let v := (vs[i]?).getD (0, { row := [], scale := 0, norm := 0 })
    (codePieces b.2).zipIdx.map fun (pc, q) =>
      ({ user := pc, scale := v.2.scale, norm := v.2.norm, tag := vecTag v.1 q, crc := BitVec.ofNat 32 (crc32c b.1) } : CwData)
  (first :: rest, dir.length, enc.map fun e => e.2.length)

/-- Sheaves of a segment written one after another; the map entries. None where flash has no place. -/
def State.writeSheaves (s : State) (x : Index) (l gen : Nat) : List (List (Word64 × FullVec) × Nat) →
    Option (State × List SegEntry)
  | [] => some (s, [])
  | (vs, t) :: r =>
    let (ws, dirLen, sizes) := sheafWords x s l t gen vs
    match s.writeSegWords ws with
    | none => none
    | some (s1, p) =>
      (s1.writeSheaves x l gen r).map fun q => (q.1, { place := p, dirLen := dirLen, sizes := sizes } :: q.2)

/-- Places of every codeword of a segment. -/
def State.segPlaces (s : State) (g : Segment) : List FlashPlace :=
  (List.range (s.segHdr g.map).sheaves).flatMap fun t => sheafPlaces (s.segEntry g.map t)

/-- A region that only retained snapshots may still refer to; it is released when none does (R25, R241). -/
def State.retire (s : State) (a : Nat) : State :=
  { s with tiers := { s.tiers with retired := s.tiers.retired ++ [(a, s.tick.count)] } }

/-- Regions given up whose last snapshot has gone are released. -/
def State.releaseRetired (s : State) : State :=
  let keep (r : Nat × Word64) : Bool := s.search.snapshots.any fun n => seqLe n r.2
  let s1 := (s.tiers.retired.filter fun r => !keep r).foldl (fun s r => s.dropPlace r.1) s
  { s1 with tiers := { s1.tiers with retired := s1.tiers.retired.filter keep } }

/-- A list's segment is written over `n` positions with the vectors given, under a generation: new sheaves, a new map in
the list's channel, and the old ones given up (R257). Positions in `gone` are lost from here on, those in `back` no
longer. -/
def State.writeVecs (s : State) (x : Index) (l n gen : Nat) (vec : Nat → Word64 × FullVec) (gone back : List Nat) :
    Option (State × Nat) :=
  let R := segRows (vecStride x)
  let groups := (chunksOf R (n / R + 1) (List.range n)).map fun ps => ps.map vec
  let cost := n * (vecStride x + 128) + groups.length * 1024
  if !s.flashFits cost then none
  else
    match s.writeSheaves x l gen groups.zipIdx with
    | none => none
    | some (s1, es) =>
      match s1.takePlace x.fn x.obj (listChan x l) (64 + 112 * groups.length) with
      | none => none
      | some (s2, a) =>
        let hdr := segHdrBytes { sheaves := groups.length, list := l, gen := gen, writeTick := s.tick.count.toNat, rows := n }
        let map := hdr ++ es.flatMap segEntryBytes
        let s3 := { s2 with t1 := memWriteBytes s2.t1 a map }
        let copy := (codePieces map).map fun p =>
          ({ user := p, scale := 0, norm := 0, tag := locTag (segLocator 0 a), crc := BitVec.ofNat 32 (crc32c p) } : CwData)
        let (s4, at_) := match s3.writeSegWords copy with
          | some (t, p) => (t, [p.set, p.plane, p.block, p.page * 65536 + p.off])
          | none => (s3, [])
        let s5 := s4.jot 4 at_
        let s6 := match s5.segOf x.fn x.obj l with
          | some g => ((s5.dropWords (s5.segPlaces g)).jot 5 [g.map]).retire g.map
          | none => s5
        let seg : Segment :=
          { fn := x.fn, obj := x.obj, list := l, map := a, writeTick := s.tick.count, gen := BitVec.ofNat 32 gen
            warned := false, pastTick := none }
        let segs := (s6.flash.segs.filter fun g => !(g.fn == x.fn && g.obj == x.obj && g.list == l)) ++ [seg]
        let log := s6.flash.log.map fun e =>
          match e.vec with
          | some (f, o, k, p) => if f = x.fn && o = x.obj && k = l && p < n then { e with vec := none } else e
          | none => e
        let lost := (s6.flash.lost.filter fun w => !(w.fn == x.fn && w.obj == x.obj &&
            back.any fun p => vecId x l p == w.vid)) ++
          gone.map fun p => ({ fn := x.fn, obj := x.obj, vid := vecId x l p, crc := 0, refill := .none } : LostWord)
        some ({ s6 with flash := { s6.flash with segs := segs, log := log, lost := lost } }, a)

/-- A list's segment is rewritten over its first `n` positions (R257, R263). A live position without a vector is lost from
here on (R198). -/
def State.writeSegment (s : State) (x : Index) (l n gen : Nat) : Option (State × Nat) :=
  let h := s.listHdr x l
  let dead (p : Nat) : Bool := (memRead s.t1 (h.tombs + p / 8)).toNat.testBit (p % 8)
  let vec (p : Nat) : Word64 × FullVec :=
    (vecId x l p, if dead p then { row := [], scale := 0, norm := 0 }
      else (s.fullVec x l p).getD { row := [], scale := 0, norm := 0 })
  let gone := (List.range n).filter fun p =>
    !dead p && (s.fullVec x l p).isNone && (s.lostOf x.fn x.obj (vecId x l p)).isNone
  s.writeVecs x l n gen vec gone ((List.range n).filter fun p => (s.fullVec x l p).isSome)

/-! ### Compaction (R241) -/

/-- A sheaf header of an index kind whose rows are packed. -/
def packedHdr (x : Index) (s : State) (kind l gen seq rows rowLen : Nat) (live : Bool) (pay : List Byte) : SheafHdr :=
  { magic := 0x5346, kind := kind, fmt := 8, smode := 0, comp := 0, blockLen := 0, live := live, clean := true
    plen := pay.length / 64, sscale := 0, rows := rows, stored := pay.length, rowLen := rowLen, obj := x.obj, fn := x.fn
    part := l, gen := gen, seq := seq, crc := if live then 0 else crc32c pay, tick := s.tick.count, hcrc := 0 }

/-- Sheaves of one kind, one after another from a node address: `per` rows of `u` bytes to each. -/
def State.writePacked (s : State) (x : Index) (kind l gen per u a : Nat) (rows : List (List Byte)) : State :=
  let groups := chunksOf per (rows.length / per + 1) rows
  let put (s : State) (g : List (List Byte) × Nat) : State :=
    let data := g.1.flatMap id
    let pay := data ++ List.replicate (payloadOf data.length - data.length) 0
    let b := shBytes (packedHdr x s kind l gen g.2 g.1.length u false pay) ++ pay
    { s with t1 := memWriteBytes s.t1 (a + g.2 * (64 + payloadOf (per * u))) b }
  groups.zipIdx.foldl put s

/-- A list is compacted: its delta is appended in new CODES and ATTRS sheaves, its tombstone region grows where it must,
its segment is rewritten, and its new header stands (R241). None where the grant or flash has no room. -/
def State.compactList (s : State) (x : Index) (l : Nat) : Option State :=
  let h := s.listHdr x l
  let n := h.len + h.dlen
  let ch := listChan x l
  let gen := (h.gen + 1) % 2 ^ 32
  let sheaves := ceilDiv n (segRows (vecStride x))
  let cb := codeBytes n x.code
  let ab := attrBytes n
  let grow := tombBytes n x.delta > tombBytes h.len x.delta
  let tb := if grow then 64 + payloadOf (tombBytes n x.delta) else 0
  let need := cb + ab + tb + 64 + 112 * sheaves
  if s.held x.fn ch + need > s.grant x.fn then none
  else
    match s.takePlace x.fn x.obj ch cb with
    | none => none
    | some (s1, ca) =>
      match s1.takePlace x.fn x.obj ch ab with
      | none => none
      | some (s2, aa) =>
        let t := if grow then s2.takePlace x.fn x.obj ch tb else some (s2, 0)
        match t with
        | none => none
        | some (s3, ta) =>
          let codes := (List.range n).map (s.codeOf x h)
          let attrs := (List.range n).map fun p => leBytes 8 (s.attrOf x h p)
          let s4 := (s3.writePacked x 1 l gen (codesPer x.code) x.code ca codes).writePacked x 2 l gen 8192 8 aa attrs
          let old := memReadBytes s.t1 h.tombs (tombBytes h.len x.delta)
          let s5 := if grow then
              let pay := bytesAt old 0 (payloadOf (tombBytes n x.delta))
              let sheaf := shBytes (packedHdr x s 3 l gen 0 (8 * tombBytes n x.delta) 1 true pay) ++ pay
              { s4 with t1 := memWriteBytes s4.t1 ta sheaf }
            else s4
          match s5.writeSegment x l n gen with
          | none => none
          | some (s6, m) =>
            let s7 := if h.codes = 0 then s6 else (s6.retire h.codes).retire h.attrs
            let s8 := if grow then s7.retire (h.tombs - 64) else s7
            let h2 : ListHdr :=
              { h with
                len := n, dlen := 0, gen := gen, codes := ca, attrs := aa, csheaves := ceilDiv n (codesPer x.code)
                asheaves := ceilDiv n 8192, tombs := if grow then ta + 64 else h.tombs, segment := segLocator 0 m
                compact := s.tick.count.toNat }
            some (s8.putHdr x l h2)

/-- Whether carried work refers to a list, so that it is not rewritten (R25). -/
def State.listHeld (s : State) (f o l : Nat) : Bool :=
  s.search.shard.any fun j => j.ask.fn == f && j.ask.index == o && j.carried && (j.ask.lists.isEmpty || j.ask.lists.contains l)

/-- Compaction slots of the plan (CAT 0x4): function 0, class 0xFE (R172), paused by step 2 of shedding and while the node
is fallow. -/
def State.compactSlots (s : State) : Nat :=
  if s.tiers.shed.contains 2 || s.isFallow || !s.running then 0 else (slotRecOf s.plan0 0 0xFE).slots

/-- Ticks in a number of days. -/
def State.ticksOfDays (s : State) (d : Nat) : Nat := d * 86400 * 10 ^ 9 / s.tickNs

/-- The lists that a tick compacts: lists with held inserts, lists whose deltas are half full, then the segments due for
rotation, oldest first (R241, R263). -/
def State.chooseLists (s : State) : List (Nat × Nat × Nat) :=
  let ixs := s.search.indexes
  let all := ixs.flatMap fun x => (List.range (listCount x)).map fun l => (x, l)
  let held := all.filter fun (x, l) => s.tables.queue.any fun u =>
    u.held && u.op == 0x21 && u.fn == x.fn && u.obj == x.obj && u.target == BitVec.ofNat 64 l
  let full := all.filterMap fun (x, l) =>
    let d := (s.listHdr x l).dlen
    if d * 2 ≥ x.delta && d > 0 then some (d, x.fn, x.obj, l) else none
  let before (a b : Nat × Nat × Nat × Nat) : Bool :=
    decide ([10000 - a.1, a.2.1, a.2.2.1, a.2.2.2] ≤ [10000 - b.1, b.2.1, b.2.2.1, b.2.2.2])
  let pace := s.ticksOfDays (s.cfg 4 1 0)
  let old := (s.flash.segs.filter fun g => decide (g.writeTick.toNat + pace ≤ s.tick.count.toNat)).mergeSort
    fun a b => decide (a.writeTick.toNat ≤ b.writeTick.toNat)
  let order := held.map (fun (x, l) => (x.fn, x.obj, l)) ++ (full.mergeSort before).map (fun e => e.2) ++
    old.map fun g => (g.fn, g.obj, g.list)
  (order.dedup.filter fun e => !s.listHeld e.1 e.2.1 e.2.2).take s.compactSlots

/-- COMPACTION_SELECT at a boundary. -/
def State.selectLists (s : State) : State := { s with tables := { s.tables with compacting := s.chooseLists } }

/-- The held inserts of a list that cannot grow end with OVER_QUOTA, their whole descriptors (Table TU-11). -/
def State.insertsOver (s : State) (f o l : Nat) : State :=
  let mine := s.tables.queue.filter fun u =>
    u.held && u.op == 0x21 && u.fn == f && u.obj == o && u.target == BitVec.ofNat 64 l
  let ends (s : State) (u : UpItem) : State :=
    s.mapResult u.origin u.fn u.ring u.seq fun r => { r with status := stOverQuota, tick := s.tick.count }
  let s1 := mine.foldl ends s
  let keep := s1.tables.queue.filter fun u =>
    !(mine.any fun v => v.origin == u.origin && v.fn == u.fn && v.ring == u.ring && v.seq == u.seq)
  { s1 with tables := { s1.tables with queue := keep } }

/-- Step 1 of R240: the lists compacted in this tick are installed. -/
def State.installLists (s : State) : State :=
  let one (s : State) (e : Nat × Nat × Nat) : State :=
    match s.index e.1 e.2.1 with
    | none => s
    | some x =>
      match s.compactList x e.2.2 with
      | some t => t
      | none => s.tellFull.insertsOver e.1 e.2.1 e.2.2
  let s1 := s.tables.compacting.foldl one s
  { s1 with tables := { s1.tables with compacting := [] } }

/-! ### Superblocks (R255, R262, R265, R271) -/

/-- Every codeword of a superblock moves to the same places of another: the stream, the maps and the log follow. -/
def State.moveSb (s : State) (a b : Superblock) : State :=
  let on (set plane block : Nat) : Bool := set == a.set && plane == a.plane && block == a.block
  let place (p : FlashPlace) : FlashPlace :=
    if on p.set p.plane p.block then { p with set := b.set, plane := b.plane, block := b.block } else p
  let words := s.flash.words.map fun w =>
    if on w.set w.plane w.block then { w with set := b.set, plane := b.plane, block := b.block } else w
  let log := s.flash.log.map fun e =>
    if on e.set e.plane e.block then { e with set := b.set, plane := b.plane, block := b.block } else e
  let maps := s.flash.segs.foldl (fun m g =>
    (List.range (s.segHdr g.map).sheaves).foldl (fun m t =>
      let e := s.segEntry g.map t
      memWriteBytes m (g.map + 64 + 112 * t) (segEntryBytes { e with place := place e.place })) m) s.t1
  let reads := s.flash.reads.map fun r =>
    if on r.set r.plane r.block then { r with set := b.set, plane := b.plane, block := b.block } else r
  let s1 := { s with
    t1 := maps
    flash := { s.flash with words := words, log := log, reads := reads } }
  let s2 := s1.setSb { b with state := .full, page := a.page, off := a.off, programmed := a.programmed }
  (s2.setSb { a with state := .erasing }).jot 1 [a.set, a.plane, a.block]

/-- Whether a superblock holds valid data. -/
def State.sbHolds (s : State) (x : Superblock) : Bool :=
  s.flash.words.any fun w => w.set == x.set && w.plane == x.plane && w.block == x.block

/-- Erase counts of in-service superblocks, smallest and largest. -/
def State.wearSpread (s : State) : Nat :=
  let es := (s.flash.sbs.filter fun x => x.state == .full || x.state == .open_ || x.state == .free).map (·.erases)
  let fresh := ((List.range 32).filter s.setWrites).any fun st => (s.freshSb st).isSome
  es.foldl max 0 - (if fresh then 0 else es.foldl min (es.headD 0))

/-- WEAR_LEVEL_MOVE (R265): of a STATIC volume, the least-worn superblock that holds data moves into the most-worn free
one, one at a boundary, while compaction has slots. -/
def State.wearMove (s : State) : State :=
  let static := s.flash.vols.any fun v => v.wear == 1
  let full := s.flash.sbs.filter fun x => x.state == .full && s.sbHolds x
  let free := s.flash.sbs.filter s.sbFree
  let least := full.foldl (fun (b : Option Superblock) x => match b with
    | some y => if x.erases < y.erases then some x else b
    | none => some x) none
  let most := free.foldl (fun (b : Option Superblock) x => match b with
    | some y => if y.erases < x.erases then some x else b
    | none => some x) none
  match least, most with
  | some a, some b =>
    if static && s.compactSlots > 0 && s.wearSpread > s.cfg 4 2 0 && a.erases < b.erases then s.moveSb a b else s
  | _, _ => s

/-- Log records that nothing needs leave: durable, without a locator, applied, and not kept for a lost partner (R262,
R405). -/
def State.sweepLog (s : State) : State :=
  let waiting (e : LogEntry) : Bool := s.tables.queue.any fun u => recBytes u == e.bytes
  let needed (e : LogEntry) : Bool :=
    !e.durable || e.vec.isSome || waiting e || s.faults.keepLog ||
      (s.flash.lost.any fun w => match w.refill with | .refilled n _ => n == e.lsn | _ => false)
  let gone := s.flash.log.filter fun e => !needed e
  let s1 := s.dropWords (gone.flatMap logPlaces)
  { s1 with flash := { s1.flash with log := s1.flash.log.filter needed } }

/-- Superblocks closed and without valid data are erased; ERASE_BEGIN is journalled (R262, R270, R271). -/
def State.sweepSbs (s : State) : State :=
  let empty := s.flash.sbs.filter fun x => x.state == .full && s.setWrites x.set && !s.sbHolds x
  empty.foldl (fun s x => (s.setSb { x with state := .erasing }).jot 1 [x.set, x.plane, x.block]) s

/-- JOURNAL_WRITE (R272): the records of the ending tick are in both copies. -/
def State.writeJournal (s : State) : State :=
  { s with flash := { s.flash with journal := s.flash.journal ++ s.flash.jPending, jPending := [] } }

/-- The MEDIA event at a boundary at which the volumes cannot hold their valid data and the overprovisioning (R269). -/
def State.checkRoom (s : State) : State :=
  let s1 := { s with flash := { s.flash with opTold := false } }
  if s1.flash.vols.isEmpty || s1.flashFits 0 then s1 else s1.raiseNamed .mediaRefill [1]

/-- Lost vectors asked of the partner, as many as FL_REFILL_RATE gives a tick (R275). The request's layout is the model's
own: function, index, count, ids. -/
def State.askRefills (s : State) : State :=
  match s.partner with
  | none => s
  | some p =>
    let budget := s.cfg 4 4 0 * 25 * 10 ^ 6 * s.tickNs / 10 ^ 9
    let want := (s.flash.lost.filter fun w => w.refill == .none && w.crc ≠ 0).take (max 1 (budget / 1024))
    let objs := (want.map fun w => (w.fn, w.obj)).dedup
    let send (s : State) (fo : Nat × Nat) : State :=
      let ids := (want.filter fun w => w.fn == fo.1 && w.obj == fo.2).map (·.vid)
      s.sendPlan 1 p (wordsBytes ([BitVec.ofNat 64 fo.1, BitVec.ofNat 64 fo.2, BitVec.ofNat 64 ids.length, 0, 0, 0, 0, 0] ++ ids))
    let s1 := objs.foldl send s
    let lost := s1.flash.lost.map fun w => if want.contains w then { w with refill := .asked s.tick.count } else w
    { s1 with flash := { s1.flash with lost := lost } }

end Sys2Proof.Machine
end

