-- ==== Sys2Proof/Machine/Ask.lean ====
section
/-! DEFINITION. The messages of a search: shard queries and results as bytes (07 R203, R204). -/

namespace Sys2Proof.Machine

/-! ### Shard queries (Table VS-11) -/

/-- Padding to a multiple of 64 bytes. -/
def pad64 (bs : List Byte) : List Byte := bs ++ List.replicate (ceilDiv bs.length 64 * 64 - bs.length) 0

/-- The record of a shard query with its three parts. -/
def askBytes (a : Ask) : List Byte :=
  let ex := a.cls == 0x1F
  let flags := flag a.local_ + 2 * flag a.reissue + 4 * flag (!a.filter.isEmpty)
  wordsBytes [a.seq, a.tick, a.digest, word [(32, 32, a.front), (20, 12, a.fn), (0, 16, a.index)],
    word [(56, 8, a.cls), (45, 11, a.k - 1), (37, 8, if ex then 0 else a.lists.length - 1), (32, 5, a.rerank),
      (16, 16, a.exDepth), (8, 8, a.qfmt), (0, 8, flags)], 0, 0, 0] ++ a.filter ++
    (if ex then [] else pad64 (a.lists.flatMap fun l => leBytes 4 l)) ++ pad64 a.query

/-- Length of the record and its parts for an index of `dims` dimensions, from the record's first 64 bytes. -/
def askLen (dims : Nat) (b : List Byte) : Nat :=
  let w := wordAt b 0x20
  let ex := field w 56 8 == 0x1F
  64 + (if w.testBit 2 then 128 else 0) + (if ex then 0 else ceilDiv (4 * (field w 37 8 + 1)) 64 * 64) +
    ceilDiv (rowBytes (field w 8 8) dims) 64 * 64

/-- A shard query as its bytes give it, for an index of `dims` dimensions. -/
def askOf (dims : Nat) (b : List Byte) : Ask :=
  let w3 := wordAt b 0x18
  let w := wordAt b 0x20
  let ex := field w 56 8 == 0x1F
  let n := if ex then 0 else field w 37 8 + 1
  let at1 := 64 + (if w.testBit 2 then 128 else 0)
  let at2 := at1 + ceilDiv (4 * n) 64 * 64
  { seq := BitVec.ofNat 64 (wordAt b 0), fn := field w3 20 12, index := field w3 0 16, cls := field w 56 8
    k := field w 45 11 + 1, nprobe := n, rerank := field w 32 5, exDepth := field w 16 16, qfmt := field w 8 8
    query := bytesAt b at2 (rowBytes (field w 8 8) dims), filter := if w.testBit 2 then bytesAt b 64 128 else []
    lists := (List.range n).map fun i => field (natAt b (at1 + 4 * i) 4) 0 22
    digest := BitVec.ofNat 64 (wordAt b 0x10), local_ := w.testBit 0, reissue := w.testBit 1, front := field w3 32 32
    tick := BitVec.ofNat 64 (wordAt b 8) }

/-! ### Results (Tables VS-12, VS-13) -/

/-- The bytes of result entries: sortable key, vector id, EFLAGS. -/
def entriesBytes (es : List (Nat × Word64 × Nat)) : List Byte :=
  es.flatMap fun e => wordsBytes [e.2.1, word [(32, 32, (unsortable e.1).toNat), (0, 8, e.2.2)]]

/-- A result header with its entries. -/
def resultBytes (seq : Word64) (lo hi : Word64) (mask scanned passed reranked gleaned lost tag fn status flags : Nat)
    (es : List (Nat × Word64 × Nat)) : List Byte :=
  wordsBytes [seq, lo, hi, BitVec.ofNat 64 mask, word [(32, 32, min scanned 0xFFFFFFFF), (0, 32, min passed 0xFFFFFFFF)],
    word [(48, 16, reranked), (32, 16, gleaned), (16, 16, lost), (0, 16, es.length)],
    word [(32, 32, tag), (20, 12, fn)], word [(8, 8, status), (0, 8, flags)]] ++ entriesBytes es

/-- A shard result as it is sent (R204). -/
def shardBytes (a : Ask) (r : ShardRes) : List Byte :=
  resultBytes a.seq r.snap r.snapHi (2 ^ r.shard) r.scanned r.passed r.reranked r.gleaned r.lost 0 a.fn r.status r.flags
    r.entries

/-- The shard result that bytes hold: SEQ, function, and the result of the shard that its mask names. -/
def shardResOf (b : List Byte) : Word64 × Nat × ShardRes :=
  let w (i : Nat) : Nat := wordAt b (8 * i)
  let n := field (w 5) 0 16
  let entry (i : Nat) : Nat × Word64 × Nat :=
    let v := wordAt b (64 + 16 * i + 8)
    (sortable (BitVec.ofNat 32 (field v 32 32)), BitVec.ofNat 64 (wordAt b (64 + 16 * i)), field v 0 8)
  (BitVec.ofNat 64 (w 0), field (w 6) 20 12,
    { shard := ((List.range 64).find? fun i => (w 3).testBit i).getD 64, status := field (w 7) 8 8, flags := field (w 7) 0 8
      snap := BitVec.ofNat 64 (w 1), snapHi := BitVec.ofNat 64 (w 2), scanned := field (w 4) 32 32, passed := field (w 4) 0 32
      reranked := field (w 5) 48 16, gleaned := field (w 5) 32 16, lost := field (w 5) 16 16
      entries := (List.range n).map entry })

end Sys2Proof.Machine
end

