-- ==== Sys2Proof/Machine/Fabric.lean ====
section
/-! DEFINITION. The fabric: received frames, pause, ports, Ludom and RoCE operations, remote memory access, congestion,
connection contexts (12 R303–R330). -/

namespace Sys2Proof.Machine

/-! ### Received frames (R303–R305, R309, R350) -/

/-- The traffic class of a received frame (R304): the class whose PCP it carries; untagged frames are TC0. -/
def State.frameClass (s : State) (f : Frame) : Nat :=
  if f.tags = 0 then 0
  else
    let m := s.cfg 5 2 0
    ((List.range 8).find? fun n => field m (3 * n) 3 == f.pcp).getD 0

/-- Whether a frame uses only features of Table FB-1. -/
def State.frameOk (s : State) (f : Frame) : Bool :=
  decide (f.tags ≤ 1) && (f.tags == 0 || f.vid == s.cfg 5 1 0) && decide (f.len ≤ 9216) && !f.badIp && f.proto != .other &&
    (!f.multicast || f.proto == .roce || f.proto == .ptp || f.proto == .beacon)

/-- The policer of a function. -/
def State.policer (s : State) (f : Nat) : Policer :=
  (s.egress.policers.find? fun p => p.fn == f).getD
    { fn := f, bucket := (s.itemVals 0 5 0x14 f).1, drops := 0 }

/-- Put a policer back. -/
def State.setPolicer (s : State) (p : Policer) : State :=
  { s with egress := { s.egress with policers := putBy Policer.fn p s.egress.policers } }

/-- Rate and burst of a function's policer in use. -/
def State.policeRate (s : State) (f : Nat) : Nat × Nat :=
  match s.egress.rates.find? fun r => r.1 == f with
  | some r => r.2
  | none => ((s.itemVals 0 5 0x13 f).1, (s.itemVals 0 5 0x14 f).1)

/-- Whether a function's policer admits a frame, and the state after its check (R350). A rate of 0 turns it off. -/
def State.police (s : State) (f len : Nat) : State × Bool :=
  if (s.policeRate f).1 = 0 then (s, true)
  else
    let p := s.policer f
    if len ≤ p.bucket then (s.setPolicer { p with bucket := p.bucket - len }, true)
    else (s.setPolicer { p with drops := bump p.drops 1 }, false)

/-- The share of a port's ingress buffer that a class has: fixed for TC6 and TC7 (R304), else the implementation's. -/
def ingressShare (p tc : Nat) : Nat :=
  if tc = 7 then 262144 else if tc = 6 then 65536 else Config.ingressShare p tc

/-- XOFF above 75 % of the share, XON below 50 %, for classes with PFC (R305). -/
def State.pfcCheck (s : State) (p tc : Nat) : State :=
  let x := s.port p
  let o := x.occ.getD tc 0
  let sh := ingressShare p tc
  if tc ≤ 5 && (s.cfg 5 3 0).testBit tc then
    let off := if 4 * o > 3 * sh then true else if 2 * o < sh then false else x.xoff.testBit tc
    if off = x.xoff.testBit tc then s
    else s.setPort p { x with xoff := if off then x.xoff + 2 ^ tc else x.xoff - 2 ^ tc }
  else s

/-- FRAME_RECEIVED (R303): the frame is counted, checked against Table FB-1 and the connection's class, policed, and
takes its place in the ingress buffer. -/
def execFrameReceived (port : Nat) (frame : Frame) (s : State) : Host.Outcome State Fault Refusal :=
  if !s.fabricOn || !(s.port port).up then .next s
  else
    let s1 := s.bumpPort port 0 1
    let tc := s1.frameClass frame
    if !s1.frameOk frame then .next (s1.bumpPort port 2 1)
    else
      let toConn := frame.proto = .ludom || frame.proto = .roce
      match (if toConn then s1.conn frame.conn else none) with
      | none =>
        if toConn && !s1.connUsed frame.conn then .next (s1.bumpFabric 6)
        else
          let x := s1.port port
          .next ((s1.setPort port { x with occ := x.occ.modify tc (· + frame.len) }).pfcCheck port tc)
      | some c =>
        if tc ≠ 7 && tc ≠ c.tc then .next (s1.bumpFabric 9)
        else
          let (s2, ok) := if c.sys || tc ≥ 6 then (s1, true) else s1.police c.fn frame.len
          if !ok then .next s2
          else
            let x := s2.port port
            .next ((s2.setPort port { x with occ := x.occ.modify tc (· + frame.len) }).pfcCheck port tc)

/-- A packet of `n` bytes leaves the ingress buffer. -/
def State.takeIngress (s : State) (p tc n : Nat) : State :=
  let x := s.port p
  (s.setPort p { x with occ := x.occ.modify tc (· - n) }).pfcCheck p tc

/-! ### Pause and storm (R305) -/

/-- Functions with a connection on a port, and function 0 (R331). -/
def State.portFns (s : State) (p : Nat) : List Nat :=
  (0 :: (s.fabric.conns.filter fun c => c.port == p).map (·.fn)).dedup

/-- A PORT or LINK event goes to function 0 and to every function with a connection on the port (R331). -/
def State.raisePort (s : State) (c : Cause) (p d0 d1 : Nat) : State :=
  (s.portFns p).foldl (fun s f => s.raise c f p d0 d1) s

/-- PFC_PAUSE_RECEIVED: a pause or its end is honoured for a class with PFC that is in no storm. -/
def execPfcPauseReceived (port tc : Nat) (pause : Bool) (s : State) : Host.Outcome State Fault Refusal :=
  if !s.fabricOn then .next s
  else
    let s1 := s.bumpPort port 4 1
    let x := s1.port port
    if tc > 5 || !(s.cfg 5 3 0).testBit tc || x.storm.testBit tc then .next s1
    else
      let now := x.paused.testBit tc
      .next (s1.setPort port { x with
        paused := if pause = now then x.paused else if pause then x.paused + 2 ^ tc else x.paused - 2 ^ tc })

/-- PFC_STORM: a class has stayed paused for FB_PFC_STORM; further pause is treated as absent. -/
def execPfcStorm (port tc : Nat) (s : State) : Host.Outcome State Fault Refusal :=
  let x := s.port port
  if !s.fabricOn || !x.paused.testBit tc || x.storm.testBit tc then .next s
  else
    let s1 := s.setPort port { x with storm := x.storm + 2 ^ tc, paused := x.paused - 2 ^ tc }
    .next (s1.raisePort .pfcStorm port tc (s.cfg 5 4 0))

/-- PFC_STORM_END: 1 ms without pause; pause is honoured again. -/
def execPfcStormEnd (port tc : Nat) (s : State) : Host.Outcome State Fault Refusal :=
  let x := s.port port
  if !x.storm.testBit tc then .next s
  else .next ((s.setPort port { x with storm := x.storm - 2 ^ tc }).raisePort .pfcStormEnd port tc 0)

/-! ### Ports (R306, R307, R315) -/

/-- Lanes in use of a port. -/
def Port.lanes (x : Port) : Nat := if x.degraded then 4 else 8

/-- Frames of a connection that wait on a port move to another port, behind what waits there (R349). -/
def State.moveFrames (s : State) (n p q : Nat) : State :=
  let x := s.egPort p
  let mine := x.queues.map fun l => l.filter fun f => f.conn == some n
  let s1 := s.setEgPort p { x with queues := x.queues.map fun l => l.filter fun f => f.conn != some n }
  let y := s1.egPort q
  s1.setEgPort q { y with queues := (y.queues.zip mine).map fun z => z.1 ++ z.2 }

/-- The unacknowledged packets of a connection are sent again (R307, R319). -/
def State.resendAll (s : State) (n : Nat) : State :=
  match s.conn n with
  | none => s
  | some c =>
    c.sent.foldl (fun s k =>
      let b := k.bytes.set 6 ((k.bytes.getD 6 0) ||| 8)
      (s.sendOn c c.tc (b ++ leBytes 4 (crc32c b)) false).bumpFabric 3) s

/-- A port goes down (R307): its Ludom connections move to the next up port of their masks and resend there. -/
def State.portDown (s : State) (p : Nat) : State :=
  let x := s.port p
  if !x.up then s
  else
    let s1 := (s.setPort p { x with up := false }).raisePort .portDown p x.lanes 0
    let mine := s1.fabric.conns.filter fun c => c.port == p && c.kind != .roceRc && c.kind != .udGroup
    mine.foldl (fun s c =>
      match s.firstUp c with
      | some q => (((s.moveFrames c.num p q).setConn { c with port := q }).resendAll c.num)
      | none => s) s1

/-- PORT_DOWN (R307). -/
def execPortDown (port : Nat) (s : State) : Host.Outcome State Fault Refusal :=
  .next (if port < 8 then s.portDown port else s)

/-- Whether a half of a port holds no failed lane. -/
def halfGood (failed half : Nat) : Bool := field failed (4 * half) 4 == 0

/-- A connection sends CONNECT: its proposed generation and starting PSN (R320). -/
def State.connect (s : State) (n : Nat) : State :=
  match s.conn n with
  | none => s
  | some c =>
    let port := (s.firstUp c).getD c.port
    let c1 := { c with state := .connecting, port := port, sent := [], batches := [], reads := [] }
    (s.setConn c1).sendControl c1 (c1.pkt 1 c1.nextPsn)

/-- PORT_UP (R306, R307): block lock has held for 10 ms. System connections that had no other port are connected again
(R330). -/
def execPortUp (port : Nat) (s : State) : Host.Outcome State Fault Refusal :=
  let x := s.port port
  if port ≥ 8 || x.up || (!halfGood x.failed 0 && !halfGood x.failed 1) then .next s
  else
    let s1 := (s.setPort port { x with up := true }).raisePort .portUp port x.lanes (if x.degraded then 400 else 800)
    let back := s1.fabric.conns.filter fun c => c.sys && c.port == port && c.state != .closing
    .next (back.foldl (fun s c => s.connect c.num) s1)

/-- LANE_FAILURE (R306): the port goes down and retrains on the half that holds no failed lane; with failed lanes in both
halves it stays down. -/
def execLaneFailure (port lane : Nat) (s : State) : Host.Outcome State Fault Refusal :=
  let x := s.port port
  if port ≥ 8 || lane ≥ 8 || x.failed.testBit lane then .next s
  else
    let failed := x.failed + 2 ^ lane
    let kept := if halfGood failed 0 then 0 else if halfGood failed 1 then 1 else 0xFF
    let s1 := s.portDown port
    let y := s1.port port
    let s2 := s1.setPort port { y with failed := failed, degraded := true, half := if kept = 1 then 1 else 0 }
    .next (s2.raisePort .laneDegrade port lane kept)

/-! ### Remote memory access (R310–R314, R346) -/

/-- The region table entry of a key, where the key is valid for a function (R312). -/
def State.rmaOf (s : State) (f : Nat) (key : Nat) : Option Rma :=
  s.fabric.rma.find? fun r => r.entry == field key 18 14 && r.state == .used && r.fn == f && r.gen == field key 10 8 &&
    r.tag == field key 0 10

/-- Rights bits of a region. -/
def rRead : Nat := 0
def rWrite : Nat := 1
def rAtomic : Nat := 2

/-- The checks of R313, in order: the NAK code of the first that fails. `n` bytes at a node address; `right` is needed. -/
def State.rmaCheck (s : State) (f key a n right : Nat) : Option Nat :=
  match s.rmaOf f key with
  | none => some 2
  | some r =>
    if a < r.base || r.base + r.len < a + n then some 3
    else if !r.rights.testBit right then some 2
    else if right = rAtomic && (a % 8 ≠ 0 || n ≠ 8) then some 3
    else if r.stile && (n ≠ 8 || a % 64 ≠ 8) then some 3
    else none

/-- A refused access is counted and, the first time in a tick on its connection, raises ACCESS (R313). -/
def State.refuse (s : State) (c : Conn) (key a : Nat) : State :=
  let s1 := s.bumpFabric 5
  if c.accessTick = some s.tick.count then s1
  else (s1.setConn { c with accessTick := some s.tick.count }).raise .connAccess c.fn c.num key a

/-- The LAND record that takes a planned write of a connection at an instant (R346). -/
def State.landing (s : State) (c a n offNs : Nat) : Bool :=
  (gateRecs s.plan0).any fun g => g.kind == 2 && g.conn == c && decide (g.addr ≤ a) && decide (a + n ≤ g.addr + g.size) &&
    decide (g.open_ ≤ offNs) && decide (offNs < g.close)

/-- Bytes written from the fabric into the node address map: stacked memory or tile scratch. Other ranges take nothing. -/
def State.placeBytes (s : State) (a : Nat) (bs : List Byte) : State :=
  match regionOf a with
  | .t1 x => { s with t1 := memWriteBytes s.t1 x bs }
  | .scratch t o => s.scratchPut t o bs
  | _ => s

/-- A write of a function connection that has passed its checks: into a MEMORY region, or a SIGNAL word on a stile. -/
def State.placeFn (s : State) (f a : Nat) (bs : List Byte) : State :=
  match regionOf a with
  | .stile i _ => s.stileOutside .rmaSpace f (some i) (leNat bs)
  | _ => s.placeBytes a bs

/-- The bytes at a node address that a remote read returns. -/
def State.readNode (s : State) (a n : Nat) : List Byte :=
  match regionOf a with
  | .t1 x => memReadBytes s.t1 x n
  | _ => List.replicate n 0

/-- FETCH_ADD and CMP_SWAP on 8 aligned bytes: the state after and the value before (R314). -/
def State.atomic (s : State) (a : Nat) (f : Nat → Nat) : State × Nat :=
  let v := memNat s.t1 a 8
  (s.placeBytes a (leBytes 8 (f v % 2 ^ 64)), v)

/-! ### Ludom reception (R315–R323) -/

/-- Packets that wait for a context, in bytes. -/
def waitBytes (l : List WaitPkt) : Nat :=
  (l.map fun | .ludom _ _ _ b _ => b.length | .roce _ _ _ p => p.payload.length).sum

/-- A packet waits for its context (R329), or finds the 2 MiB full and is dropped. -/
def State.waitCtx (s : State) (p : WaitPkt) (n : Nat) : State :=
  if waitBytes s.fabric.waiting + n ≤ 2097152 then
    { s with fabric := { s.fabric with waiting := s.fabric.waiting ++ [p] } }
  else s.bumpFabric 7

/-- What reception checks before an operation: the connection and the packet, or the state that a drop leaves. -/
inductive Took where
  | dropped (s : State)
  | ok (c : Conn) (p : LPkt)

/-- Ludom reception up to the generation check (R309, R315, R320, R328, R329). CONNECT, CLOSE and ACK traffic travels on
TC7. -/
def State.ludomTake (s : State) (port tc : Nat) (pkt : List Byte) (atNs : Nat) : Took :=
  if !s.fabricOn then .dropped s
  else
    let s0 := s.takeIngress port tc pkt.length
    match lPkt pkt with
    | none => .dropped (s0.bumpFabric 0)
    | some p =>
      match s0.conn p.dst with
      | none => .dropped (s0.bumpFabric 6)
      | some c =>
        let want := if p.op = 3 || p.op = 4 || p.op = 5 then c.tc else 7
        if c.kind = .roceRc || c.kind = .udGroup then .dropped (s0.bumpFabric 0)
        else if tc ≠ want then .dropped (s0.bumpFabric 9)
        else if !c.cached then .dropped (s0.waitCtx (.ludom c.num port tc pkt atNs) pkt.length)
        else if p.op ≠ 1 && p.op ≠ 2 && p.cgen ≠ c.cgen then .dropped (s0.bumpFabric 1)
        else .ok c p

/-- How a PSN stands at a receiver (R317): already placed, next, later within the mode's reach, or beyond it. -/
inductive PsnPlace where
  | dup | next | ahead | beyond
  deriving DecidableEq, Repr

/-- Serial comparison of a PSN with the next one expected. -/
def Conn.psnPlace (c : Conn) (psn : Nat) : PsnPlace :=
  let d := serialDist 24 c.expPsn psn
  if d = 0 then .next
  else if d ≥ 2 ^ 23 || c.placed.contains psn then .dup
  else if c.kind = .relaxed && decide (d < 256) then .ahead
  else .beyond

/-- The next expected PSN moves over what has been placed. -/
def settlePsn : Nat → Nat → List Nat → Nat × List Nat
  | 0, e, l => (e, l)
  | f + 1, e, l => if l.contains e then settlePsn f ((e + 1) % 2 ^ 24) (l.filter (· ≠ e)) else (e, l)

/-- `n` PSNs from `psn` on are done with at the receiver. -/
def Conn.markPsn (c : Conn) (psn n : Nat) : Conn :=
  let l := c.placed ++ (List.range n).map fun i => (psn + i) % 2 ^ 24
  let (e, l2) := settlePsn (l.length + 1) c.expPsn l
  { c with expPsn := e, placed := l2, dirty := true }

/-- Put a changed connection back by a function. -/
def State.mapConn (s : State) (n : Nat) (f : Conn → Conn) : State :=
  match s.conn n with
  | some c => s.setConn (f c)
  | none => s

/-- An ACK or NAK of a connection as it stands. -/
def State.ackConn (s : State) (n : Nat) (nak : Option Nat) : State :=
  match s.conn n with
  | some c => s.sendAck c nak
  | none => s

/-- A write is placed, or refused with a NAK code; code 0 refuses without a NAK (TC3, R346). -/
def State.tryWrite (s : State) (c : Conn) (p : LPkt) (offNs : Nat) : State × Option Nat :=
  let a := p.addr.toNat
  if c.sys then
    if s.landing c.num a p.payload.length offNs then (s.placeBytes a p.payload, none)
    else if c.tc = 3 then (s.bumpFabric 11, some 0)
    else (s.bumpFabric 5, some 3)
  else
    match s.rmaCheck c.fn p.key.toNat a p.payload.length rWrite with
    | some e => (s.refuse c p.key.toNat a, some e)
    | none => (s.placeFn c.fn a p.payload, none)

/-- The SIG of a FINAL, applied under R288 and R291. -/
def State.applySig (s : State) (c : Conn) (p : LPkt) : State :=
  if p.hasSig then s.stileOutside .ludomFinal c.fn none p.sigWord.toNat else s

/-- Batch k of a connection. -/
def Conn.batch (c : Conn) (k : Nat) : Option RxBatch := c.batches.find? fun b => b.num == k
/-- Put a batch back. -/
def Conn.setBatch (c : Conn) (b : RxBatch) : Conn := { c with batches := putBy RxBatch.num b c.batches }
/-- Close a batch. -/
def Conn.endBatch (c : Conn) (k : Nat) : Conn := { c with batches := c.batches.filter fun b => b.num != k }

/-- A FINAL whose earlier writes are settled (R291, R318): placed with its signal, or refused where the batch failed. The
ACK after a FINAL follows. -/
def State.placeFinal (s : State) (n : Nat) (p : LPkt) (offNs : Nat) (failed : Bool) : State :=
  match s.conn n with
  | none => s
  | some c =>
    let s0 := s.setConn (if p.batch = 0 then c else c.endBatch p.batch)
    if failed then ((s0.mapConn n fun c => c.markPsn p.psn 1).ackConn n (some 2))
    else
      let (s1, e) := s0.tryWrite c p offNs
      let s2 := s1.mapConn n fun c => c.markPsn p.psn 1
      match e with
      | some 0 => s2.ackConn n none
      | some k => s2.ackConn n (some k)
      | none => (s2.applySig c p).ackConn n none

/-- A batch's FINAL that waits is placed when its earlier writes are settled. -/
def State.batchDone (s : State) (n k : Nat) : State :=
  match s.conn n with
  | none => s
  | some c =>
    match c.batch k with
    | none => s
    | some b =>
      match b.final with
      | none => s
      | some (bytes, off) =>
        match lPkt bytes with
        | none => s
        | some p => if p.earlier ≤ b.settled then s.placeFinal n p off b.failed else s

/-- A WRITE that is not a FINAL, or belongs to no batch, is placed and its place in the stream marked. -/
def State.plainWrite (s : State) (n : Nat) (p : LPkt) (offNs : Nat) : State :=
  match s.conn n with
  | none => s
  | some c =>
    let (s1, e) := s.tryWrite c p offNs
    let s2 := s1.mapConn n fun c =>
      let c1 := { (c.markPsn p.psn 1) with sinceAck := c.sinceAck + 1 }
      if p.batch = 0 then c1
      else
        match c1.batch p.batch with
        | some b => c1.setBatch { b with settled := b.settled + 1, failed := b.failed || e.isSome }
        | none => c1
    let nak := match e with | some 0 => none | e => e
    let s3 := match nak with
      | some k => s2.ackConn n (some k)
      | none =>
        match s2.conn n with
        | some c2 => if p.ackReq || c2.sinceAck ≥ 16 then s2.ackConn n none else s2
        | none => s2
    if p.batch = 0 then s3 else s3.batchDone n p.batch

/-- A WRITE whose PSN is to be placed now (R317, R318). -/
def State.writeNow (s : State) (c : Conn) (p : LPkt) (pkt : List Byte) (atNs : Nat) : State :=
  let off := atNs - s.tick.edgeNs
  if p.hasSig && field p.sigWord.toNat 60 4 ≠ 1 then
    ((s.mapConn c.num fun c => c.markPsn p.psn 1).ackConn c.num (some 5))
  else if !(p.isRelaxed && p.batch ≠ 0) then
    if p.isFinal then s.placeFinal c.num { p with batch := 0 } off false else s.plainWrite c.num { p with batch := 0 } off
  else
    let fresh : RxBatch := { num := p.batch, firstNs := atNs, settled := 0, failed := false, final := none }
    match c.batch p.batch with
    | none =>
      if c.batches.length ≥ 8 then s.ackConn c.num (some 4)
      else
        let s1 := s.setConn (c.setBatch (if p.isFinal then { fresh with final := some (pkt, off) } else fresh))
        if p.isFinal then
          (if p.earlier = 0 then s1.placeFinal c.num p off false else s1.ackConn c.num none)
        else s1.plainWrite c.num p off
    | some b =>
      if p.isFinal then
        if p.earlier ≤ b.settled then s.placeFinal c.num p off b.failed
        else (s.setConn (c.setBatch { b with final := some (pkt, off) })).ackConn c.num none
      else s.plainWrite c.num p off

/-- A node in fallow answers NOT_READY (R322). -/
def State.notReady (s : State) (c : Conn) (p : LPkt) : State := s.sendControl c { c.pkt 8 p.psn with flags := 0 }

/-- LUDOM_WRITE (R313, R317, R318, R322, R346). -/
def State.ludomWrite (s : State) (port tc : Nat) (pkt : List Byte) (atNs : Nat) : State :=
  match s.ludomTake port tc pkt atNs with
  | .dropped t => t
  | .ok c p =>
    let s0 := s.takeIngress port tc pkt.length
    if p.op ≠ 3 || c.state ≠ .open_ then s0
    else if s0.isFallow && tc ≤ 5 then s0.notReady c p
    else
      match c.psnPlace p.psn with
      | .dup => (s0.bumpFabric 2).ackConn c.num none
      | .beyond => if c.kind = .ordered then s0.ackConn c.num (some 1) else s0
      | _ => s0.writeNow c p pkt atNs

/-- LUDOM_WRITE. -/
def execLudomWrite (port tc : Nat) (pkt : List Byte) (atNs : Nat) (s : State) : Host.Outcome State Fault Refusal :=
  .next (s.ludomWrite port tc pkt atNs)

/-- The responses to a read of `len` bytes (R323): ⌈len ÷ 4,096⌉ packets with the request's PSNs, in address order. -/
def State.sendReads (s : State) (c : Conn) (psn a len : Nat) : State :=
  let k := ceilDiv len 4096
  let data := s.readNode a len
  (List.range k).foldl (fun s i =>
    let b := (data.drop (4096 * i)).take 4096
    let p := { c.pkt 5 (psn + i) with len := b.length, payload := b }
    s.sendOn c c.tc p.bytes (i + 1 == k)) s

/-- READ_REQ (R313, R322, R323). System connections reach the system services' addresses: all of stacked memory. -/
def State.ludomRead (s : State) (port tc : Nat) (pkt : List Byte) : State :=
  match s.ludomTake port tc pkt 0 with
  | .dropped t => t
  | .ok c p =>
    let s0 := s.takeIngress port tc pkt.length
    let a := p.addr.toNat
    let k := ceilDiv p.len 4096
    if p.op ≠ 4 || c.state ≠ .open_ then s0
    else if s0.isFallow && tc ≤ 5 then s0.notReady c p
    else
      match c.psnPlace p.psn with
      | .dup => (s0.bumpFabric 2).ackConn c.num none
      | .beyond => if c.kind = .ordered then s0.ackConn c.num (some 1) else s0
      | _ =>
        if c.serving ≥ 16 then s0.ackConn c.num (some 4)
        else
          let bad := if c.sys then (if a + p.len ≤ 0x8000000000 then none else some 3)
            else s0.rmaCheck c.fn p.key.toNat a p.len rRead
          let s1 := s0.setConn (c.markPsn p.psn k)
          match bad with
          | some e =>
            let s2 := match s1.conn c.num with | some c1 => s1.refuse c1 p.key.toNat a | none => s1
            s2.ackConn c.num (some e)
          | none =>
            (s1.mapConn c.num fun c => { c with serving := c.serving + 1 }).sendReads c p.psn a p.len

/-- READ_REQ. -/
def execReadReq (port tc : Nat) (pkt : List Byte) (s : State) : Host.Outcome State Fault Refusal :=
  .next (s.ludomRead port tc pkt)

/-! ### Refill reads (05 R147, 15 R400) -/

/-- The system connection of TC1 with the lowest number: it carries refills and the flash read service (Table FB-2). -/
def State.bulkConn (s : State) : Option Nat :=
  (s.fabric.conns.find? fun c => c.sys && c.tc == 1 && c.state == .open_).map (·.num)

/-- Refill reads go out while the connection has a free read and the channel has bytes left: 64 KiB each, from the same
addresses at the partner (R396). -/
def State.pumpRefill (s : State) (stack : Nat) : Nat → State
  | 0 => s
  | fuel + 1 =>
    let x := s.stack stack
    match x.refill, s.bulkConn with
    | some ch, some n =>
      match s.conn n with
      | none => s
      | some c =>
        if c.reads.length ≥ 16 || x.refillNext ≥ 0x80000000 then s
        else
          let a := chanAddr (32 * stack + ch) x.refillNext
          let r : OwnRead := { first := c.nextPsn, count := 16, addr := a }
          let s1 := (s.setStack stack { x with refillNext := x.refillNext + 65536 }).setConn
            { c with reads := c.reads ++ [r] }
          (s1.sendStream n 16 (fun c => { c.pkt 4 c.nextPsn with addr := BitVec.ofNat 64 a, len := 65536 }) none).pumpRefill
            stack fuel
    | _, _ => s

/-- READ_RESP (R323): the data of a read of this node lands where the read named; its request is acknowledged by the
responses, and the next refill reads go out. -/
def State.readResp (s : State) (port tc : Nat) (pkt : List Byte) : State :=
  match s.ludomTake port tc pkt 0 with
  | .dropped t => t
  | .ok c p =>
    let s0 := s.takeIngress port tc pkt.length
    if p.op ≠ 5 then s0
    else
      match c.reads.find? fun r => decide (serialDist 24 r.first p.psn < r.count) with
      | none => s0.bumpFabric 2
      | some r =>
        let i := serialDist 24 r.first p.psn
        let s1 := s0.placeBytes (r.addr + 4096 * i) p.payload
        let last := i + 1 = r.count
        let s2 := s1.mapConn c.num fun c =>
          if last then
            { c with reads := c.reads.erase r, sent := c.sent.filter fun k => k.psn != r.first }
          else c
        if last then (List.range 8).foldl (fun s st => s.pumpRefill st 16) s2 else s2

/-- READ_RESP. -/
def execReadResp (port tc : Nat) (pkt : List Byte) (s : State) : Host.Outcome State Fault Refusal :=
  .next (s.readResp port tc pkt)

/-! ### Acknowledgement and repair (R316, R317, R319, R322, R324) -/

/-- A packet of the stream is sent again, with RETX (R319). -/
def State.resend (s : State) (n psn : Nat) : State :=
  match s.conn n with
  | none => s
  | some c =>
    match c.sent.find? fun k => k.psn == psn with
    | none => s
    | some k =>
      let b := k.bytes.set 6 ((k.bytes.getD 6 0) ||| 8)
      let c1 := { c with sent := c.sent.map fun j =>
        if j.psn = psn then { j with tries := j.tries + 1, resent := true } else j }
      ((s.setConn c1).sendOn c1 c1.tc (b ++ leBytes 4 (crc32c b)) false).bumpFabric 3

/-- A multicast write whose members are all delivered or given up (R324): it completes, PARTIAL with MCAST_PARTIAL where
some are given up. -/
def State.mcastSettle (s : State) (id : Nat) : State :=
  match s.fabric.mwrites.find? fun w => w.id == id with
  | none => s
  | some w =>
    let all := 2 ^ w.members.length - 1
    if (w.delivered ||| w.given) = all then
      let s1 := { s with fabric := { s.fabric with mwrites := s.fabric.mwrites.filter fun x => x.id != id } }
      if w.delivered = all then s1
      else
        let f := match w.members.head?.bind s.conn with | some c => c.fn | none => 0
        s1.raise .mcastPartial f w.group w.delivered w.tick.toNat
    else s

/-- A member of a multicast write is delivered, or given up. -/
def State.mcastMark (s : State) (m : Option (Nat × Nat)) (ok : Bool) : State :=
  match m with
  | none => s
  | some (id, k) =>
    let ws := s.fabric.mwrites.map fun w =>
      if w.id = id then
        (if ok then { w with delivered := w.delivered ||| 2 ^ k } else { w with given := w.given ||| 2 ^ k })
      else w
    { s with fabric := { s.fabric with mwrites := ws } }.mcastSettle id

/-- Whether an ACK covers a PSN: at or before ACK_PSN, or in its bitmap. -/
def ackCovers (ackPsn : Nat) (sack : Word64) (psn : Nat) : Bool :=
  let d := serialDist 24 ackPsn psn
  d = 0 || decide (d ≥ 2 ^ 23) || (decide (2 ≤ d) && decide (d < 66) && sack.toNat.testBit (d - 2))

/-- A congestion echo on a TC0 or TC1 connection halves its rate, to 1 Gb/s at least (R327); other classes count it. -/
def State.congested (s : State) (n : Nat) : State :=
  match s.conn n with
  | none => s
  | some c =>
    if c.tc ≤ 1 then
      let full := if (s.port c.port).degraded then 400000 else 800000
      s.setConn { c with rate := some (max 1000 ((c.rate.getD full) / 2)), marked := true }
    else s

/-- CONTROL packets that waited for credit go out (R304). -/
def State.spendCredit (s : State) (n : Nat) : Nat → State
  | 0 => s
  | fuel + 1 =>
    match s.conn n with
    | none => s
    | some c =>
      if c.tc ≠ 7 || c.credits = 0 then s
      else
        match c.sent.find? fun k => k.tries == 0 with
        | none => s
        | some k =>
          let c1 := { c with credits := c.credits - 1, sent := c.sent.map fun j => if j.psn = k.psn then { j with tries := 1 } else j }
          ((s.setConn c1).sendOn c1 7 (k.bytes ++ leBytes 4 (crc32c k.bytes)) false).spendCredit n fuel

/-- What an acknowledgement settles at the sender (R317, R319): covered packets leave, a missing one below a placed PSN
is resent once per FB_RTO, credits return. -/
def State.acked (s : State) (n ackPsn : Nat) (sack : Word64) : State :=
  match s.conn n with
  | none => s
  | some c =>
    let gone := c.sent.filter fun k => k.tries ≠ 0 && ackCovers ackPsn sack k.psn
    let kept := c.sent.filter fun k => !gone.contains k
    let s1 := s.setConn { c with sent := kept, credits := min 8 (c.credits + (if c.tc = 7 then gone.length else 0)) }
    let s2 := gone.foldl (fun s k => s.mcastMark k.mcast true) s1
    let top := ((List.range 64).reverse.find? fun i => sack.toNat.testBit i)
    let missing : List SentPkt := match top with
      | none => []
      | some t => kept.filter fun k => k.tries ≠ 0 && !k.resent && decide (serialDist 24 ackPsn k.psn < t + 2)
    (missing.foldl (fun s k => s.resend n k.psn) s2).spendCredit n 8

/-- LUDOM_ACK. -/
def execLudomAck (port tc : Nat) (pkt : List Byte) (s : State) : Host.Outcome State Fault Refusal :=
  .next (match s.ludomTake port tc pkt 0 with
    | .dropped t => t
    | .ok c p =>
      let s0 := s.takeIngress port tc pkt.length
      if p.op ≠ 6 then s0
      else
        let s1 := s0.acked c.num (field p.addr.toNat 40 24) p.sigWord
        if p.ceEcho then s1.congested c.num else s1)

/-- A packet could not be delivered within FB_RETRY resends: the connection ends, and a member of a multicast write is
given up (R319, R324). -/
def State.exhausted (s : State) (n : Nat) : State :=
  match s.conn n with
  | none => s
  | some c =>
    let ms := c.sent.filterMap (·.mcast)
    let s1 := s.connError n
    ms.foldl (fun s m => s.mcastMark (some m) false) s1

/-- A packet is resent, or the connection is exhausted (R319). -/
def State.retry (s : State) (n psn : Nat) : State :=
  match s.conn n with
  | none => s
  | some c =>
    match c.sent.find? fun k => k.psn == psn with
    | none => s
    | some k => if k.tries ≥ s.cfg 5 9 0 + 1 then s.exhausted n else s.resend n psn

/-- LUDOM_NAK (R316, R319): SEQ_ERR resends from ACK_PSN + 1; BUSY is retried; ACCESS, RANGE and OP end the refused
operation, whose packet leaves. Reserved codes are read as OP. -/
def execLudomNak (port tc : Nat) (pkt : List Byte) (s : State) : Host.Outcome State Fault Refusal :=
  .next (match s.ludomTake port tc pkt 0 with
    | .dropped t => t
    | .ok c p =>
      let s0 := s.takeIngress port tc pkt.length
      if p.op ≠ 7 then s0
      else
        let ack := field p.addr.toNat 40 24
        let code := field p.addr.toNat 32 8
        let s1 := s0.acked c.num ack 0
        let left : List SentPkt := match s1.conn c.num with | some c1 => c1.sent.filter fun k => k.tries ≠ 0 | none => []
        match code with
        | 1 => left.foldl (fun s k => s.retry c.num k.psn) s1
        | 4 => match left.head? with | some k => s1.retry c.num k.psn | none => s1
        | _ => s1)

/-- NOT_READY (R322): the packet waits FB_NR_WAIT before its resend. -/
def execNotReady (port tc : Nat) (pkt : List Byte) (s : State) : Host.Outcome State Fault Refusal :=
  .next (match s.ludomTake port tc pkt 0 with
    | .dropped t => t
    | .ok c p =>
      let s0 := s.takeIngress port tc pkt.length
      if p.op ≠ 8 then s0
      else s0.mapConn c.num fun c => { c with sent := c.sent.map fun k => if k.psn = p.psn then { k with resent := true } else k })

/-- NR_WAIT_EXPIRY (R322): the resend, which counts towards FB_RETRY. -/
def execNrWaitExpiry (conn psn : Nat) (s : State) : Host.Outcome State Fault Refusal := .next (s.retry conn psn)

/-- LUDOM_RTO_EXPIRY (R319): FB_RTO has passed since a packet was last sent. -/
def execLudomRtoExpiry (conn psn : Nat) (s : State) : Host.Outcome State Fault Refusal :=
  .next ((s.retry conn psn).mapConn conn fun c =>
    { c with sent := c.sent.map fun k => { k with resent := false } })

/-- BATCH_AGED (R318): a batch whose FINAL has not been placed within FB_PKT_LIFE of its first write is discarded. -/
def execBatchAged (conn batch : Nat) (s : State) : Host.Outcome State Fault Refusal :=
  .next (match s.conn conn with
    | none => s
    | some c => if (c.batch batch).isSome then (s.setConn (c.endBatch batch)).bumpFabric 4 else s)

/-! ### Connecting and closing (R320, R321, R330) -/

/-- The generation that a CONNECT settles on (R320). -/
def newCgen (c proposal : Nat) : Nat :=
  let d := serialDist 12 c proposal
  if decide (1 ≤ d) && decide (d < 2048) then proposal else (c + 1) % 4096

/-- CONNECT (R320): the receiver adopts the new generation, forgets batches and reads, expects the peer's starting PSN,
and answers CONNECT_ACK. -/
def execConnect (port tc : Nat) (pkt : List Byte) (s : State) : Host.Outcome State Fault Refusal :=
  .next (match s.ludomTake port tc pkt 0 with
    | .dropped t => t
    | .ok c p =>
      let s0 := s.takeIngress port tc pkt.length
      if p.op ≠ 1 || c.state = .closing then s0
      else
        let g := newCgen c.cgen p.cgen
        let c1 := { c with
          cgen := g, batches := [], reads := [], serving := 0, expPsn := p.psn, placed := [], sinceAck := 0, sent := []
          state := .open_, dirty := true }
        let s1 := (s0.setConn c1).sendControl c1 { c1.pkt 2 c1.nextPsn with cgen := g }
        if c.state = .open_ then s1.raise .connPeerReset c.fn c.num c.cgen g else s1)

/-- CONNECT_ACK (R320): the sender adopts the generation; the answer's PSN is the peer's starting PSN. -/
def execConnectAck (port tc : Nat) (pkt : List Byte) (s : State) : Host.Outcome State Fault Refusal :=
  .next (match s.ludomTake port tc pkt 0 with
    | .dropped t => t
    | .ok c p =>
      let s0 := s.takeIngress port tc pkt.length
      if p.op ≠ 2 || c.state ≠ .connecting then s0
      else s0.setConn { c with
        cgen := p.cgen, state := .open_, expPsn := p.psn, placed := [], batches := [], dirty := true })

/-- LUDOM_CLOSE (R321): the peer has closed; the number is released. A system connection is reconnected (R330). -/
def execLudomClose (port tc : Nat) (pkt : List Byte) (s : State) : Host.Outcome State Fault Refusal :=
  .next (match s.ludomTake port tc pkt 0 with
    | .dropped t => t
    | .ok c p =>
      let s0 := s.takeIngress port tc pkt.length
      if p.op ≠ 9 then s0 else if c.sys then s0.connect c.num else s0.releaseConn c.num)

/-- CONNECTION_NUMBER_REUSE (R321): 2 × FB_PKT_LIFE have passed; the number may be given out again. -/
def execConnectionNumberReuse (conn : Nat) (s : State) : Host.Outcome State Fault Refusal :=
  let rs := s.fabric.released.map fun r => if r.1 = conn then (r.1, r.2.1, s.tick.count) else r
  .next { s with fabric := { s.fabric with released := rs } }

/-- SYSCONN_RETRY (R330): a system connection in ERROR is connected again. -/
def execSysconnRetry (conn : Nat) (s : State) : Host.Outcome State Fault Refusal :=
  .next (match s.conn conn with
    | none => s
    | some c => if c.sys && c.state = .error && s.fabricOn then s.connect conn else s)

/-! ### RoCEv2 (R325–R327, 11 R292, 14 R378) -/

/-- BTH opcodes of the responses, as the published specification gives them. -/
def bthAck : Nat := 0x11
def bthReadOnly : Nat := 0x10
def bthAtomicAck : Nat := 0x12
def bthCnp : Nat := 0x81

/-- A RoCE packet from its opcode, PSN and what follows the BTH. -/
def rocePkt (c : Conn) (op psn : Nat) (rest : List Byte) : List Byte :=
  beBytes 1 op ++ beBytes 1 0 ++ beBytes 2 0xFFFF ++ beBytes 1 0 ++ beBytes 3 c.peerConn ++ beBytes 1 0 ++
    beBytes 3 psn ++ rest ++ List.replicate 4 0

/-- An acknowledgement with an AETH syndrome. -/
def State.roceAck (s : State) (c : Conn) (psn syndrome : Nat) : State :=
  s.sendOn c c.tc (rocePkt c bthAck psn (beBytes 1 syndrome ++ beBytes 3 0)) false

/-- AETH syndromes of the published specification: acknowledge, RNR NAK, PSN sequence error, invalid request, remote
access error. -/
def synAck : Nat := 0x1F
def synRnr : Nat := 0x2E
def synSeq : Nat := 0x60
def synInvalid : Nat := 0x61
def synAccess : Nat := 0x62

/-- A NAK that ends the queue pair. -/
def State.roceFail (s : State) (c : Conn) (psn syndrome : Nat) : State :=
  (s.roceAck c psn syndrome).mapConn c.num fun c => { c with state := .error, rx := { send := [], va := 0, rkey := 0, left := 0 } }

/-- Reception of a RoCE request: dropped, waiting for its context, answered at once, or to be run (R27, R325, R329). -/
def State.roceTake (s : State) (n op code : Nat) (p : RocePkt) : State ⊕ Conn :=
  if !s.fabricOn then .inl s
  else
    match s.conn n with
    | none => .inl (s.bumpFabric 6)
    | some c =>
      if c.kind ≠ .roceRc || n ≤ 1 then .inl (s.bumpFabric 8)
      else if !c.cached then .inl (s.waitCtx (.roce n op code p) p.payload.length)
      else if c.state ≠ .open_ then .inl s
      else if s.isFallow then .inl (s.roceAck c p.psn synRnr)
      else
        let d := serialDist 24 c.expPsn p.psn
        if d = 0 then .inr c
        else if d ≥ 2 ^ 23 then .inl ((s.bumpFabric 2).roceAck c ((c.expPsn + 2 ^ 24 - 1) % 2 ^ 24) synAck)
        else .inl (s.roceAck c c.expPsn synSeq)

/-- The stream moves on by k PSNs. -/
def State.rocePsn (s : State) (n k : Nat) : State :=
  s.mapConn n fun c => { c with expPsn := (c.expPsn + k) % 2 ^ 24, dirty := true }

/-- Whether a packet begins or ends its message. -/
def msgBegins : MsgPos → Bool | .first | .only => true | _ => false
def msgEnds : MsgPos → Bool | .last | .only => true | _ => false

/-- A SEND packet (R378): the message is placed whole when its last packet is in. -/
def State.roceSend (s : State) (n : Nat) (p : RocePkt) : State :=
  match s.roceTake n 0 0 p with
  | .inl t => t
  | .inr c =>
    let got := (if (msgBegins p.pos) then [] else c.rx.send) ++ p.payload
    let keep := s.setConn { c with rx := { c.rx with send := got } }
    if !(msgEnds p.pos) then
      let s1 := keep.rocePsn n 1
      if p.ackReq then s1.roceAck c p.psn synAck else s1
    else
      match s.rxPlace c.fn got.length with
      | .none_ => s.roceAck c p.psn synRnr
      | .short => s.roceFail c p.psn synInvalid
      | .at_ e b =>
        let s1 := (s.setConn { c with rx := { c.rx with send := [] } }).rxPut c.fn n e b got
        (s1.rocePsn n 1).roceAck c p.psn synAck

/-- ROCE_SEND. -/
def execRoceSend (conn : Nat) (p : RocePkt) (s : State) : Host.Outcome State Fault Refusal := .next (s.roceSend conn p)

/-- An RDMA WRITE packet: the whole message is checked with its first packet (R313), and each packet is placed as it
arrives. The immediate of its last packet signals a FUNCTION stile (R292). -/
def State.roceWrite (s : State) (n : Nat) (p : RocePkt) (imm : Bool) : State :=
  match s.roceTake n (if imm then 2 else 1) 0 p with
  | .inl t => t
  | .inr c =>
    let (va, key, left) := if (msgBegins p.pos) then (p.va, p.rkey, p.len) else (c.rx.va, c.rx.rkey, c.rx.left)
    let bad :=
      if (msgBegins p.pos) && left ≠ 0 then s.rmaCheck c.fn key va left rWrite
      else if p.payload.length > left then some 3 else none
    match bad with
    | some _ => (s.refuse c key va).roceFail c p.psn synAccess
    | none =>
      let s0 := if p.payload.isEmpty then s else s.placeFn c.fn va p.payload
      let s1 := s0.mapConn n fun c => { c with
        rx := { c.rx with va := va + p.payload.length, rkey := key, left := left - p.payload.length } }
      let i := p.imm.toNat
      let s2 :=
        if imm && (msgEnds p.pos) then
          s1.stileOutside .roceImm c.fn none
            (word [(60, 4, 1), (44, 14, field i 18 14), (36, 8, field i 10 8), (24, 12, s.tick.count.toNat % 4096),
              (0, 24, field i 0 10 + 1)]).toNat
        else s1
      let s3 := s2.rocePsn n 1
      if p.ackReq || (msgEnds p.pos) then s3.roceAck c p.psn synAck else s3

/-- RDMA_WRITE. -/
def execRdmaWrite (conn : Nat) (p : RocePkt) (s : State) : Host.Outcome State Fault Refusal := .next (s.roceWrite conn p false)

/-- RDMA_WRITE_WITH_IMMEDIATE. -/
def execRdmaWriteWithImmediate (conn : Nat) (p : RocePkt) (s : State) : Host.Outcome State Fault Refusal :=
  .next (s.roceWrite conn p true)

/-- An RDMA READ: the data is read when the request is served, and returned in packets of the path MTU. -/
def State.roceRead (s : State) (n : Nat) (p : RocePkt) : State :=
  match s.roceTake n 3 0 p with
  | .inl t => t
  | .inr c =>
    if c.serving ≥ 16 then s.roceFail c p.psn synInvalid
    else
      match s.rmaCheck c.fn p.rkey p.va p.len rRead with
      | some _ => (s.refuse c p.rkey p.va).roceFail c p.psn synAccess
      | none =>
        let k := max 1 (ceilDiv p.len c.mtu)
        let data := s.readNode p.va p.len
        let op (i : Nat) : Nat := if k = 1 then bthReadOnly else if i = 0 then 0x0D else if i + 1 = k then 0x0F else 0x0E
        let aeth (i : Nat) : List Byte := if op i = 0x0E then [] else beBytes 1 synAck ++ beBytes 3 0
        let s1 := (s.mapConn n fun c => { c with serving := c.serving + 1 }).rocePsn n k
        (List.range k).foldl (fun s i =>
          s.sendOn c c.tc (rocePkt c (op i) (p.psn + i) (aeth i ++ (data.drop (c.mtu * i)).take c.mtu)) (i + 1 == k)) s1

/-- RDMA_READ. -/
def execRdmaRead (conn : Nat) (p : RocePkt) (s : State) : Host.Outcome State Fault Refusal := .next (s.roceRead conn p)

/-- An atomic (R314): it acts on 8 aligned bytes of a region with ATOMIC and answers with the value before. -/
def State.roceAtomic (s : State) (n opn : Nat) (p : RocePkt) (f : Nat → Nat) : State :=
  match s.roceTake n opn 0 p with
  | .inl t => t
  | .inr c =>
    if c.serving ≥ 16 then s.roceFail c p.psn synInvalid
    else
      match s.rmaCheck c.fn p.rkey p.va 8 rAtomic with
      | some _ => (s.refuse c p.rkey p.va).roceFail c p.psn synAccess
      | none =>
        let (s1, old) := s.atomic p.va f
        let s2 := (s1.mapConn n fun c => { c with serving := c.serving + 1 }).rocePsn n 1
        s2.sendOn c c.tc (rocePkt c bthAtomicAck p.psn (beBytes 1 synAck ++ beBytes 3 0 ++ beBytes 8 old)) true

/-- FETCH_ADD. -/
def execFetchAdd (conn : Nat) (p : RocePkt) (s : State) : Host.Outcome State Fault Refusal :=
  .next (s.roceAtomic conn 4 p fun v => v + p.swapAdd.toNat)

/-- CMP_SWAP. -/
def execCmpSwap (conn : Nat) (p : RocePkt) (s : State) : Host.Outcome State Fault Refusal :=
  .next (s.roceAtomic conn 5 p fun v => if v = p.compare.toNat then p.swapAdd.toNat else v)

/-- A response of the peer to a request of this queue pair: packets up to its PSN are acknowledged. -/
def State.roceAcked (s : State) (n psn : Nat) : State :=
  s.mapConn n fun c => { c with sent := c.sent.filter fun k => !ackCovers psn 0 k.psn }

/-- ROCE_ACK. -/
def execRoceAck (conn : Nat) (p : RocePkt) (s : State) : Host.Outcome State Fault Refusal := .next (s.roceAcked conn p.psn)

/-- ROCE_NAK: a sequence error resends from its PSN; any other code moves the queue pair to its error state (R313,
R325). -/
def execRoceNak (conn : Nat) (p : RocePkt) (code : Nat) (s : State) : Host.Outcome State Fault Refusal :=
  .next (match s.conn conn with
    | none => s
    | some c =>
      if code = 0 then (s.roceAcked conn ((p.psn + 2 ^ 24 - 1) % 2 ^ 24)).resendAll conn
      else s.setConn { c with state := .error, sent := [] })

/-- RNR_NAK: the refused packet and those after it are sent again. -/
def execRnrNak (conn : Nat) (p : RocePkt) (s : State) : Host.Outcome State Fault Refusal :=
  .next ((s.roceAcked conn ((p.psn + 2 ^ 24 - 1) % 2 ^ 24)).resendAll conn)

/-- ROCE_RETRY_TIMEOUT: a packet is sent again, or the queue pair ends after FB_RETRY resends (R307). -/
def execRoceRetryTimeout (conn psn : Nat) (s : State) : Host.Outcome State Fault Refusal := .next (s.retry conn psn)

/-- The group index of a UD connection of a function: 0–15 in ascending connection number. -/
def State.udIndex (s : State) (c : Conn) : Nat :=
  (s.fabric.conns.filter fun d => d.kind == .udGroup && d.fn == c.fn && decide (d.num < c.num)).length

/-- UD_SEND (R326): a SEND to a joined group with the right Q_Key goes to the function's receive ring; any other is
dropped and counted. -/
def execUdSend (conn qkey : Nat) (payload : List Byte) (s : State) : Host.Outcome State Fault Refusal :=
  if !s.fabricOn then .next s
  else
    match s.conn conn with
    | none => .next (s.bumpFabric 8)
    | some c =>
      if c.kind ≠ .udGroup || c.qkey ≠ qkey || c.state ≠ .open_ then .next (s.bumpFabric 8)
      else
        .next (match s.rxPlace c.fn payload.length with
          | .at_ e b => s.rxPut c.fn (s.udIndex c) e b payload
          | _ => s.bumpFabric 8)

/-! ### Congestion (R327) -/

/-- CE_MARK: a CE-marked packet on a connection. Ludom echoes it in the next ACK; RoCE sends a CNP, at most one per 50 µs;
planned classes count it. -/
def execCeMark (conn : Nat) (atNs : Nat) (s : State) : Host.Outcome State Fault Refusal :=
  .next (match s.conn conn with
    | none => s
    | some c =>
      let s0 := if c.tc ≥ 2 then s.bumpFabric 10 else s
      if c.kind = .roceRc then
        let due := match c.lastCnp with | some t => decide (t + 50000 ≤ atNs) | none => true
        if due then (s0.setConn { c with lastCnp := some atNs }).sendOn c c.tc (rocePkt c bthCnp 0 (List.replicate 16 0)) false
        else s0
      else s0.setConn { c with ceEcho := true })

/-- CNP: the connection's rate is halved. -/
def execCnp (conn : Nat) (s : State) : Host.Outcome State Fault Refusal := .next (s.congested conn)

/-- CE_RATE_RECOVERY: 50 µs without a mark raise the rate by 5 % of the port's. -/
def execCeRateRecovery (conn : Nat) (s : State) : Host.Outcome State Fault Refusal :=
  .next (match s.conn conn with
    | none => s
    | some c =>
      let full := if (s.port c.port).degraded then 400000 else 800000
      match c.rate with
      | none => s
      | some r => s.setConn { c with rate := if r + full / 20 ≥ full then none else some (r + full / 20), marked := false })

/-! ### Contexts (R328, R329) -/

/-- Contexts of spilled connections that fit on chip. -/
def State.ctxPlaces (s : State) : Nat := 8192 - s.fabric.residents

/-- The context of a spilled connection is on chip: the least recently used one makes room, and its modified state has
been written back. -/
def State.cacheCtx (s : State) (n : Nat) : State :=
  let l := s.fabric.lru.filter (· ≠ n)
  let (s1, l1) :=
    if l.length ≥ s.ctxPlaces then
      match l with
      | v :: r => (s.mapConn v fun c => { c with cached := false, dirty := false }, r)
      | [] => (s, [])
    else (s, l)
  let s2 := s1.mapConn n fun c => { c with cached := true }
  { s2 with fabric := { s2.fabric with lru := l1 ++ [n] } }

/-- A packet that waited is taken as though it arrived now. -/
def State.takeWaiting (s : State) (w : WaitPkt) : State :=
  match w with
  | .ludom _ port tc pkt at_ =>
    match lPkt pkt with
    | some p =>
      if p.op = 3 then s.ludomWrite port tc pkt at_
      else if p.op = 4 then s.ludomRead port tc pkt
      else if p.op = 5 then s.readResp port tc pkt
      else if p.op = 6 then
        (if (s.conn p.dst).any fun c => c.cgen == p.cgen then s.acked p.dst (field p.addr.toNat 40 24) p.sigWord
         else s.bumpFabric 1)
      else s
    | none => s
  | .roce n op _ p =>
    match op with
    | 0 => s.roceSend n p
    | 1 => s.roceWrite n p false
    | 2 => s.roceWrite n p true
    | 3 => s.roceRead n p
    | 4 => s.roceAtomic n 4 p fun v => v + p.swapAdd.toNat
    | _ => s.roceAtomic n 5 p fun v => if v = p.compare.toNat then p.swapAdd.toNat else v

/-- The connection that a waiting packet names. -/
def WaitPkt.conn : WaitPkt → Nat
  | .ludom n _ _ _ _ => n
  | .roce n _ _ _ => n

/-- CONTEXT_FETCH_DONE (R329): the context arrives, and the packets that waited for it are taken in order. -/
def execContextFetchDone (conn : Nat) (s : State) : Host.Outcome State Fault Refusal :=
  let mine := s.fabric.waiting.filter fun w => w.conn == conn
  if mine.isEmpty then .next s
  else
    let s1 := { s with fabric := { s.fabric with waiting := s.fabric.waiting.filter fun w => w.conn != conn } }
    .next (mine.foldl (fun s w => s.takeWaiting w) (s1.cacheCtx conn))

end Sys2Proof.Machine
end

