-- ==== Sys2Proof/Machine/Egress.lean ====
section
/-! DEFINITION. Egress: order of service, shapers, gates, policers (13 R335–R353); opening and closing connections
(14 R380); the end of a region key's quarantine (12 R312). -/

namespace Sys2Proof.Machine

/-! ### Gates (R344, R345) -/

/-- A frame's time on a port, ps (R345). -/
def State.frameTime (s : State) (p len : Nat) : Nat := (len + 20) * (if (s.port p).degraded then 20 else 10)

/-- The guard band of a port, ps (Table EG-4). -/
def State.guardBand (s : State) (p : Nat) : Nat := if (s.port p).degraded then 86000 else 43000

/-- The SEND records of the active plan, with their indexes. -/
def State.sendRecs (s : State) : List (GateRec × Nat) := (gateRecs s.plan0).zipIdx.filter fun r => r.1.kind == 1

/-- The open records of a class on a port. -/
def State.openRecs (s : State) (p tc : Nat) : List GateRec :=
  (s.sendRecs.filter fun r => s.egress.gates.contains r.2 && r.1.tc == tc && r.1.ports.testBit p).map (·.1)

/-- Whether a planned class has an open gate on a port. -/
def State.plannedOpen (s : State) (p : Nat) : Bool := [2, 3, 4, 5].any fun tc => !(s.openRecs p tc).isEmpty

/-- Whether the gate of a class admits a frame of some length at an instant (R344), ps from the edge. -/
def State.gateAdmits (s : State) (p tc len offPs : Nat) : Bool :=
  if tc ≥ 6 then true
  else if tc ≤ 1 then !s.plannedOpen p
  else
    let rs := s.openRecs p tc
    let close := (rs.map (·.close)).foldl max 0 * 1000
    !rs.isEmpty &&
      (if rs.any (·.cut) then decide (offPs + s.guardBand p ≤ close)
       else decide (offPs + s.frameTime p len ≤ close))

/-- A SEND record's window opens (R344). -/
def State.gateOpens (s : State) (index : Nat) : State :=
  if s.sendRecs.any (fun r => r.2 == index) && !s.egress.gates.contains index then
    { s with egress := { s.egress with gates := s.egress.gates ++ [index] } }
  else s

/-- Every frame of a class that waits on a port is discarded and counted in FB_EG_DROP (R348). -/
def State.discardClass (s : State) (p tc : Nat) : State :=
  let x := s.egPort p
  let n := (x.queues.getD tc []).length
  s.setEgPort p (({ x with
    queues := x.queues.set tc [], waited := if n = 0 then x.waited else x.waited.set tc false }).bump tc 2 n)

/-- GATE_CLOSE (R344, R348): a SEND record's window closes; at the close of the last TC3 window of the tick on a port, the
TC3 frames that wait there are discarded. -/
def execGateClose (index : Nat) (s : State) : Host.Outcome State Fault Refusal :=
  if !s.egress.gates.contains index then .next s
  else
    let s1 := { s with egress := { s.egress with gates := s.egress.gates.erase index } }
    match (gateRecs s.plan0)[index]? with
    | none => .next s1
    | some g =>
      if g.tc ≠ 3 then .next s1
      else
        let later (p : Nat) : Bool :=
          s.sendRecs.any fun r => r.1.tc == 3 && r.1.ports.testBit p && decide (g.close < r.1.close)
        let last (p : Nat) : Bool := g.ports.testBit p && !later p && (s1.openRecs p 3).isEmpty
        .next ((List.range 8).foldl (fun s p => if last p then s.discardClass p 3 else s) s1)

/-! ### Shapers and policers (R340–R342, R350) -/

/-- Whether a refill at a whole µs uses the values in force, or those of the tick before (R342). -/
def State.refillNew (s : State) (us : Nat) : Bool := decide (s.boundaryEndNs ≤ us * 1000)

/-- SHAPER_REFILL (R340, R342). -/
def execShaperRefill (us : Nat) (s : State) : Host.Outcome State Fault Refusal :=
  let sh := if s.refillNew us then (List.range 6).map fun tc => (s.cfg 5 0x11 tc, s.cfg 5 0x12 tc) else s.egress.shapers
  let fill (x : EgPort) : EgPort :=
    { x with buckets := (x.buckets.zip sh).map fun b => min b.2.2 (b.1 + b.2.1 * 125) }
  .next { s with egress := { s.egress with shapers := sh, ports := s.egress.ports.map fill } }

/-- POLICER_REFILL (R350, R342). -/
def execPolicerRefill (us : Nat) (s : State) : Host.Outcome State Fault Refusal :=
  let s1 := if s.refillNew us then { s with egress := { s.egress with rates := [] } } else s
  let fill (p : Policer) : Policer :=
    let r := s1.policeRate p.fn
    { p with bucket := min r.2 (p.bucket + r.1 * 125) }
  .next { s1 with egress := { s1.egress with policers := s1.egress.policers.map fill } }

/-! ### Order of service (R335–R339) -/

/-- The head frame of a class on a port. -/
def EgPort.head (x : EgPort) (tc : Nat) : Option EgFrame := (x.queues.getD tc []).head?

/-- Whether the shaper of a class holds a frame's length (R340). -/
def State.shaperHolds (s : State) (x : EgPort) (tc len : Nat) : Bool :=
  decide (tc ≥ 6) || (s.egress.shapers.getD tc (0, 0)).1 == 0 || decide (len ≤ x.buckets.getD tc 0)

/-- Whether a class may send on a port at an instant (R335), and is not paused there (R305). -/
def State.eligible (s : State) (p tc offPs : Nat) : Bool :=
  let x := s.egPort p
  match x.head tc with
  | none => false
  | some f => s.gateAdmits p tc f.len offPs && s.shaperHolds x tc f.len && !(s.port p).paused.testBit tc

/-- DWRR (R337): the class that the round of TC5 to TC0 comes to. The port comes back with its deficits and its place in
the round. -/
def dwrr (ok : Nat → Bool) (quantum : Nat → Nat) : Nat → EgPort → Option (Nat × EgPort)
  | 0, _ => none
  | fuel + 1, x =>
    let c := x.round
    let after := { x with round := if c = 0 then 5 else c - 1, visiting := false }
    match x.head c with
    | none => dwrr ok quantum fuel { after with deficits := x.deficits.set c 0 }
    | some f =>
      if !ok c then dwrr ok quantum fuel after
      else
        let d := x.deficits.getD c 0 + (if x.visiting then 0 else quantum c)
        if f.len ≤ d then some (c, { x with visiting := true, deficits := x.deficits.set c (d - f.len) })
        else dwrr ok quantum fuel { after with deficits := x.deficits.set c d }

/-- The class that sends next (R336), with the port's DWRR state after the choice. -/
def State.nextClass (s : State) (p offPs : Nat) : Option (Nat × EgPort) :=
  let x := s.egPort p
  if s.eligible p 7 offPs then some (7, x)
  else if s.eligible p 6 offPs then some (6, x)
  else if (List.range 6).any fun tc => s.eligible p tc offPs then
    dwrr (fun tc => s.eligible p tc offPs) (fun tc => s.cfg 5 0x10 tc) 13 x
  else none

/-- Gate waits (R351): each head frame whose shaper holds it and whose gate does not let it go, once. -/
def State.gateWaits (s : State) (p offPs : Nat) : State :=
  let one (s : State) (tc : Nat) : State :=
    let x := s.egPort p
    match x.head tc with
    | none => s
    | some f =>
      if s.shaperHolds x tc f.len && !s.gateAdmits p tc f.len offPs && !x.waited.getD tc false then
        s.setEgPort p (({ x with waited := x.waited.set tc true }).bump tc 3 1)
      else s
  (List.range 6).foldl one s

/-- A frame starts: it leaves its queue, its shaper pays, and the port is busy for its time. -/
def State.startFrame (s : State) (p tc offPs : Nat) (x : EgPort) (f : EgFrame) : State :=
  let y := ((({ x with
      queues := x.queues.set tc ((x.queues.getD tc []).drop 1), waited := x.waited.set tc false
      busyPs := offPs + s.frameTime p f.len
      buckets := if (s.egress.shapers.getD tc (0, 0)).1 = 0 then x.buckets else x.buckets.modify tc (· - f.len) }).bump
      tc 0 f.len).bump tc 1 1)
  let s1 := (s.setEgPort p y).bumpPort p 1 1
  match f.conn, f.endsRead with
  | some n, true => s1.mapConn n fun c => { c with serving := c.serving - 1 }
  | _, _ => s1

/-- EGRESS_FRAME_START (R336): a port's transmitter is free, and the next frame starts. -/
def execEgressFrameStart (port offPs : Nat) (s : State) : Host.Outcome State Fault Refusal :=
  if !s.fabricOn || !(s.port port).up || decide (offPs < (s.egPort port).busyPs) then .next s
  else
    let s1 := s.gateWaits port offPs
    match s1.nextClass port offPs with
    | none => .next s1
    | some (tc, x) =>
      match x.head tc with
      | none => .next s1
      | some f => .next (s1.startFrame port tc offPs x f)

/-- Whether a planned class has a SEND record on a port. -/
def State.hasSend (s : State) (p tc : Nat) : Bool := s.sendRecs.any fun r => r.1.tc == tc && r.1.ports.testBit p

/-- Frames of a planned class without a SEND record on the port are discarded (R348). -/
def State.dropUnplanned (s : State) (p tc : Nat) : State := if s.hasSend p tc then s else s.discardClass p tc

/-- Egress at a boundary: times count from the new edge, every window is closed, and unplanned frames are discarded. -/
def State.egressBoundary (s : State) : State :=
  let ports := s.egress.ports.map fun x => { x with busyPs := x.busyPs - s.tickNs * 1000 }
  let s1 := { s with egress := { s.egress with gates := [], ports := ports } }
  let slots := (List.range 8).flatMap fun p => [(p, 2), (p, 3), (p, 4), (p, 5)]
  slots.foldl (fun s x => s.dropUnplanned x.1 x.2) s1

/-! ### Opening and closing connections (R320, R321, R330, R349, R380) -/

/-- Whether a number may be given to a connection: no connection has it, and no release is still to be waited out. -/
def State.numFree (s : State) (n : Nat) : Bool :=
  (s.conn n).isNone && s.fabric.released.all fun r => r.1 != n || decide (r.2.2 ≤ s.tick.count)

/-- The generation with which a number's next incarnation starts (R321). -/
def State.nextCgen (s : State) (n : Nat) : Nat :=
  match s.fabric.released.find? fun r => r.1 == n with
  | some r => (r.2.1 + 1) % 4096
  | none => 0

/-- The lowest free number of the resident or spilled range; numbers 0 and 1 are never queue pairs (R325). -/
def State.lowestNum (s : State) (resident qp : Bool) : Option Nat :=
  let lo := if resident then (if qp then 2 else 0) else 8192
  let hi := if resident then s.fabric.residents else 8192 + s.fabric.ctxCount
  ((List.range (hi - lo)).map (· + lo)).find? s.numFree

/-- The kind that a KIND code names (Table HI-15A). -/
def connKind (k : Nat) : ConnKind := if k = 0 then .roceRc else if k = 1 then .ordered else if k = 2 then .relaxed else .udGroup

/-- Form, class and quotas of CONN_OPEN. -/
def connOpenCheck (s : State) (d : Desc) : Option Nat :=
  let kind := field (d.w 1) 34 2
  let tc := field (d.w 1) 37 3
  let resident := (d.w 1).testBit 36
  let mine := s.fabric.conns.filter fun c => c.fn == d.fn && !c.sys
  if s.isFallow then some stNotPermitted
  else if field (d.w 1) 40 8 = 0 || !zeros d [(1, 24, 8), (4, 48, 16), (5, 21, 11), (6, 0, 64), (7, 0, 64)] ||
      (if kind = 1 || kind = 2 then field (d.w 1) 32 2 ≠ 0 else field (d.w 1) 32 2 = 3) ||
      (kind ≠ 0 && field (d.w 1) 0 24 ≠ 0) || (kind ≠ 3 && field (d.w 5) 32 32 ≠ 0) then some stBad
  else if tc ≥ 2 then some stNotPermitted
  else
    match s.compEntry d.fn with
    | none => some stNotPermitted
    | some e =>
      let held := (mine.filter fun c => c.resident == resident).length
      if decide (held ≥ (if resident then entResident e else entSpilled e)) ||
          (s.lowestNum resident (kind == 0 || kind == 3)).isNone ||
          (kind == 3 && decide (16 ≤ (mine.filter fun c => c.kind == .udGroup).length)) then some stOverQuota
      else none

/-- The connection of a CONN_OPEN: it opens at the next boundary, with a starting PSN that the spec leaves open. -/
def connOpenBody (s : State) (d : Desc) : State :=
  let kind := field (d.w 1) 34 2
  match s.lowestNum ((d.w 1).testBit 36) (kind == 0 || kind == 3) with
  | none => s.endWith d stOverQuota
  | some n =>
    let psn := s.freshWord.toNat % 2 ^ 24
    let c := { connBase n d.fn (field (d.w 1) 37 3) (field (d.w 1) 40 8) (connKind kind) false with
      peerHi := BitVec.ofNat 64 (d.w 2), peerLo := BitVec.ofNat 64 (d.w 3), peerMac := field (d.w 4) 0 48
      peerConn := field (d.w 5) 0 21, mtu := 1024 * 2 ^ field (d.w 1) 32 2, qkey := field (d.w 5) 32 32
      nextPsn := psn, expPsn := field (d.w 1) 0 24, cgen := s.nextCgen n, resident := (d.w 1).testBit 36
      cached := (d.w 1).testBit 36 }
    let gone := s.fabric.released.filter fun r => r.1 != n
    let s1 := { s with fabric := { s.fabric with released := gone } }
    let port := (s.firstUp c).getD (n % 8)
    ((s1.tookFresh).setConn { c with port := port }).finish d.fn d.ring d.seq
      { status := stOk, flags := 0, result := word [(0, 21, n), (24, 24, psn)] } []

/-- CONN_OPEN (R380). -/
def execConnOpen (d : Desc) (s : State) : Host.Outcome State Fault Refusal :=
  .next (s.runDesc d 0x07 connOpenCheck oneSlot connOpenBody)

/-- Form and holder of CONN_CLOSE. -/
def connCloseCheck (s : State) (d : Desc) : Option Nat :=
  if s.isFallow then some stNotPermitted
  else if !zeros d [(1, 0, 48), (2, 21, 43), (3, 0, 64), (4, 0, 64), (5, 0, 64), (6, 0, 64), (7, 0, 64)] then some stBad
  else
    match s.conn (field (d.w 2) 0 21) with
    | some c => if c.fn = d.fn && !c.sys then none else some stBad
    | none => some stBad

/-- CONN_CLOSE (R380): the connection closes at the next boundary. -/
def execConnClose (d : Desc) (s : State) : Host.Outcome State Fault Refusal :=
  .next (s.runDesc d 0x08 connCloseCheck oneSlot fun s d =>
    (s.mapConn (field (d.w 2) 0 21) fun c => { c with state := .closing }).endWith d stOk)

/-- One connection at a boundary: it opens, closes, or chooses its sending port. -/
def State.connBoundary (s : State) (n : Nat) : State :=
  match s.conn n with
  | none => s
  | some c =>
    let ludom := c.kind = .ordered || c.kind = .relaxed
    match c.state with
    | .opening => if ludom then s.connect n else s.setConn { c with state := .open_ }
    | .closing =>
      if ludom then ((s.sendControl c (c.pkt 9 c.nextPsn)).releaseConn n) else s.releaseConn n
    | _ =>
      if c.sys && decide (2 ≤ c.tc) && decide (c.tc ≤ 5) then
        match s.planPort c with
        | some p => s.setConn { c with port := p }
        | none => s
      else s

/-- Every connection at a boundary. -/
def State.connsBoundary (s : State) : State := (s.fabric.conns.map (·.num)).foldl State.connBoundary s

/-! ### The end of a key's quarantine (R312) -/

/-- Whether an entry's quarantine has ended. -/
def State.rmaRelease (s : State) (r : Rma) : Rma :=
  if r.state = .quarantine && decide (r.quarEnd ≤ s.tick.count) then { r with state := .free } else r

/-- RMA_QUARANTINE_END: an entry whose quarantine has ended may be allocated again. -/
def execRmaQuarantineEnd (entry : Nat) (s : State) : Host.Outcome State Fault Refusal :=
  let rs := s.fabric.rma.map fun r => if r.entry = entry then s.rmaRelease r else r
  .next { s with fabric := { s.fabric with rma := rs } }

end Sys2Proof.Machine
end

