-- ==== Sys2Proof/Machine/FlashCmd.lean ====
section
/-! DEFINITION. The flash commands that are no re-rank reads: programs, erases, reconstruction and loss, die states,
rotation events, checkpoints, refill and FORMAT (10 R252–R255, R262–R275). -/

namespace Sys2Proof.Machine

/-! ### Programs and erases (R262, R268, R270) -/

/-- Log records whose pages have been programmed are durable. -/
def State.settleLog (s : State) : State :=
  { s with flash := { s.flash with log := s.flash.log.map fun e => { e with durable := e.durable || s.recDurable e } } }

/-- PROGRAM_DONE: a page of the stream is programmed and journalled, and log records become durable; or the block is bad,
it is replaced, and the superblock's data moves to another. -/
def execProgramDone (cw : FlashPlace) (ok : Bool) (s : State) : Host.Outcome State Fault Refusal :=
  let x := s.sb cw.set cw.plane cw.block
  let written := (x.state == .open_ || x.state == .full) && decide (cw.page ≤ x.page) && decide (cw.page < streamPages)
  .next (if !written || x.programmed.contains cw.page then s
    else if ok then
      ((s.setSb { x with programmed := x.programmed ++ [cw.page] }).jot 3 [cw.set, cw.plane, cw.block, cw.page]).settleLog
    else
      let s1 := s.badBlock (pageDie cw.set cw.block cw.page) cw.plane cw.block
      let s2 := s1.setSb { x with state := .full }
      match s2.pickSb with
      | some b => (s2.moveSb { x with state := .full } b).settleLog
      | none => s2)

/-- FORMATs whose superblocks have all been erased end: the header is written, and VOLUME_ID returned (R266, R267). -/
def State.formatEnds (s : State) : State :=
  let busy (j : FormatJob) : Bool :=
    s.flash.sbs.any fun x => j.mask.testBit x.set && (x.state == .erasing || x.state == .unknown)
  let done := s.flash.formats.filter fun j => !busy j
  let one (s : State) (j : FormatJob) : State :=
    let id := BitVec.ofNat 32 s.freshWord.toNat
    let old := s.flash.vols.filter fun v => v.wear == 1
    let sets := j.mask ||| (old.map fun v => v.diesets.toNat).foldl (· ||| ·) 0
    let keep := (s.flash.vols.filter fun v => v.wear != 1).map fun v =>
      { v with diesets := BitVec.ofNat 32 (v.diesets.toNat &&& (0xFFFFFFFF - j.mask)) }
    let v : Volume :=
      { format := 2, wear := 1, diesets := BitVec.ofNat 32 sets, volumeId := id, formatTick := s.tick.count }
    let s1 := s.tookFresh
    let s2 := { s1 with flash := { s1.flash with vols := v :: keep.filter fun u => u.diesets != 0 } }
    s2.finish j.fn j.ring j.seq { status := stOk, flags := 0, result := BitVec.ofNat 64 id.toNat } []
  let s1 := done.foldl one s
  { s1 with flash := { s1.flash with formats := s1.flash.formats.filter busy } }

/-- ERASE_DONE: the erase of a superblock is complete and journalled; a block whose erase failed is replaced. An
erase-unknown superblock's erase is counted in FL_REERASE. -/
def execEraseDone (cw : FlashPlace) (bad : List Nat) (s : State) : Host.Outcome State Fault Refusal :=
  let x := s.sb cw.set cw.plane cw.block
  .next (if x.state == .erasing || x.state == .unknown then
      let s1 := if x.state == .unknown then s.bumpFlash 9 1 else s
      let s2 := (s1.setSb { x with
        erases := x.erases + 1, state := .free, page := 0, off := 0, programmed := [], suspended := false }).jot 2
        [cw.set, cw.plane, cw.block]
      let s3 := (bad.filter fun d => setOfDie d == cw.set).foldl (fun s d => s.badBlock d cw.plane cw.block) s2
      s3.formatEnds
    else s)

/-! ### Reconstruction and loss (R253, R254) -/

/-- The vector that the codeword at a place holds a piece of: function, index, vector id. -/
def State.vecOfWord (s : State) (p : FlashPlace) : Option (Nat × Nat × Word64) :=
  let inLog := s.flash.log.findSome? fun e =>
    match e.vec with
    | some (f, o, l, q) =>
      if (logPlaces e).contains p then (s.index f o).map fun x => (f, o, vecId x l q) else none
    | none => none
  let inSeg := s.flash.segs.findSome? fun g =>
    match s.index g.fn g.obj with
    | none => none
    | some x =>
      let R := segRows (vecStride x)
      (List.range (s.segHdr g.map).sheaves).findSome? fun t =>
        let e := s.segEntry g.map t
        if (sheafPlaces e).contains p then
          ((List.range e.sizes.length).find? fun i => (blockPlaces e i).contains p).map fun i =>
            (g.fn, g.obj, vecId x g.list (R * t + i))
        else none
  match inLog with | some v => some v | none => inSeg

/-- A codeword is declared lost (R254). -/
def State.loseWord (s : State) (w : Codeword) : State :=
  let p : FlashPlace := { set := w.set, plane := w.plane, block := w.block, page := w.page, off := w.off }
  let s1 := ((s.jot 8 [w.set, w.plane, w.block, w.page * 65536 + w.off]).bumpFlash 3 1).raiseNamed .mediaLost
    [w.set, w.plane, w.block, w.page, w.off]
  match s1.vecOfWord p with
  | none => s1
  | some (f, o, vid) =>
    if (s1.lostOf f o vid).isSome then s1
    else { s1 with flash := { s1.flash with
        lost := s1.flash.lost ++ [{ fn := f, obj := o, vid := vid, crc := w.crc, refill := .none }] } }

/-- A codeword leaves the reconstructions under way. -/
def State.endRecon (s : State) (p : FlashPlace) : State :=
  { s with flash := { s.flash with recon := s.flash.recon.filter fun r =>
      r != (p.set, p.plane, p.block, p.page, p.off) } }

/-- FLASH_RECONSTRUCT_DONE: with no other page of the stripe unreadable there, the codeword is given back and counted;
else the range is lost in every page that cannot be read. `unreadable` holds channels of the half, 0–15. -/
def execFlashReconstructDone (cw : FlashPlace) (unreadable : List Nat) (s : State) : Host.Outcome State Fault Refusal :=
  .next (match s.cwAt cw with
    | none => s.endRecon cw
    | some w =>
      let s0 := s.endRecon cw
      if unreadable.isEmpty then
        let s1 := s0.bumpFlash 2 1
        { s1 with flash := { s1.flash with rebuilt := (s1.flash.rebuilt.filter (· != cw)) ++ [cw] } }
      else
        let lo := w.off
        let hi := w.off + w.user.length + 128
        let gone := s0.flash.words.filter fun v =>
          v.set == w.set && v.plane == w.plane && v.block == w.block && v.page / 15 == w.page / 15 &&
            (v.page == w.page || unreadable.contains (pageChan v.block v.page)) &&
            decide (v.off < hi) && decide (lo < v.off + v.user.length + 128)
        gone.foldl State.loseWord s0)

/-! ### Dies (R255) -/

/-- DIE_FAILED. -/
def execDieFailed (die : Nat) (s : State) : Host.Outcome State Fault Refusal := .next (s.dieFails die)

/-- The rebuilds of the die sets of failed dies are under way from this boundary. -/
def State.startRebuilds (s : State) : State :=
  let sets := ((s.flash.dies.filter fun d => d.state == .failed).map fun d => setOfDie d.id).dedup
  let dies := s.flash.dies.map fun d => if sets.contains (setOfDie d.id) then { d with rebuild := true } else d
  { s with flash := { s.flash with dies := dies } }

/-- DIE_RETIRED: the rebuild of a failed die's set completes: its superblocks' data stands in other die sets, and the die
is RETIRED. -/
def execDieRetired (die : Nat) (s : State) : Host.Outcome State Fault Refusal :=
  let d := s.die die
  let set := setOfDie die
  .next (if d.state ≠ .failed || !d.rebuild then s
    else
      let move (s : State) (x : Superblock) : State :=
        match s.pickSb with
        | some b => (s.moveSb x b).setSb { x with state := .full }
        | none => s
      let s1 := (s.flash.sbs.filter fun x => x.set == set && s.sbHolds x).foldl move s
      let s2 := s1.dieTo die .retired
      let dies := s2.flash.dies.map fun y => if setOfDie y.id = set then { y with rebuild := false } else y
      { s2 with flash := { s2.flash with dies := dies } })

/-! ### Rotation events (R263) -/

/-- Put a segment back. -/
def State.setSeg (s : State) (g : Segment) : State :=
  let segs := s.flash.segs.map fun x => if x.fn == g.fn && x.obj == g.obj && x.list == g.list then g else x
  { s with flash := { s.flash with segs := segs } }

/-- A segment's age in ticks. -/
def State.segAge (s : State) (g : Segment) : Nat := s.tick.count.toNat - g.writeTick.toNat

/-- SEGMENT_AGE_WARN. -/
def execSegmentAgeWarn (fn index list : Nat) (s : State) : Host.Outcome State Fault Refusal :=
  .next (match s.segOf fn index list with
    | none => s
    | some g =>
      if !g.warned && s.segAge g * 10 > 9 * s.ticksOfDays (s.cfg 4 0 0) then
        (s.setSeg { g with warned := true }).raiseNamed .segmentWarn [fn, index, list]
      else s)

/-- SEGMENT_PAST_BOUND: once per 86,400,000 ms. -/
def execSegmentPastBound (fn index list : Nat) (s : State) : Host.Outcome State Fault Refusal :=
  .next (match s.segOf fn index list with
    | none => s
    | some g =>
      let due : Bool := match g.pastTick with
        | some t => decide (t.toNat + s.ticksOfDays 1 ≤ s.tick.count.toNat)
        | none => true
      if due && decide (s.segAge g > s.ticksOfDays (s.cfg 4 0 0)) then
        ((s.setSeg { g with pastTick := some s.tick.count }).bumpFlash 10 1).raiseNamed .segmentPast [fn, index, list]
      else s)

/-! ### Checkpoints and root pages (R273) -/

/-- Whether something done every n ticks is due. -/
def State.everyTicks (s : State) (last : Option Word64) (n : Nat) : Bool :=
  !s.flash.vols.isEmpty &&
    (match last with | some t => decide (t.toNat + n ≤ s.tick.count.toNat) | none => true)

/-- CHECKPOINT. -/
def execCheckpoint (s : State) : Host.Outcome State Fault Refusal :=
  .next (if s.everyTicks s.flash.checkpoint 256 then
      let s1 := s.jot 0x0B [s.tick.count.toNat]
      { s1 with flash := { s1.flash with checkpoint := some s.tick.count } }
    else s)

/-- ROOT_PAGE_WRITE. -/
def execRootPageWrite (s : State) : Host.Outcome State Fault Refusal :=
  .next (if s.everyTicks s.flash.rootPage 65536 then
      { s with flash := { s.flash with rootPage := some s.tick.count } }
    else s)

/-! ### Refill from the replica (R275) -/

/-- One vector of the flash read service's answer: its id, STATUS (0 OK, 1 LOST), scale, norm and row. -/
def State.serviceRow (s : State) (x : Index) (id : Word64) : RefillRow :=
  let v := match s.idPlace x id.toNat with | some (l, p, _) => s.fullVec x l p | none => none
  match v with
  | some v => { vid := id, row := v.row, scale := v.scale, norm := v.norm, lost := false }
  | none => { vid := id, row := [], scale := 0, norm := 0, lost := true }

/-- The bytes of an answer, in the model's own layout. -/
def refillBytes (f o stride : Nat) (rs : List RefillRow) : List Byte :=
  wordsBytes [BitVec.ofNat 64 f, BitVec.ofNat 64 o, BitVec.ofNat 64 rs.length, 1, 0, 0, 0, 0] ++
    rs.flatMap fun r => wordsBytes [r.vid, word [(32, 32, r.scale.toNat), (0, 32, r.norm.toNat)], BitVec.ofNat 64 (flag r.lost)] ++
      bytesAt r.row 0 stride

/-- FLASH_READ_SERVICE_REQUEST: the rows of the ids go back to the partner on TC1. -/
def execFlashReadServiceRequest (fn index : Nat) (ids : List Word64) (s : State) : Host.Outcome State Fault Refusal :=
  .next (match s.index fn index, s.partner with
    | some x, some p => s.sendPlan 1 p (refillBytes fn index (vecStride x) (ids.map (s.serviceRow x)))
    | _, _ => s)

/-- A returned row: it is checked against the BLOCK_CRC recorded for the lost codeword, logged and recorded, or the vector
stays lost. -/
def State.refillRow (s : State) (x : Index) (r : RefillRow) : State :=
  match s.lostOf x.fn x.obj r.vid with
  | none => s
  | some w =>
    let put (s : State) (st : RefillState) : State :=
      { s with flash := { s.flash with lost := s.flash.lost.map fun y => if y == w then { y with refill := st } else y } }
    match w.refill with
    | .asked _ =>
      let n := rowBytes x.vfmt x.dims
      if !r.lost && crc32c (bytesAt (r.row.take n) 0 (vecStride x)) = w.crc.toNat then
        let u : UpItem :=
          { origin := s.replica, fn := x.fn, ring := 0, seq := 0, item := 0, op := 0x21, obj := x.obj, cls := 0
            target := BitVec.ofNat 64 (field r.vid.toNat 32 22), pass := 0, scale := r.scale, attr := r.vid
            payload := bytesAt r.row 0 n, dfmt := 0, tick := s.tick.count, held := false }
        let (s1, lsn) := s.logRecord false x.fn x.obj (recBytes u) none
        (put ((s1.jot 9 [r.vid.toNat, logLocator lsn]).bumpFlash 4 1) (.refilled lsn (s.tick.count + 2)))
      else put (s.bumpFlash 5 1) .gaveUp
    | _ => s

/-- REFILL_RESPONSE. -/
def execRefillResponse (fn index : Nat) (rows : List RefillRow) (s : State) : Host.Outcome State Fault Refusal :=
  .next (match s.index fn index with
    | some x => rows.foldl (fun s r => s.refillRow x r) s
    | none => s)

/-! ### FORMAT (R266, R379, Table HI-14) -/

/-- The die-set mask of a FORMAT, without die sets that have an ABSENT die (R249). -/
def State.formatMask (s : State) (d : Desc) : Nat :=
  let m := field (d.w 3) 0 32
  ((List.range 32).filter fun k => m.testBit k && (setDies k).all fun i => (s.die i).state != .absent).foldl
    (fun a k => a + 2 ^ k) 0

/-- Form, then WEAR, then data on the die sets. -/
def formatCheck (s : State) (d : Desc) : Option Nat :=
  let wear := field (d.w 1) 30 2
  let m := field (d.w 3) 0 32
  let used := (s.flash.segs.any fun g => (s.segPlaces g).any fun p => m.testBit p.set) ||
    s.flash.log.any fun e => m.testBit e.set
  if !zeros d [(1, 32, 16), (1, 0, 30), (2, 0, 64), (3, 32, 32), (4, 0, 64), (5, 0, 64), (6, 0, 64), (7, 0, 64)] ||
      wear = 0 || wear = 3 then some stBad
  else if s.isFallow || wear ≠ 1 || used then some stNotPermitted
  else none

/-- FORMAT begins: data on the die sets is discarded, and every superblock that has been used is erased. -/
def formatBody (s : State) (d : Desc) : State :=
  let m := s.formatMask d
  let words := s.flash.words.filter fun w => !m.testBit w.set
  let mine := s.flash.sbs.filter fun x => m.testBit x.set
  let s1 := { s with flash := { s.flash with words := words } }
  let s2 := mine.foldl (fun s x => (s.setSb { x with state := .erasing }).jot 1 [x.set, x.plane, x.block]) s1
  let j : FormatJob := { fn := d.fn, ring := d.ring, seq := d.seq, mask := m }
  { s2 with flash := { s2.flash with formats := s2.flash.formats ++ [j] } }.formatEnds

/-- FORMAT. -/
def execFormat (d : Desc) (s : State) : Host.Outcome State Fault Refusal :=
  .next (s.runDesc d 0x06 formatCheck oneSlot formatBody)

end Sys2Proof.Machine
end

