-- ==== Sys2Proof/Machine/Shard.lean ====
section
/-! DEFINITION. Shard queries at a shard node: the phase split, the scan, the merge, re-rank and the shard result
(01 R19, R25, 02 R59, 05 R138, 07 R189–R199, R206, 10 R259–R261). -/

namespace Sys2Proof.Machine

/-! ### Shard queries held here -/

/-- A shard query by its number. -/
def State.job (s : State) (id : Nat) : Option ShardJob := s.search.shard.find? fun j => j.id == id

/-- Put a shard query back. -/
def State.setJob (s : State) (j : ShardJob) : State :=
  { s with search := { s.search with shard := s.search.shard.map fun k => if k.id == j.id then j else k } }

/-- A shard query leaves, with the reads planned for it. -/
def State.dropJob (s : State) (id : Nat) : State :=
  { s with
    search := { s.search with
      shard := s.search.shard.filter fun j => j.id != id, redirected := s.search.redirected.filter fun r => r.1 != id }
    flash := { s.flash with reads := s.flash.reads.filter fun r => r.job != id } }

/-- A shard query joins those that wait for the end of ingest. -/
def State.addJob (s : State) (a : Ask) (own : Bool) (ring : Nat) : State :=
  let j : ShardJob :=
    { id := s.search.nextJob, ask := a, own := own, ring := ring, snap := none, scanned := false, overCap := [], rescan := false
      merged := [], scannedCount := 0, passedCount := 0, waits := [], reranked := 0, gleaned := 0, lost := 0, flags := 0
      run := 1, carried := false, late := false }
  { s with search := { s.search with shard := s.search.shard ++ [j], nextJob := s.search.nextJob + 1 } }

/-- Whether a query is EXHAUSTIVE. -/
def ShardJob.ex (j : ShardJob) : Bool := j.ask.cls == 0x1F

end Sys2Proof.Machine

namespace Sys2Proof

/-- Whether a query is EXHAUSTIVE, its depth D, and its CAP (R132, R206). -/
def Machine.Ask.ex (a : Machine.Ask) : Bool := a.cls == 0x1F
def Machine.Ask.depth (a : Machine.Ask) : Nat := if a.exDepth = 0 then 1024 else a.exDepth
def Machine.Ask.cap (a : Machine.Ask) : Nat := if a.ex then 64 else min a.k 64
/-- k′ of R197, and entries re-ranked. -/
def Machine.Ask.keep (a : Machine.Ask) : Nat := if a.ex then a.depth else max a.k a.rerank
def Machine.Ask.reranks (a : Machine.Ask) : Nat := if a.ex then a.depth else a.rerank

end Sys2Proof

namespace Sys2Proof.Machine

/-- The shard result of a query that is not scanned here: its status, and no entries (R203). -/
def emptyRes (shard status : Nat) (tick : Word64) : ShardRes :=
  { shard := shard, status := status, flags := 0, snap := tick, snapHi := tick, scanned := 0, passed := 0, reranked := 0
    gleaned := 0, lost := 0, entries := [] }

/-- A shard result is ready to leave. -/
def State.giveResult (s : State) (a : Ask) (own : Option Nat) (r : ShardRes) : State :=
  { s with search := { s.search with outResults := s.search.outResults ++ [(a, own, r)] } }

/-- The span E of an EXHAUSTIVE query on this node's plan (Table VS-4). -/
def State.span (s : State) (a : Ask) : Nat := max 1 (splitOf s.plan0 a.fn a.cls a.index).t

/-- SHARD_QUERY (R203): a query of an index that is not held, or differs, is answered at once; any other waits for the end
of ingest. -/
def execShardQuery (payload : List Byte) (s : State) : Host.Outcome State Fault Refusal :=
  let head := askOf 0 payload
  .next (match s.index head.fn head.index with
    | some x =>
      let a := askOf x.dims payload
      if x.digest = some a.digest then s.addJob a false 0
      else s.giveResult a none (emptyRes x.shard 0x20 s.tick.count)
    | none =>
      let shard := match s.ownDomain with | some d => d.shard | none => 0
      s.giveResult head none (emptyRes shard 0x20 s.tick.count))

/-! ### Which queries run in a tick (R59, R203) -/

/-- Whether a query goes ahead of new ones: carried, or within an EXHAUSTIVE span (R59, R207). -/
def ShardJob.begun (j : ShardJob) : Bool := j.carried || (j.ex && decide (j.run > 1))

/-- Numbers of the queries of a function and class that this tick's swath takes: begun ones, oldest first, in carry slots
and then admission slots; new ones in the admission slots that are left. -/
def State.takenOf (s : State) (f c : Nat) : List Nat :=
  let mine := s.search.shard.filter fun j => j.ask.fn == f && j.ask.cls == c
  let old := mine.filter ShardJob.begun
  let new := mine.filter fun j => !j.begun
  let carry := (slotRecOf s.plan0 f c).carry
  let slots := s.slotsOf f c
  ((old.take (carry + slots)) ++ new.take (slots - (old.length - carry))).map (·.id)

/-- Numbers of the queries that this tick takes; none while the node is lagging (R239). -/
def State.taken (s : State) : List Nat :=
  if s.tables.lagging then []
  else ((s.search.shard.map fun j => (j.ask.fn, j.ask.cls)).dedup).flatMap fun k => s.takenOf k.1 k.2

/-- A query is carried (R57): its class counts it. -/
def State.carryJob (s : State) (id : Nat) : State :=
  match s.job id with
  | none => s
  | some j => ((s.setJob { j with carried := true, late := true }).total 17 1).classBump j.ask.fn j.ask.cls 10 1

/-! ### Lists of a query in a tick (R195, R206, R397) -/

/-- Whether a redirect of a logical channel holds. -/
def State.redirectOn (s : State) (ch : Nat) : Bool :=
  s.faults.redirects.any fun r => r.chan == ch && seqLe r.start s.tick.count

/-- The lists of run e of a span of n: each channel's lists are divided into n runs by list id. -/
def runLists (x : Index) (e n : Nat) : List Nat :=
  (List.range 256).flatMap fun ch =>
    let ls := (List.range (listCount x)).filter fun l => listChan x l == ch
    (ls.drop (ls.length * (e - 1) / n)).take (ls.length * e / n - ls.length * (e - 1) / n)

/-- The lists that a query scans in this tick: its probe list, its run, or the pairs that R196 scans again. -/
def State.listsNow (s : State) (x : Index) (j : ShardJob) : List Nat :=
  if j.rescan then j.overCap
  else if j.scanned then []
  else if j.ex then runLists x j.run (s.span j.ask)
  else j.ask.lists.filter fun l => decide (l < listCount x)

/-- Those that lie in channels served here. -/
def State.listsHere (s : State) (x : Index) (j : ShardJob) : List Nat :=
  (s.listsNow x j).filter fun l => !s.redirectOn (listChan x l)

/-! ### The phase split (R19, R138, R190, R196) -/

/-- Tile sheaf slots of a function, class and index: the first slot's number, the lists bound, and the slots left. -/
structure TileShare where
  fn : Nat
  cls : Nat
  obj : Nat
  first : Nat
  lists : List Nat
  left : Nat
  deriving DecidableEq, Repr

/-- First tile sheaf slot of a split record: the slots of the records before it come first. -/
def splitFirst (img : List Byte) (f c ix : Nat) : Nat :=
  (((splitRecs img).takeWhile fun r => !(r.fn == f && r.cls == c && r.index == ix)).map (·.slots)).sum

/-- A list takes a tile sheaf slot, if it has none and one is left; whether it then has one. -/
def TileShare.take (t : TileShare) (l : Nat) : TileShare × Bool :=
  if t.lists.contains l then (t, true)
  else if t.left = 0 then (t, false)
  else ({ t with lists := t.lists ++ [l], left := t.left - 1 }, true)

/-- Every list of a query takes a slot; whether each found one. -/
def TileShare.takeAll (t : TileShare) (ls : List Nat) : TileShare × Bool :=
  ls.foldl (fun (r : TileShare × Bool) l => let q := r.1.take l; (q.1, r.2 && q.2)) (t, true)

/-- Probed lists with the number of this tick's queries that probe each, most first, ties to the lower list id. -/
def probeCounts (ls : List Nat) : List (Nat × Nat) :=
  (ls.dedup.map fun l => (l, ls.count l)).mergeSort fun a b =>
    decide (b.2 < a.2) || (a.2 == b.2 && decide (a.1 ≤ b.1))

/-- Lists that the split sends to tiles: all of them when forced, those that at least T queries probe when automatic. -/
def denseLists (sp : SplitRec) (ls : List Nat) : List Nat :=
  ((probeCounts ls).filter fun e => sp.mode == 1 || (sp.mode == 0 && decide (sp.t ≤ e.2))).map (·.1)

/-- What the end of ingest has decided: the state, the tile shares, the queries to carry. -/
structure Split where
  s : State
  shares : List TileShare
  carry : List Nat

/-- The tile share of a query's function, class and index. -/
def Split.share (d : Split) (j : ShardJob) : TileShare :=
  (d.shares.find? fun t => t.fn == j.ask.fn && t.cls == j.ask.cls && t.obj == j.ask.index).getD
    { fn := j.ask.fn, cls := j.ask.cls, obj := j.ask.index, first := 0, lists := [], left := 0 }

/-- Put a share back. -/
def Split.setShare (d : Split) (t : TileShare) : Split :=
  { d with shares := d.shares.map fun u => if u.fn == t.fn && u.cls == t.cls && u.obj == t.obj then t else u }

/-- The split of one function, class and index: rescans first, in the order of their queries, then the dense lists. -/
def splitGroup (s : State) (x : Index) (c : Nat) (js : List ShardJob) : TileShare × List Nat :=
  let sp := splitOf s.plan0 x.fn c x.obj
  let t0 : TileShare :=
    { fn := x.fn, cls := c, obj := x.obj, first := splitFirst s.plan0 x.fn c x.obj, lists := [], left := sp.slots }
  let (t1, out) := (js.filter fun j => j.rescan).foldl
    (fun (r : TileShare × List Nat) j =>
      let q := r.1.takeAll (s.listsNow x j)
      if q.2 then (q.1, r.2) else (r.1, r.2 ++ [j.id])) (t0, [])
  let probed := (js.filter fun j => !j.rescan).flatMap fun j => s.listsHere x j
  ((denseLists sp probed).foldl (fun t l => (t.take l).1) t1, out)

/-- Items of one channel's thin pairs: one for each query that has some, numbered by its place in the tick. -/
def Split.scanItems (d : Split) (js : List ShardJob) (ch : Nat) : List BurrowItem :=
  js.zipIdx.filterMap fun (j, i) =>
    match d.s.index j.ask.fn j.ask.index with
    | none => none
    | some x =>
      if j.rescan || d.carry.contains j.id then none
      else
        let thin := (d.s.listsHere x j).filter fun l => !(d.share j).lists.contains l && listChan x l == ch
        if thin.isEmpty then none
        else some (scanItem x j.ask.fn j.ask.cls i ch j.ask.cap (j.snap.getD d.s.tick.count) thin)

/-- A spilled scan item's pairs take tile sheaf slots that are left, or its query is carried (R138). -/
def Split.spill (js : List ShardJob) (d : Split) (it : Nat × BurrowItem) : Split :=
  match js[it.2.slot]? with
  | none => d
  | some j =>
    let lists := it.2.entries.map fun e => (d.s.hdrAt (chanAddr it.1 (entOffset e.toNat))).list
    let q := (d.share j).takeAll lists
    let d1 := { d with s := d.s.total 15 it.2.entries.length }
    if q.2 then d1.setShare q.1 else { d1 with carry := d1.carry ++ [j.id] }

/-- One channel's items are bound; scan items that are left join those of the other channels. -/
def Split.bindChannel (js : List ShardJob) (d : Split × List (Nat × BurrowItem)) (ch : Nat) :
    Split × List (Nat × BurrowItem) :=
  let items := d.1.scanItems js ch ++ d.1.s.rowItems ch
  let r := d.1.s.bindBurrow ch items
  ({ d.1 with s := r.1 }, d.2 ++ r.2.map fun it => (ch, it))

/-- Bindings of tile sheaf slots of a share. -/
def TileShare.bindings (t : TileShare) : List (Nat × Nat × Nat × Nat) :=
  t.lists.zipIdx.map fun (l, i) => (t.first + i, t.fn, t.obj, l)

/-- The split and the binding of the tick: which queries are carried, and the slots bound. -/
def State.splitAndBind (s : State) (js : List ShardJob) : State × List Nat :=
  let keys := (js.map fun j => (j.ask.fn, j.ask.cls, j.ask.index)).dedup
  let start (d : Split) (k : Nat × Nat × Nat) : Split :=
    match d.s.index k.1 k.2.2 with
    | none => d
    | some x =>
      let r := splitGroup d.s x k.2.1
        (js.filter fun j => j.ask.fn == k.1 && j.ask.cls == k.2.1 && j.ask.index == k.2.2)
      { d with shares := d.shares ++ [r.1], carry := d.carry ++ r.2 }
  let d0 := keys.foldl start { s := s, shares := [], carry := [] }
  let (d1, left) := (List.range 256).foldl (Split.bindChannel js) (d0, [])
  let scans := (left.filter fun e => e.2.kind == 1).mergeSort fun a b =>
    decide ([a.2.lutReady, a.2.slot, a.1] ≤ [b.2.lutReady, b.2.slot, b.1])
  let d2 := scans.foldl (Split.spill js) d1
  let s3 := d2.s.spillRows (left.map (·.2))
  ({ s3 with tiers := { s3.tiers with bindings := d2.shares.flatMap TileShare.bindings } }, d2.carry)

/-! ### The scan and the merge (R189, R195–R197) -/

/-- The LUT of a quantised query (R112, R189): entries in FP16, and the saturations of building it. -/
def queryLut (x : Index) (q : List Word32) : List Nat × Nat :=
  let d := bookDims x
  let es := (List.range x.code).flatMap fun j => (List.range 256).map fun c =>
    let r := bookRow x j c
    let k := exactKey (x.metric == 2) ((q.drop (j * d)).take d) (r.elems x.cfmt d) (r.scaleOf x.cfmt)
    let h := convertTo 6 (f32Val k.v)
    (h.code, k.sat + flag h.sat)
  (es.map (·.1), (es.map (·.2)).sum)

/-- A list's base term (R189) and the saturations of its key. -/
def baseTerm (x : Index) (q : List Word32) (l : Nat) : Word32 × Nat :=
  let k := centKey x q (x.cells1 + l)
  (if x.metric = 2 then 0 else unsortable (sortable k.v), k.sat)

/-- The scan of one pair: the best `cap` candidates, candidates scanned and passed, counts. -/
structure PairOut where
  list : Nat
  best : List KeyEntry
  scanned : Nat
  passed : Nat
  counts : Counts
  deriving DecidableEq, Repr

/-- One pair of a query and a probed list under a snapshot (R195). -/
def State.scanPair (s : State) (x : Index) (q : List Word32) (lut : List Nat) (prog : List Byte) (cap snap l : Nat) :
    PairOut :=
  let n := s.lenAt x l snap
  let (base, sat) := baseTerm x q l
  let (es, c) := s.scanList x (s.listHdr x l) snap n base 0 lut prog
  { list := l, best := topEntries cap es, scanned := n, passed := es.length, counts := { c with sat := c.sat + sat } }

/-- The order of R197: key, list id, position. -/
def candBefore (a b : Cand) : Bool := decide ([a.key, a.list, a.pos] ≤ [b.key, b.list, b.pos])

/-- The first n candidates in that order. -/
def topCands (n : Nat) (cs : List Cand) : List Cand := (cs.mergeSort candBefore).take n

/-- The candidates of a pair. -/
def PairOut.cands (p : PairOut) : List Cand := p.best.map fun e => { key := e.1, list := p.list, pos := e.2, eflags := 0 }

/-- A LUT as the tensor of Table OB-9. -/
def lutTensor (x : Index) (lut : List Nat) : Tensor :=
  { rows := (chunksOf 256 x.code lut).map fun r => r.flatMap (leBytes 2), scales := [], vals := lut.map (elemF32 6), fmt := 6
    rowLen := 256, smode := 0, obj := x.obj, first := 0 }

/-- A query's pairs are scanned and merged into what it keeps. -/
def State.scanJob (s : State) (id : Nat) : State :=
  match s.job id with
  | none => s
  | some j =>
    match s.index j.ask.fn j.ask.index with
    | none => s
    | some x =>
      let (v, s1) := queryFp x j.ask.qfmt j.ask.query
      let (q, s2) := coarseVec x v
      let (lut, s3) := queryLut x q
      let cap := if j.rescan then j.ask.k else j.ask.cap
      let snap := (j.snap.getD s.tick.count).toNat
      let outs := (s.listsHere x j).map (s.scanPair x q lut j.ask.filter cap snap)
      let kept := if j.rescan then j.merged.filter fun c => !j.overCap.contains c.list else j.merged
      let sats := s1 + s2 + s3 + (outs.map fun o => o.counts.sat).sum
      let nans := (outs.map fun o => o.counts.nan).sum
      let run := if j.ex && !j.rescan then j.run + 1 else j.run
      let owed := if j.rescan then []
        else (((s.listsNow x j).map (listChan x)).filter s.redirectOn).dedup.map fun ch => (id, ch)
      let j2 := { j with
        merged := topCands j.ask.keep (kept ++ outs.flatMap PairOut.cands)
        scannedCount := j.scannedCount + (if j.rescan then 0 else (outs.map (·.scanned)).sum)
        passedCount := j.passedCount + (if j.rescan then 0 else (outs.map (·.passed)).sum)
        overCap := if j.rescan then [] else j.overCap ++ (outs.filter fun o => decide (cap < o.passed)).map (·.list)
        flags := j.flags ||| (if nans > 0 then fNanSeen else 0) ||| (if sats > 0 then fSaturated else 0)
        rescan := false, run := run, scanned := !j.ex || decide (s.span j.ask < run) }
      let t := s.setJob j2
      let t1 := { t with search := { t.search with redirected := t.search.redirected ++ owed } }
      if j.own && j.ask.local_ then t1.fireStep j.ask.fn j.ring j.ask.seq 3 (lutTensor x lut) else t1

/-! ### Re-rank (R198, R199, 10 R259–R261) -/

/-- Change a candidate of a query. -/
def ShardJob.cand (j : ShardJob) (i : Nat) (f : Cand → Cand) : ShardJob := { j with merged := j.merged.modify i f }

/-- A candidate keeps its code score because its vector is lost (R198). -/
def State.candLost (s : State) (id i : Nat) : State :=
  match s.job id with
  | none => s
  | some j => s.setJob { j.cand i fun c => { c with eflags := c.eflags ||| 4 } with
      lost := j.lost + 1, flags := j.flags ||| fMediaLost }

/-- The reads of a candidate, one for each piece, join those that wait for issue. -/
def State.planReads (s : State) (j : ShardJob) (i : Nat) (vid : Word64) (ps : List FlashPlace) : State :=
  let n := s.flash.nextRead
  let reads := ps.zipIdx.map fun (p, k) =>
    ({ id := n + k, fn := j.ask.fn, cls := j.ask.cls, job := j.id, cand := i, vid := vid, piece := k, set := p.set
       plane := p.plane, block := p.block, page := p.page, off := p.off, issued := false, returned := false, retries := 0 } : FlashRead)
  let w : RerankWait :=
    { cand := i, readIds := reads.map (·.id), got := [], scale := 0, norm := 0, crc := 0, failed := false }
  let s1 := s.setJob { j with waits := j.waits ++ [w] }
  { s1 with flash := { s1.flash with reads := s1.flash.reads ++ reads, nextRead := n + ps.length } }

/-- A candidate's re-rank is planned, or it is lost (R198). -/
def State.planCand (s : State) (x : Index) (id i : Nat) : State :=
  match s.job id with
  | none => s
  | some j =>
    match j.merged[i]? with
    | none => s
    | some c =>
      let vid := vecId x c.list c.pos
      match s.vecHome x c.list c.pos with
      | .segment ps _ => s.planReads j i vid ps
      | .log e => s.planReads j i vid (logPlaces e)
      | .lost => s.candLost id i
      | .nowhere => (s.candLost id i).raiseNamed .mediaLost [vid.toNat]

/-- The value of RUN once the merge is complete and re-rank has begun. -/
def State.lastRun (s : State) (j : ShardJob) : Nat := if j.ex then s.span j.ask + 2 else 2

/-- The planned merge of a query whose scans are complete: pairs over their cap are scanned again where fewer than k
entries were found (R196); else re-rank begins. Partial lists that a partner owes are waited for. -/
def State.mergeDone (s : State) (id : Nat) : State :=
  match s.job id with
  | none => s
  | some j =>
    match s.index j.ask.fn j.ask.index with
    | none => s
    | some x =>
      if !j.scanned || s.search.redirected.any fun r => r.1 == id then s
      else if j.merged.length < j.ask.k && !j.overCap.isEmpty then s.setJob { j with rescan := true }
      else
        let s1 := s.setJob { j with run := s.lastRun j }
        (List.range (min j.ask.reranks j.merged.length)).foldl (fun s i => s.planCand x id i) s1

/-- The reads that a carried query still waits for are planned again (R55, R56). -/
def State.replan (s : State) (id : Nat) : State :=
  match s.job id with
  | none => s
  | some j =>
    match s.index j.ask.fn j.ask.index with
    | none => s
    | some x =>
      let s1 := s.setJob { j with waits := [] }
      let s2 := { s1 with flash := { s1.flash with reads := s1.flash.reads.filter fun r => r.job != id } }
      j.waits.foldl (fun s w => s.planCand x id w.cand) s2

/-- What a query that this tick takes does at the end of ingest. It waits for partial lists that a partner owes, and with a
second scan for the end of the redirect of its channels (R397). -/
def State.ingestJob (s : State) (id : Nat) : State :=
  match s.job id with
  | none => s
  | some j =>
    let owed := s.search.redirected.any fun r => r.1 == id
    let away := match s.index j.ask.fn j.ask.index with
      | some x => j.rescan && j.overCap.any fun l => s.redirectOn (listChan x l)
      | none => false
    if owed || away then s
    else if j.rescan || !j.scanned then
      let s1 := s.scanJob id
      if j.ex && !j.rescan then s1 else s1.mergeDone id
    else if j.run = s.lastRun j then s.replan id
    else s.mergeDone id

/-- The end of ingest for shard queries and row items: snapshots, split, binding, scans (R19, R136–R138, R195). -/
def State.ingestShard (s : State) : State :=
  let now := s.tick.count
  let snap := s.search.shard.map fun j => if s.tables.lagging then j else { j with snap := some (j.snap.getD now) }
  let s1 := { s with search := { s.search with shard := snap } }
  let ids := s1.taken
  let js := (ids.filterMap s1.job).filter fun j => j.rescan || !j.scanned
  let (s2, out) := s1.splitAndBind js
  (ids.filter fun i => !out.contains i).foldl State.ingestJob s2

/-- A planned read whose block cannot be had in time (R55, R56): BOUNDED gleans, STRICT is carried. -/
def State.readMissed (s : State) (r : FlashRead) : State :=
  match s.job r.job with
  | none => { s with flash := { s.flash with reads := s.flash.reads.filter fun q => q.id != r.id } }
  | some j =>
    if s.strict r.fn r.cls then
      let waits := j.waits.map fun w => if w.cand == r.cand then { w with failed := true } else w
      let s1 := s.setJob { j with waits := waits }
      { s1 with flash := { s1.flash with reads := s1.flash.reads.filter fun q => q.id != r.id } }
    else
      let j1 := { j.cand r.cand fun c => { c with eflags := c.eflags ||| 2 } with
        waits := j.waits.filter fun w => w.cand != r.cand, gleaned := j.gleaned + 1, flags := j.flags ||| fGlean }
      let s1 := s.setJob j1
      { s1 with flash := { s1.flash with reads := s1.flash.reads.filter fun q => !(q.job == r.job && q.cand == r.cand) } }

/-- A planned read by its number. -/
def State.readAt (s : State) (id : Nat) : Option FlashRead := s.flash.reads.find? fun r => r.id == id

/-- Where a read reads. -/
def FlashRead.at_ (r : FlashRead) : FlashPlace :=
  { set := r.set, plane := r.plane, block := r.block, page := r.page, off := r.off }

/-- Put a read back. -/
def State.setRead (s : State) (r : FlashRead) : State :=
  { s with flash := { s.flash with reads := s.flash.reads.map fun q => if q.id == r.id then r else q } }

/-- The die that a read is for. -/
def FlashRead.die (r : FlashRead) : Nat := pageDie r.set r.block r.page

/-- The re-rank window of a function and class. -/
def State.rerankWin (s : State) (f c : Nat) : Option WinRec :=
  (winRecs s.plan0).find? fun w => w.kind == 1 && w.fn == f && w.cls == c

/-- Reads of a function and class issued in this tick. -/
def State.issuedOf (s : State) (f c : Nat) : Nat :=
  match s.flash.issued.find? fun e => e.1 == f && e.2.1 == c with | some e => e.2.2 | none => 0

/-- Whether a read has a free place in its record (R260, R261). -/
def State.mayIssue (s : State) (r : FlashRead) : Bool :=
  match s.rerankWin r.fn r.cls with
  | none => false
  | some w =>
    let out := s.flash.reads.filter fun q => q.issued && !q.returned && q.fn == r.fn && q.cls == r.cls
    decide (s.issuedOf r.fn r.cls < w.maxReads) &&
      decide ((out.filter fun q => q.die == r.die && q.plane == r.plane).length < w.maxPlane) &&
      decide ((out.filter fun q => q.die / 16 == r.die / 16).length < w.maxChannel)

/-- Erases on the die set of a read are suspended, or go on. -/
def State.suspendErases (s : State) (set : Nat) (on : Bool) : State :=
  { s with flash := { s.flash with sbs := s.flash.sbs.map fun x =>
      if x.set == set && (x.state == .erasing || x.state == .unknown) then { x with suspended := on } else x } }

/-- FLASH_READ_ISSUE (R261): the read is issued where its record has a free place, and an erase on its die is suspended. -/
def execFlashReadIssue (id : Nat) (s : State) : Host.Outcome State Fault Refusal :=
  .next (match s.readAt id with
    | none => s
    | some r =>
      if r.issued || !s.mayIssue r then s
      else
        let s1 := ((s.setRead { r with issued := true }).bumpFlash 11 1).suspendErases r.set true
        let n := s.issuedOf r.fn r.cls
        { s1 with flash := { s1.flash with
            issued := (r.fn, r.cls, n + 1) :: s1.flash.issued.filter fun e => !(e.1 == r.fn && e.2.1 == r.cls) } })

/-- FLASH_READ_NOT_ISSUED (R261). -/
def execFlashReadNotIssued (id : Nat) (s : State) : Host.Outcome State Fault Refusal :=
  .next (match s.readAt id with
    | none => s
    | some r => if r.issued then s else (s.bumpFlash 7 1).readMissed r)

/-- FLASH_READ_DEADLINE (R55, R56). -/
def execFlashReadDeadline (id : Nat) (s : State) : Host.Outcome State Fault Refusal :=
  .next (match s.readAt id with
    | none => s
    | some r => if r.issued && !r.returned then (s.bumpFlash 6 1).readMissed r else s)

/-- A codeword is to be reconstructed from its stripe (R253). -/
def State.askRecon (s : State) (p : FlashPlace) : State :=
  let k := (p.set, p.plane, p.block, p.page, p.off)
  if s.flash.recon.contains k then s else { s with flash := { s.flash with recon := s.flash.recon ++ [k] } }

/-- A codeword that could not be read: it counts against its die and block where that die answers, and is reconstructed
(R251, R255). -/
def State.readBad (s : State) (p : FlashPlace) : State :=
  (if s.placeReads p then s.uncorrectable p else s).askRecon p

/-- The log record that holds a place, if the place is in the log. -/
def State.logAt (s : State) (p : FlashPlace) : Option LogEntry := s.flash.log.find? fun e => (logPlaces e).contains p

/-- The TAG that a read's codeword must carry. -/
def State.readTag (s : State) (r : FlashRead) : Word32 :=
  match s.logAt r.at_ with | some e => locTag (logLocator e.lsn) | none => vecTag r.vid r.piece

/-- The exact key of a candidate (R84, R198): it replaces the code score. -/
def State.rescore (s : State) (x : Index) (j : ShardJob) (i : Nat) (v : FullVec) : State :=
  let q := (queryFp x j.ask.qfmt j.ask.query).1
  let k := exactKey (x.metric == 2) q (rowF32 x.vfmt x.dims v.row) (if scaledFmt x.vfmt then some v.scale else none)
  let e := sortable k.v
  let flags := (if e = 0xFFFFFFFF then fNanSeen else 0) ||| (if k.sat > 0 then fSaturated else 0)
  let j1 := { j.cand i fun c => { c with key := e, eflags := c.eflags ||| 1 } with
    waits := j.waits.filter fun w => w.cand != i, reranked := j.reranked + 1, flags := j.flags ||| flags }
  let s1 := s.setJob j1
  { s1 with flash := { s1.flash with reads := s1.flash.reads.filter fun r => !(r.job == j.id && r.cand == i) } }

/-- Every piece of a candidate's block has returned: it is joined, decoded and checked, and the vector is rescored (R259). -/
def State.blockHere (s : State) (r : FlashRead) (w : RerankWait) : State :=
  match s.job r.job with
  | none => s
  | some j =>
    match s.index j.ask.fn j.ask.index with
    | none => s
    | some x =>
      match s.logAt r.at_ with
      | some e => s.rescore x j r.cand (logVec x e)
      | none =>
        let st := (List.range w.got.length).flatMap fun k => ((w.got.find? fun g => g.1 == k).map (·.2)).getD []
        match decodeBlock (vecStride x) st with
        | some b =>
          if crc32c b = w.crc.toNat then
            s.rescore x j r.cand { row := b.take (rowBytes x.vfmt x.dims), scale := w.scale, norm := w.norm }
          else
            ((s.flash.reads.filter fun q => q.job == r.job && q.cand == r.cand).foldl (fun s q => s.readBad q.at_) s).readMissed r
        | none =>
          ((s.flash.reads.filter fun q => q.job == r.job && q.cand == r.cand).foldl (fun s q => s.readBad q.at_) s).readMissed r

/-- A piece of a block has been read and passed its checks. -/
def State.pieceHere (s : State) (r : FlashRead) (cw : Codeword) : State :=
  match s.job r.job with
  | none => s
  | some j =>
    match j.waits.find? fun w => w.cand == r.cand with
    | none => s
    | some w =>
      let w2 := { w with got := w.got ++ [(r.piece, cw.user)], scale := cw.scale, norm := cw.norm, crc := cw.crc }
      let s1 := s.setJob { j with waits := j.waits.map fun y => if y.cand == w.cand then w2 else y }
      if !w2.failed && w2.got.length = w2.readIds.length then s1.blockHere r w2 else s1

/-- A read on a die set is over: erases there go on when no other issued read waits. -/
def State.readOver (s : State) (set id : Nat) : State :=
  s.suspendErases set (s.flash.reads.any fun q => q.issued && !q.returned && q.set == set && q.id != id)

/-- FLASH_READ_RETURN (R251, R259): `errors` bit errors were found; up to 96 are always corrected, and `decoded` says whether
more were. A codeword that fails is reread up to three times, then reconstructed. -/
def execFlashReadReturn (id errors : Nat) (decoded : Bool) (s : State) : Host.Outcome State Fault Refusal :=
  .next (match s.readAt id with
    | none => s
    | some r =>
      if !r.issued || r.returned then s
      else
        let p := r.at_
        let again := s.flash.rebuilt.contains p
        let good := again || (s.placeReads p && (decide (errors ≤ 96) || decoded))
        let fail (s : State) : State := ((s.readBad p).readMissed r).readOver r.set id
        if !good then
          if s.placeReads p && r.retries < 3 then
            ((s.setRead { r with retries := r.retries + 1 }).bumpFlash 1 1).bumpFlash 11 1
          else fail s
        else
          match s.cwAt p with
          | none => fail s
          | some cw =>
            let s1 := if !again && decide (0 < errors) then s.bumpFlash 0 1 else s
            let inLog := (s.logAt p).isSome
            if cw.tag ≠ s.readTag r || (inLog && crc32c cw.user ≠ cw.crc.toNat) then fail s1
            else ((s1.setRead { r with returned := true }).pieceHere r cw).readOver r.set id)

/-! ### The shard result (R199, R204) -/

/-- The planned tick of a query's shard result. -/
def State.shardDue (s : State) (a : Ask) : Nat := a.tick.toNat + 1 + (if a.ex then s.span a else 0)

/-- Whether a query's re-rank is complete. -/
def State.jobOver (s : State) (j : ShardJob) : Bool := j.run == s.lastRun j && !j.rescan && j.waits.isEmpty

/-- A query ends here: its best k entries in final order. -/
def State.finishJob (s : State) (j : ShardJob) (x : Index) : State :=
  let best := (j.merged.mergeSort candBefore).take j.ask.k
  let nan (c : Cand) : Nat := if c.key = 0xFFFFFFFF then 8 else 0
  let r : ShardRes :=
    { shard := x.shard, status := stOk
      flags := j.flags ||| (if s.shardDue j.ask < s.tick.count.toNat then fLate else 0)
      snap := j.snap.getD s.tick.count, snapHi := j.snap.getD s.tick.count, scanned := j.scannedCount, passed := j.passedCount
      reranked := j.reranked, gleaned := j.gleaned, lost := j.lost
      entries := best.map fun c => (c.key, vecId x c.list c.pos, c.eflags ||| nan c) }
  (s.giveResult j.ask (if j.own then some j.ring else none) r).dropJob j.id

/-- A query at the start of the egress window: it ends, or, where this tick should have brought it further, is carried. -/
def State.jobEgress (s : State) (j0 : ShardJob) : State :=
  match s.job j0.id with
  | none => s
  | some j =>
    match s.index j.ask.fn j.ask.index with
    | none =>
      (s.giveResult j.ask (if j.own then some j.ring else none) (emptyRes 0 0x20 s.tick.count)).dropJob j.id
    | some x =>
      if s.jobOver j then s.finishJob j x
      else if j.snap.isNone then s
      else
        let want := if j.ex then min (s.tick.count.toNat - j.ask.tick.toNat + 1) (s.lastRun j) else s.lastRun j
        if j.run < want || j.run = s.lastRun j || j.rescan then s.carryJob j.id else s

/-- The shard queries at the start of the egress window. -/
def State.shardEgress (s : State) : State := s.search.shard.foldl State.jobEgress s

end Sys2Proof.Machine
end

