-- ==== Sys2Proof/Machine/Search.lean ====
section
/-! DEFINITION. A search at its front node: the descriptor, the coarse stage and the sending of shard queries, shard
results, re-issue, the final merge (07 R187–R208, 08 R218, 15 R401, 02 R62). -/

namespace Sys2Proof.Machine

/-! ### The descriptor (R194, R201, Table VS-8) -/

def seIndex (d : Desc) : Nat := field (d.w 1) 32 16
def seK (d : Desc) : Nat := field (d.w 1) 21 11 + 1
def seNprobe (d : Desc) : Nat := field (d.w 1) 13 8 + 1
def seCells (d : Desc) : Nat := field (d.w 1) 9 4 + 1
def seRerank (d : Desc) : Nat := field (d.w 1) 4 5
def seQfmt (d : Desc) : Nat := field (d.w 1) 0 4
def seDepth (d : Desc) : Nat := field (d.w 6) 0 16

/-- The checks that need no index. -/
def searchForm (d : Desc) : Bool :=
  let ex := d.cls == 0x1F
  decide (seK d ≤ 1024) && decide (seRerank d ≤ 16) && decide (3 ≤ seQfmt d) && decide (seQfmt d ≤ 7) &&
    decide (0x10 ≤ d.cls) && decide (d.cls ≤ 0x1F) && d.w 2 % 64 == 0 && d.w 4 % 64 == 0 &&
    zeros d [(5, 1, 31), (6, 16, 48), (7, 0, 64)] &&
    (if ex then zeros d [(1, 4, 17)] &&
        (seDepth d == 0 || (decide (256 ≤ seDepth d) && decide (seDepth d ≤ 4096) && decide (seK d ≤ seDepth d)))
     else seDepth d == 0)

/-- Whether a filter program may run on an index with these attribute descriptors (R194). -/
def filterOk (attr : Nat) (prog : List Byte) : Bool :=
  let terms := (List.range 8).map fun i => wordAt prog (8 * i)
  let live := terms.takeWhile fun t => field t 60 4 != 0
  let rest := terms.dropWhile fun t => field t 60 4 != 0
  live.all (fun t =>
    let op := field t 60 4
    decide (op ≤ 5) && (field attr (16 * field t 58 2) 16).testBit 15 && (op == 5 || !t.testBit 56) &&
      (op == 2 || field t 0 28 == 0)) && rest.all (· == 0)

/-- The checks of R201, in order. -/
def searchCheck (s : State) (d : Desc) : Option Nat :=
  if !searchForm d then some stBad
  else
    match s.liveIndex d.fn (seIndex d) with
    | none => some stNoIndex
    | some x =>
      if d.cls ≠ 0x1F && seNprobe d > seCells d * x.cells2 then some stBad
      else if d.w 3 ≠ 0 && !filterOk x.attr.toNat (memReadBytes s.hostMem (d.w 3) 128) then some stBad
      else if x.digest.isNone then some stNoIndex
      else if !s.hasSlots d.fn d.cls then some stNotPermitted
      else none

/-- A search begins at its front node; its coarse stage runs in this tick. -/
def searchBody (s : State) (d : Desc) : State :=
  match s.index d.fn (seIndex d) with
  | none => s.endWith d stNoIndex
  | some x =>
    let ex := d.cls == 0x1F
    let a : Ask :=
      { seq := d.seq, fn := d.fn, index := seIndex d, cls := d.cls, k := seK d, nprobe := if ex then 0 else seNprobe d
        rerank := seRerank d, exDepth := if ex then (if seDepth d = 0 then 1024 else seDepth d) else 0, qfmt := seQfmt d
        query := memReadBytes s.hostMem (d.w 2) (rowBytes (seQfmt d) x.dims)
        filter := if d.w 3 = 0 then [] else memReadBytes s.hostMem (d.w 3) 128, lists := [], digest := x.digest.getD 0
        local_ := (d.w 5).testBit 0, reissue := false, front := s.nodeId, tick := s.tick.count }
    let q : FrontQuery :=
      { ring := d.ring, ask := a, cells := seCells d, raddr := d.w 4, tag := BitVec.ofNat 32 (field (d.w 5) 32 32)
        shards := [], sent := false, flags := 0 }
    { s with search := { s.search with front := s.search.front ++ [q] } }

/-- SEARCH (R201). -/
def execSearch (d : Desc) (s : State) : Host.Outcome State Fault Refusal :=
  .next (s.runDesc d 0x20 searchCheck oneSlot searchBody)

/-! ### Routing and sending (R18, R62, R203, R205) -/

/-- Whether two front queries are one: function, ring, SEQ. -/
def FrontQuery.same (p q : FrontQuery) : Bool := p.ask.fn == q.ask.fn && p.ring == q.ring && p.ask.seq == q.ask.seq

/-- Put a front query back. -/
def State.setFront (s : State) (q : FrontQuery) : State :=
  { s with search := { s.search with front := s.search.front.map fun p => if p.same q then q else p } }

/-- A front query leaves. -/
def State.dropFront (s : State) (q : FrontQuery) : State :=
  { s with search := { s.search with front := s.search.front.filter fun p => !p.same q } }

/-- The replica that a query goes to under a domain's scaled weights (R62). -/
def queryReplica (node : Nat) (a : Ask) (d : Domain) : Nat :=
  let h := crc32c (leBytes 4 node ++ leBytes 2 a.fn ++ leBytes 8 a.seq.toNat) % 256
  if h < d.w0 then 0 else 1

/-- The node of a replica of a domain. -/
def Domain.node (d : Domain) (r : Nat) : Nat := if r = 0 then d.node0 else d.node1

/-- A shard query goes to a node: to this node's own queries, or as a message on TC5. -/
def State.sendAsk (s : State) (a : Ask) (ring node : Nat) : State :=
  if node = s.nodeId then s.addJob a true ring
  else if node = 0xFFFFFFFF then s
  else s.sendPlan 5 node (askBytes a)

/-- A query that this tick has admitted: its coarse stage, and its shard queries in the egress window. -/
def State.sendFront (s : State) (q : FrontQuery) : State :=
  if q.sent then s
  else
    match s.index q.ask.fn q.ask.index with
    | none => (s.dropFront q).finish q.ask.fn q.ring q.ask.seq (compOf stNoIndex) []
    | some x =>
      let (lists, sats, nan) := if q.ask.ex then ([], 0, false)
        else coarseStage x q.ask.qfmt q.cells q.ask.nprobe q.ask.query
      let a := { q.ask with lists := lists }
      let s1 := if q.ask.ex then s
        else
          let probe : Tensor :=
            { rows := lists.map (leBytes 4), scales := [], vals := lists.map fun (l : Nat) => (flOfInt (l : Int)).v, fmt := 8, rowLen := 4
              smode := 0, obj := x.obj, first := 0 }
          (s.fireStep a.fn q.ring a.seq 1 (queryTensor x.cfmt x.obj [(queryFp x a.qfmt a.query).1])).fireStep a.fn q.ring
            a.seq 2 probe
      let doms := s.faults.domains.mergeSort fun a b => decide (a.shard ≤ b.shard)
      let shards := if a.local_ then [(x.shard, s.replica, s.tick.count, none)]
        else doms.map fun d => (d.shard, queryReplica s.nodeId a d, s.tick.count, none)
      let q2 := { q with
        ask := a, shards := shards, sent := true
        flags := (if sats > 0 then fSaturated else 0) ||| (if nan then fNanSeen else 0) }
      let s2 := s1.setFront q2
      if a.local_ then s2.addJob a true q.ring
      else doms.foldl (fun s d => s.sendAsk a q.ring (d.node (queryReplica s.nodeId a d))) s2

/-- The queries admitted in this tick are sent. -/
def State.sendSearches (s : State) : State := s.search.front.foldl State.sendFront s

/-! ### Shard results (R200, R218) -/

/-- A shard's result joins its front query; the first that comes is kept. -/
def State.takeResult (s : State) (f : Nat) (q : Word64) (ring : Option Nat) (r : ShardRes) : State :=
  let wants (p : FrontQuery) : Bool := p.ask.fn == f && p.ask.seq == q && p.sent &&
    (match ring with | some k => p.ring == k | none => true) &&
    p.shards.any fun e => e.1 == r.shard && e.2.2.2.isNone
  match s.search.front.find? wants with
  | none => s
  | some p => s.setFront { p with
      shards := p.shards.map fun e => if e.1 == r.shard && e.2.2.2.isNone then (e.1, e.2.1, e.2.2.1, some r) else e }

/-- SHARD_RESULT (R200, R204). -/
def execShardResult (payload : List Byte) (s : State) : Host.Outcome State Fault Refusal :=
  let (q, f, r) := shardResOf payload
  .next (s.takeResult f q none r)

/-- The shard results of the tick leave: to this node's own front part, or on TC4. -/
def State.sendResults (s : State) : State :=
  let outs := s.search.outResults
  let s1 := { s with search := { s.search with outResults := [] } }
  outs.foldl (fun s o =>
    match o.2.1 with
    | some ring => s.takeResult o.1.fn o.1.seq (some ring) o.2.2
    | none => s.sendPlan 4 o.1.front (shardBytes o.1 o.2.2)) s1

/-- The planned tick of a query's completion (R18, R206). -/
def State.frontDue (s : State) (a : Ask) : Nat := a.tick.toNat + 2 + (if a.ex then s.span a else 0)

/-- A sum that a 16-bit field of a result header takes; the spec gives no value for one that does not fit, and a free
value stands there (assumption 8). -/
def State.sum16 (s : State) (i n : Nat) : Nat := if n < 65536 then n else (s.freshAt i).toNat % 65536

/-- Entries of the shards in ascending shard number, merged by key, shard and place (R200, R218). -/
def mergeShards (k : Nat) (rs : List ShardRes) : List (Nat × Word64 × Nat) :=
  let all := rs.zipIdx.flatMap fun (r, i) => r.entries.zipIdx.map fun (e, p) => (e, i, p)
  ((all.mergeSort fun a b => decide ([a.1.1, a.2.1, a.2.2] ≤ [b.1.1, b.2.1, b.2.2])).take k).map (·.1)

/-- A search ends with the shard results that have come. -/
def State.finishFront (s : State) (q : FrontQuery) : State :=
  let a := q.ask
  let rs := (q.shards.filterMap fun e => e.2.2.2).mergeSort fun x y => decide (x.shard ≤ y.shard)
  match rs.find? fun r => r.status != stOk with
  | some r => (s.dropFront q).finish a.fn q.ring a.seq (compOf r.status) []
  | none =>
    let sum (f : ShardRes → Nat) : Nat := (rs.map f).sum
    let es := mergeShards a.k rs
    let late := match s.workAt a.fn q.ring a.seq with | some w => w.late | none => false
    let flags := (rs.map (·.flags)).foldl (· ||| ·) q.flags ||| (if rs.length < q.shards.length then fPartial else 0) |||
      (if s.frontDue a < s.tick.count.toNat then fLate else 0)
    let lo := match rs with | [] => s.freshAt 0 | r :: t => t.foldl (fun m r => if r.snap.toNat < m.toNat then r.snap else m) r.snap
    let hi := match rs with | [] => s.freshAt 1 | r :: t => t.foldl (fun m r => if m.toNat < r.snapHi.toNat then r.snapHi else m) r.snapHi
    let mask := (rs.map fun r => 2 ^ r.shard).sum
    let big := sum (·.reranked) ≥ 65536 || sum (·.gleaned) ≥ 65536 || sum (·.lost) ≥ 65536
    let bytes := resultBytes a.seq lo hi mask (sum (·.scanned)) (sum (·.passed)) (s.sum16 2 (sum (·.reranked)))
      (s.sum16 3 (sum (·.gleaned))) (s.sum16 4 (sum (·.lost))) q.tag.toNat a.fn stOk (flags ||| (if late then fLate else 0)) es
    let tensor : Tensor :=
      { rows := es.map fun e => entriesBytes [e], scales := [], vals := es.map fun e => unsortable e.1, fmt := 8
        rowLen := 16, smode := 0, obj := a.index, first := 0 }
    let s1 := if rs.isEmpty || big then s.tookMany 5 else s
    let s2 := (s1.fireStep a.fn q.ring a.seq 4 tensor).mapWork a.fn q.ring a.seq fun w =>
      { w with scanned := min (sum (·.scanned)) 0xFFFFFFFF }
    (s2.dropFront q).finish a.fn q.ring a.seq { status := stOk, flags := flags, result := BitVec.ofNat 64 es.length }
      [(q.raddr, bytes)]

/-- A shard of a query is asked again, at the domain's other node (R200, R401). -/
def State.reissue (s : State) (q : FrontQuery) (shard : Nat) : State :=
  match q.shards.find? fun e => e.1 == shard, s.faults.domains.find? fun d => d.shard == shard with
  | some e, some d =>
    let r := 1 - e.2.1
    let shards := q.shards.map fun k => if k.1 == shard then (k.1, r, s.tick.count, k.2.2.2) else k
    let s1 := (s.setFront { q with shards := shards }).classBump q.ask.fn q.ask.cls 12 1
    s1.sendAsk { q.ask with reissue := true } q.ring (d.node r)
  | _, _ => s

/-- Every shard of a query that has not answered is asked again. -/
def State.reissueAll (s : State) (q : FrontQuery) (keep : Nat × Nat × Word64 × Option ShardRes → Bool) : State :=
  (q.shards.filter fun e => e.2.2.2.isNone && keep e).foldl (fun s e =>
    match s.search.front.find? fun p => p.same q with
    | some p => s.reissue p e.1
    | none => s) s

/-- A query at the end of ingest (R200): it ends when every shard has answered, when one has refused, or, BOUNDED, three
ticks after its results were due; a missing result is asked for again, STRICT in every tick. -/
def State.frontIngest (s : State) (q : FrontQuery) : State :=
  let now := s.tick.count.toNat
  let due := s.frontDue q.ask
  let missing := q.shards.any fun e => e.2.2.2.isNone
  let refused := q.shards.any fun e => match e.2.2.2 with | some r => r.status != stOk | none => false
  let strict := s.strict q.ask.fn q.ask.cls
  if !q.sent then s
  else if !missing || refused then s.finishFront q
  else if now < due then s
  else if !strict && due + 3 ≤ now then s.finishFront q
  else if q.ask.local_ then s
  else if strict || now = due then s.reissueAll q fun _ => true
  else s

/-- The front queries at the end of ingest. -/
def State.frontsIngest (s : State) : State := s.search.front.foldl State.frontIngest s

/-- At a boundary: shard queries of the previous tick's egress window go to the other node where the one asked sent no
beacon in that tick, or one with FALLOW (R401). -/
def State.reissueLost (s : State) : State :=
  let silent (n : Nat) : Bool := n != s.nodeId &&
    (match s.tick.peers.find? fun p => p.node == n with
     | some p => decide (1 ≤ p.age) || p.flags.testBit 2
     | none => true)
  let lost (e : Nat × Nat × Word64 × Option ShardRes) : Bool :=
    e.2.2.1 == s.tick.count - 1 &&
      (match s.faults.domains.find? fun d => d.shard == e.1 with | some d => silent (d.node e.2.1) | none => false)
  (s.search.front.filter fun q => q.sent && !q.ask.local_).foldl (fun s q => s.reissueAll q lost) s

/-- Queries that this tick should have completed are carried (R57). -/
def State.frontsEgress (s : State) : State :=
  (s.search.front.filter fun q => q.sent && decide (s.frontDue q.ask ≤ s.tick.count.toNat)).foldl
    (fun s q => s.carry q.ask.fn q.ring q.ask.seq q.ask.cls) s

end Sys2Proof.Machine
end

