-- ==== Sys2Proof/Machine/Exchange.lean ====
section
/-! DEFINITION. What the exchange windows carry: requests and rows of lookups, and the scans of a redirected channel (15
R397–R399), as the windows of the plan open. -/

namespace Sys2Proof.Machine

/-! ### Redirect messages (Tables FS-3, FS-4) -/

/-- A redirect message: header, then body. -/
def redirMsg (sender kind count ch : Nat) (tick : Word64) (body : List Byte) : List Byte :=
  let h := wordsBytes [word [(32, 32, sender), (0, 8, kind)], tick,
    word [(32, 32, count), (29, 3, ch / 32), (24, 5, ch % 32)], BitVec.ofNat 64 body.length, 0, 0, 0]
  h ++ leBytes 8 (crc32c (body ++ h)) ++ body

/-- A redirect message's sender, tick, count, logical channel and body, where it is well formed. -/
def redirParse (kind : Nat) (p : List Byte) : Option (Nat × Word64 × Nat × Nat × List Byte) :=
  let body := p.drop 64
  let w (i : Nat) : Nat := wordAt p (8 * i)
  if decide (64 ≤ p.length) && w 7 == crc32c (body ++ p.take 56) && field (w 0) 0 8 == kind && field (w 0) 8 24 == 0 &&
      field (w 2) 0 24 == 0 && w 3 == body.length && w 4 == 0 && w 5 == 0 && w 6 == 0 then
    some (field (w 0) 32 32, BitVec.ofNat 64 (w 1), field (w 2) 32 32, 32 * field (w 2) 29 3 + field (w 2) 24 5, body)
  else none

/-- The lists of a query that a redirected channel holds. -/
def State.owedLists (s : State) (x : Index) (j : ShardJob) (ch : Nat) : List Nat :=
  (if j.ex then runLists x (j.run - 1) (s.span j.ask) else j.ask.lists.filter fun l => decide (l < listCount x)).filter
    fun l => listChan x l == ch

/-- The queries that a channel's partner owes partial lists, in their order, each with its lists. -/
def State.owedBy (s : State) (ch : Nat) : List (ShardJob × List Nat) :=
  s.search.shard.filterMap fun j =>
    if s.search.redirected.contains (j.id, ch) then
      (s.index j.ask.fn j.ask.index).map fun x => (j, s.owedLists x j ch)
    else none

/-- Redirect requests leave in window A, one for each redirected channel that owes (R397). -/
def State.askPartner (s : State) : State :=
  match s.partner with
  | none => s
  | some n =>
    let chans := (s.search.redirected.map (·.2)).dedup
    chans.foldl (fun s ch =>
      let js := s.owedBy ch
      let body := js.flatMap fun (j, ls) => askBytes { j.ask with lists := ls }
      if js.isEmpty then s else s.sendPlan 3 n (redirMsg s.nodeId 1 js.length ch s.tick.count body)) s

/-! ### Serving a redirect -/

/-- Tile sheaf slots for lists of a block, beside those that the tick has bound; none where too few are left (R397). -/
def State.takeSlots (s : State) (f c o : Nat) (ls : List Nat) : Option State :=
  let sp := splitOf s.plan0 f c o
  let first := splitFirst s.plan0 f c o
  let used := s.tiers.bindings.filter fun b => decide (first ≤ b.1) && decide (b.1 < first + sp.slots)
  let new := (ls.filter fun l => !used.any fun b => b.2.2.2 == l).dedup
  if used.length + new.length > sp.slots then none
  else
    let more := new.zipIdx.map fun (l, i) => (first + used.length + i, f, o, l)
    some { s with tiers := { s.tiers with bindings := s.tiers.bindings ++ more } }

/-- A pair record of a response (Table FS-4). -/
def pairBytes (x : Index) (cap : Nat) (p : PairOut) : List Byte :=
  let es := p.best.map fun e => (e.1, vecId x p.list e.2, 0)
  let pad := List.replicate (cap - es.length) (wordsBytes [BitVec.ofNat 64 (2 ^ 64 - 1), word [(32, 32, 0xFFFFFFFF)]])
  wordsBytes [word [(32, 32, p.scanned), (0, 32, p.passed)],
    word [(48, 16, min p.counts.nan 65535), (22, 1, flag (decide (cap < p.passed))), (0, 22, p.list)]] ++
    entriesBytes es ++ pad.flatMap id

/-- A block header of a response. -/
def blockBytes (q : Word64) (pairs status cap : Nat) : List Byte :=
  wordsBytes [q, word [(48, 16, pairs), (40, 8, status), (32, 8, cap)]]

/-- One block of a request: the bytes that answer it (R397, R398). -/
def State.serveBlock (s : State) (a : Ask) : State × List Byte :=
  let no (st : Nat) : State × List Byte := (s, blockBytes a.seq 0 st a.cap)
  match s.index a.fn a.index with
  | none => no 1
  | some x =>
    if x.digest ≠ some a.digest then no 1
    else if s.tables.lagging then no 3
    else if !a.lists.all fun l => decide (l < listCount x) && (s.listHdr x l).list == l then no 4
    else
      match s.takeSlots a.fn a.cls a.index a.lists with
      | none => no 2
      | some s1 =>
        let v := (queryFp x a.qfmt a.query).1
        let q := (coarseVec x v).1
        let lut := (queryLut x q).1
        let outs := a.lists.map (s1.scanPair x q lut a.filter a.cap (a.tick.toNat + 1))
        (s1, blockBytes a.seq outs.length 0 a.cap ++ outs.flatMap (pairBytes x a.cap))

/-- The blocks of a request, each as long as its query's index makes it. -/
def State.serveBlocks (s : State) : Nat → List Byte → State × List Byte
  | 0, _ => (s, [])
  | n + 1, body =>
    let head := askOf 0 body
    let dims := match s.index head.fn head.index with | some x => x.dims | none => 0
    let (s1, out) := s.serveBlock (askOf dims body)
    let (s2, rest) := s1.serveBlocks n (body.drop (askLen dims body))
    (s2, out ++ rest)

/-- SCAN_REQUEST (R397): the partner's request lands in window A; its lists are scanned, and the answer waits for window
B. -/
def execScanRequest (payload : List Byte) (atNs : Nat) (s : State) : Host.Outcome State Fault Refusal :=
  .next (match redirParse 1 payload with
    | some (sender, tick, n, ch, body) =>
      if s.inWindow 4 atNs && tick = s.tick.count then
        let (s1, out) := s.serveBlocks n body
        let m := redirMsg s.nodeId 2 n ch tick out
        { s1 with faults := { s1.faults with serving := s1.faults.serving ++ [(sender, m)] } }
      else s.bumpFabric 11
    | none => s.bumpFabric 11)

/-- Redirect responses leave in window B. -/
def State.answerPartner (s : State) : State :=
  let s1 := s.faults.serving.foldl (fun s r => s.sendPlan 3 r.1 r.2) s
  { s1 with faults := { s1.faults with serving := [] } }

/-! ### Taking a redirect's answer (R399) -/

/-- A pair record as it joins a query: its candidates, counts and OVER. -/
def pairOf (cap : Nat) (b : List Byte) : PairOut × Bool :=
  let w := wordAt b 0
  let v := wordAt b 8
  let es := (List.range cap).filterMap fun i =>
    let id := wordAt b (16 + 16 * i)
    if id = 2 ^ 64 - 1 then none
    else some (sortable (BitVec.ofNat 32 (field (wordAt b (24 + 16 * i)) 32 32)), field id 0 32)
  ({ list := field v 0 22, best := es, scanned := field w 32 32, passed := field w 0 32
     counts := { Counts0 with nan := field v 48 16 } }, v.testBit 22)

/-- The pairs of an OK block join the merge of their query, and its channel owes it nothing more. -/
def State.joinPairs (s : State) (j : ShardJob) (ch : Nat) (ps : List (PairOut × Bool)) : State :=
  let nans := (ps.map fun p => p.1.counts.nan).sum
  let j2 := { j with
    merged := topCands j.ask.keep (j.merged ++ ps.flatMap fun p => p.1.cands)
    scannedCount := j.scannedCount + (ps.map fun p => p.1.scanned).sum
    passedCount := j.passedCount + (ps.map fun p => p.1.passed).sum
    overCap := j.overCap ++ (ps.filter (·.2)).map fun p => p.1.list
    flags := j.flags ||| (if nans > 0 then fNanSeen else 0) }
  let s1 := s.setJob j2
  let s2 := { s1 with search := { s1.search with redirected := s1.search.redirected.filter fun r => r != (j.id, ch) } }
  s2.mergeDone j.id

/-- The blocks of a response in request order; a query whose block is not OK stays carried. -/
def State.takeBlocks (s : State) (ch : Nat) : List (ShardJob × List Nat) → List Byte → State
  | [], _ => s
  | (j, _) :: r, body =>
    let w := wordAt body 8
    let pairs := field w 48 16
    let cap := field w 32 8
    let rest := body.drop (16 + pairs * (16 + 16 * cap))
    if field w 40 8 = 0 && wordAt body 0 = j.ask.seq.toNat then
      let ps := (List.range pairs).map fun i => pairOf cap (body.drop (16 + i * (16 + 16 * cap)))
      (s.joinPairs j ch ps).takeBlocks ch r rest
    else s.takeBlocks ch r rest

/-- SCAN_RESPONSE (R398, R399): the partner's answer lands in window B. -/
def execScanResponse (payload : List Byte) (atNs : Nat) (s : State) : Host.Outcome State Fault Refusal :=
  .next (match redirParse 2 payload with
    | some (sender, tick, n, ch, body) =>
      let js := s.owedBy ch
      if s.inWindow 6 atNs && tick = s.tick.count && s.partner = some sender && js.length = n then s.takeBlocks ch js body
      else s.bumpFabric 11
    | none => s.bumpFabric 11)

/-! ### The windows -/

/-- GATE_OPEN (R344): a SEND record's window opens. With the first TC3 window of exchange A, requests leave; with that of
exchange B, answers (R236, R397). -/
def execGateOpen (index : Nat) (s : State) : Host.Outcome State Fault Refusal :=
  let opens := s.sendRecs.find? fun r => r.2 == index
  let s1 := s.gateOpens index
  .next (match opens with
    | some (g, _) =>
      if s.egress.gates.contains index || g.tc ≠ 3 || !s.running then s1
      else if g.phase = 4 then
        if s1.tables.exchA = some s1.tick.count then s1 else s1.exchangeA.askPartner
      else if g.phase = 6 then
        if s1.tables.exchB = some s1.tick.count then s1 else s1.exchangeB.answerPartner
      else s1
    | none => s1)

end Sys2Proof.Machine
end

