-- ==== Sys2Proof/Machine/Membership.lean ====
section
/-! DEFINITION. Membership of a domain: routing weights and SOLO at a boundary, the log kept for a lost partner, rejoining
and seeding (02 R62, 15 R401–R406, 16 R430). -/

namespace Sys2Proof.Machine

/-! ### Weights and SOLO at a boundary (R62, R402) -/

/-- The beacons of the tick that has ended are the last ones; a node that sent none is one tick further away. -/
def State.agePeers (s : State) : State :=
  { s with tick := { s.tick with
      peers := s.tick.peers.map fun p => { p with age := if p.fresh then 0 else p.age + 1, fresh := false } } }

/-- A domain at a boundary: its weights, and SOLO or SOLO_END. -/
def State.domainBoundary (s : State) (d : Domain) : State :=
  let w0 := s.nodeWeight d.node0
  let w1 := s.nodeWeight d.node1
  let solo := w0 = 0 || w1 = 0 || d.node0 == d.node1
  let e : Domain := { d with w0 := w0, w1 := w1, solo := solo }
  let ds := s.faults.domains.map fun y => if y.shard == d.shard then e else y
  let s1 := { s with faults := { s.faults with domains := ds } }
  if solo && !d.solo then
    s1.raise .solo 0 d.shard (if w0 ≠ 0 then d.node0 else if w1 ≠ 0 then d.node1 else 0) 0
  else if !solo && d.solo then s1.raise .soloEnd 0 d.shard 0 0
  else s1

/-- ROUTING_WEIGHTS_UPDATE and SOLO. -/
def State.routing (s : State) : State := s.faults.domains.foldl State.domainBoundary s

/-! ### The log of a lost partner (R405) -/

/-- From the first missing beacon of the partner every log record is kept, for TK_REJOIN_WINDOW; a partner that is back
and no longer catches up needs none of them. -/
def State.partnerWatch (s : State) : State :=
  match s.partner with
  | none => s
  | some p =>
    let b := s.tick.peers.find? fun b => b.node == p
    let gone := match b with | some b => decide (1 ≤ b.age) | none => false
    let well := match b with | some b => b.age == 0 && !b.flags.testBit 4 && !b.flags.testBit 2 | none => false
    if gone && s.faults.peerLost.isNone then
      { s with faults := { s.faults with peerLost := some s.tick.count, keepLog := true } }
    else if well then { s with faults := { s.faults with peerLost := none, keepLog := false } }
    else s

/-- REJOIN_WINDOW_EXPIRY: the window has run from the peer's last beacon, and its log records are kept no longer. -/
def execRejoinWindowExpiry (s : State) : Host.Outcome State Fault Refusal :=
  .next (if s.faults.peerLost.isSome then { s with faults := { s.faults with keepLog := false } } else s)

/-! ### Rejoining (R405) -/

/-- The node begins to catch up with its partner, if the partner is there: it asks for every batch after the last one that
it has taken. The request's layout is the model's own: the first tick needed. -/
def State.startRejoin (s : State) (since : Word64) : State :=
  match s.partner with
  | some p =>
    if s.partnerGone then { s with faults := { s.faults with rejoin := .none } }
    else
      let next := match s.tables.partnerTick with | some t => t + 1 | none => since
      ({ s with faults := { s.faults with rejoin := .catchUp next 0 since none } }).sendPlan 2 p
        (wordsBytes [next, 2, 0, 0, 0, 0, 0, 0])
  | none => { s with faults := { s.faults with rejoin := .none } }

/-- The node waits for a seed from its partner, if the partner is there (R406, R430). -/
def State.startSeeding (s : State) : State :=
  { s with faults := { s.faults with rejoin := if s.partnerGone then .none else .seeding } }

/-- CATCHUP_DONE (R405): every batch through the current tick has been taken, and what was due has been applied. -/
def State.catchUpDone (s : State) : State :=
  match s.faults.rejoin with
  | .catchUp next n since _ =>
    if seqLe s.tick.count next && (s.tables.queue.all fun u => !seqLe u.tick s.tick.count) then
      ({ s with faults := { s.faults with rejoin := .none } }).raise .catchupDone 0 0 n (s.tick.count - since).toNat
    else s
  | _ => s

/-! ### Seeding (R406, R430) -/

/-- The full vector of a row of a seed. -/
def fullOf (r : RefillRow) : FullVec := { row := r.row, scale := r.scale, norm := r.norm }

/-- Whether the node's own segment of a list is the partner's: equal LIST, GENERATION and ROWS (R430). -/
def State.sameSegment (s : State) (x : Index) (r : SeedList) (n : Nat) : Bool :=
  match s.segOf x.fn x.obj r.list with
  | some g => g.gen == r.gen && (s.segHdr g.map).list == r.list && (s.segHdr g.map).rows == n
  | none => false

/-- The vectors of a list of a seed: the first LEN of them are its segment, which is kept where it is the same; the others,
of the delta, are logged. -/
def State.seedList (s : State) (r : SeedList) : State :=
  match s.index r.fn r.index with
  | none => s
  | some x =>
    let h := s.listHdr x r.list
    let n := min h.len r.rows.length
    let vec (p : Nat) : Word64 × FullVec :=
      (vecId x r.list p, match r.rows[p]? with | some v => fullOf v | none => { row := [], scale := 0, norm := 0 })
    let lost := (List.range n).filter fun p => match r.rows[p]? with | some v => v.lost | none => true
    let back := (List.range n).filter fun p => !lost.contains p
    let s1 :=
      if s.sameSegment x r n then
        match s.segOf x.fn x.obj r.list with
        | some g => s.putHdr x r.list { h with segment := g.map }
        | none => s
      else
        match s.writeVecs x r.list n r.gen.toNat vec lost back with
        | some (t, a) => t.putHdr x r.list { t.listHdr x r.list with segment := a }
        | none => s
    let delta := (r.rows.drop n).zipIdx
    delta.foldl (fun s v =>
      let u : UpItem :=
        { origin := s.replica, fn := x.fn, ring := 0, seq := 0, item := 0, op := 0x21, obj := x.obj, cls := 0
          target := BitVec.ofNat 64 r.list, pass := 0, scale := v.1.scale, attr := v.1.vid
          payload := bytesAt v.1.row 0 (rowBytes x.vfmt x.dims), dfmt := 0, tick := s.tick.count, held := false }
      (s.logRecord false x.fn x.obj (recBytes u) (some (x.fn, x.obj, r.list, n + v.2))).1) s1

/-- SEED_COMPLETE: the partner's objects and segments stand, with the watermarks of the origin that this node takes over;
catching up begins from the seed's tick. -/
def execSeedComplete (seed : Seed) (s : State) : Host.Outcome State Fault Refusal :=
  .next (match s.faults.rejoin with
    | .seeding =>
      let s1 := { s with t1 := memWriteCells s.t1 (seed.cells.filter fun c => decide (c.1 < 2 ^ 39)) }
      let s2 := seed.lists.foldl State.seedList s1
      let mine (w : Nat × Nat × Nat × Word64) : Bool := w.1 == s.replica
      let marks := (s2.tables.watermarks.filter fun w => !mine w) ++ seed.marks.map fun m => (s.replica, m.1, m.2.1, m.2.2)
      ({ s2 with tables := { s2.tables with watermarks := marks, partnerTick := some seed.tick } }).startRejoin seed.tick
    | _ => s)

end Sys2Proof.Machine
end

