-- ==== Sys2Proof/Machine/Select.lean ====
section
/-! DEFINITION. Selection of user data: the select descriptor, its input, its rows and its result (08 R219–R223). -/

namespace Sys2Proof.Machine

/-- K, LEN, ROWS, DESC and FMT of a select descriptor (Table SL-2). -/
def selK (d : Desc) : Nat := field (d.w 1) 36 12 + 1
def selLen (d : Desc) : Nat := field (d.w 1) 0 24 + 1
def selRows (d : Desc) : Nat := field (d.w 2) 0 16 + 1
def selDesc (d : Desc) : Bool := (d.w 1).testBit 35
def selFmt (d : Desc) : Nat := field (d.w 1) 24 8

/-- The pieces of a select, which are its admission slots (R221). -/
def selPieces (_ : State) (d : Desc) : Nat := selRows d * ceilDiv (selLen d) 65536

/-- Form and quotas of a select (R220, R221). -/
def selectCheck (s : State) (d : Desc) : Option Nat :=
  let form := (selFmt d == 1 || (decide (3 ≤ selFmt d) && decide (selFmt d ≤ 7))) && decide (selK d ≤ selLen d) &&
    decide (selRows d * selLen d ≤ 4194304) && d.w 3 % 64 == 0 && d.w 4 % 64 == 0 && decide (0x30 ≤ d.cls) &&
    decide (d.cls ≤ 0x3E) && zeros d [(1, 32, 3), (2, 16, 16), (5, 0, 64), (6, 0, 64), (7, 0, 64)]
  if !form then some stBad
  else if !s.hasSlots d.fn d.cls then some stNotPermitted
  else if (slotRecOf s.plan0 d.fn d.cls).slots < selPieces s d then some stOverQuota
  else none

/-- A select begins: its input is to be read in this tick (R222). -/
def selectBody (s : State) (d : Desc) : State :=
  let j : SelectJob :=
    { fn := d.fn, ring := d.ring, seq := d.seq, tick := s.tick.count, k := selK d, rows := selRows d, len := selLen d
      fmt := selFmt d, desc := selDesc d, iaddr := d.w 3, raddr := d.w 4, tag := BitVec.ofNat 32 (field (d.w 2) 32 32)
      input := [], landed := false, retried := false }
  { s with search := { s.search with selects := s.search.selects ++ [j] } }

/-- SELECT (R220–R222). -/
def execSelect (d : Desc) (s : State) : Host.Outcome State Fault Refusal :=
  .next (s.runDesc d 0x24 selectCheck selPieces selectBody)

/-- A select in progress. -/
def State.selectAt (s : State) (f r : Nat) (q : Word64) : Option SelectJob :=
  s.search.selects.find? fun j => j.fn == f && j.ring == r && j.seq == q

/-- Put a select back. -/
def State.setSelect (s : State) (j : SelectJob) : State :=
  let js := s.search.selects.map fun x => if x.fn == j.fn && x.ring == j.ring && x.seq == j.seq then j else x
  { s with search := { s.search with selects := js } }

/-- A select ends. -/
def State.dropSelect (s : State) (j : SelectJob) : State :=
  let js := s.search.selects.filter fun x => !(x.fn == j.fn && x.ring == j.ring && x.seq == j.seq)
  { s with search := { s.search with selects := js } }

/-- Row stride of an input (R220). -/
def SelectJob.stride (j : SelectJob) : Nat := stride64 (rowBytes j.fmt j.len)

/-- The input of a select lands, or its read fails: a first failure is retried in the next tick, a second ends the
descriptor with BAD_DESCRIPTOR and a MEMORY event that names the host address (R222, Table TI-6). -/
def State.selectLands (s : State) (j : SelectJob) (good : Bool) : State :=
  if j.landed || (j.retried && decide (s.tick.count = j.tick)) then s
  else if good then
    s.setSelect { j with
      landed := true, tick := s.tick.count, input := memReadBytes s.hostMem j.iaddr (j.rows * j.stride) }
  else if j.retried then
    ((s.raiseNamed .sheafFault [j.iaddr]).dropSelect j).finish j.fn j.ring j.seq (compOf stBad) []
  else s.setSelect { j with retried := true, tick := s.tick.count }

/-- The elements of row r: sortable keys with their indices, and how many are NaN (R87, R212, R220). -/
def SelectJob.rowKeys (j : SelectJob) (r : Nat) : List KeyEntry × Nat :=
  let xs := rowF32 j.fmt j.len (bytesAt j.input (r * j.stride) (rowBytes j.fmt j.len))
  (xs.zipIdx.map fun (x, i) => (sortable x, i), countNan xs)

/-- The selected entries of a row as the result holds them (R223): VALUE and index. -/
def selBlock (es : List KeyEntry) : List Byte :=
  es.flatMap fun e => leBytes 4 (unsortable e.1).toNat ++ leBytes 4 e.2

/-- The result header (Table SL-3). -/
def selHeader (j : SelectJob) (nans flags : Nat) : List Byte :=
  wordsBytes [j.seq, word [(32, 32, j.tag.toNat), (0, 32, min nans (2 ^ 32 - 1))],
    word [(32, 16, j.rows - 1), (20, 12, j.k - 1)], 0, 0, 0, 0, word [(8, 8, stOk), (0, 8, flags)]]

/-- A select's rows are selected and its result stands ready: the first K of each row in the direction asked
(R214, R219). -/
def State.selectDone (s : State) (j : SelectJob) : State :=
  let rows := (List.range j.rows).map j.rowKeys
  let nans := (rows.map fun r => r.2).sum
  let late := match s.workAt j.fn j.ring j.seq with | some w => w.late | none => false
  let flags := (if nans > 0 then fNanSeen else 0) ||| (if late then fLate else 0)
  let blocks := rows.zipIdx.map fun (r, i) =>
    (j.raddr + 64 + i * stride64 (8 * j.k), selBlock (topkArray j.desc j.k r.1))
  (s.dropSelect j).finish j.fn j.ring j.seq { status := stOk, flags := flags, result := BitVec.ofNat 64 (j.rows - 1) }
    ((j.raddr, selHeader j nans flags) :: blocks)

/-- Selects at the start of the egress window: those whose input landed in an earlier tick are done (R222). -/
def State.selectEgress (s : State) : State :=
  s.search.selects.foldl (fun s j => if j.landed && decide (j.tick.toNat < s.tick.count.toNat) then s.selectDone j else s) s

/-- Selects at a tick edge: one whose input has not landed, and one that landed after its planned tick, is carried
(R57, R222). -/
def State.selectEdge (s : State) : State :=
  let one (s : State) (j : SelectJob) : State :=
    match s.workAt j.fn j.ring j.seq with
    | some w =>
      if !j.landed || decide (w.admitTick.toNat < s.tick.count.toNat) then s.carry j.fn j.ring j.seq w.cls else s
    | none => s
  s.search.selects.foldl one s

end Sys2Proof.Machine
end

