-- ==== Sys2Proof/Machine/Capacity.lean ====
section
/-! DEFINITION. The capacity in force of the tiers, and the shedding of admission when a tier is short (06 R173–R176). -/

namespace Sys2Proof.Machine


/-- Logical channels of a stack mapped to a unit with its full contents. -/
def Stack.fullChans (x : Stack) : Nat :=
  ((List.range 32).filter fun c => (x.unitOf c).isSome && x.refill ≠ some c).length

/-- Capacity in force of a tier, MB/s, as a fraction (Table TI-12). -/
def State.capacity (s : State) (tier stack : Nat) : Nat × Nat :=
  let m := s.tiers.channels.getD stack 32
  match tier with
  | 0 => (1600000 * m, 32)
  | 1 => (12800000 * m, 32)
  | 2 => s.tiers.capT2
  | _ => s.tiers.capT3

/-- T2 capacity: 153.6 GB/s by the channels in service and the share of good dies. -/
def State.t2Capacity (s : State) : Nat × Nat :=
  let good := s.flash.dies.filter fun d => d.state == .good
  let there := (s.flash.dies.filter fun d => d.state != .absent).length
  let chans := ((good.map fun d => d.id / 16).dedup).length
  if there = 0 then (0, 1)
  else if chans * there ≤ good.length * 32 then (153600 * chans, 32) else (153600 * good.length, there)

/-- A link rate in units of 0.5 GT/s, from its code in HI_LINK_STATUS (Table MP-9). -/
def halfRate (code : Nat) : Nat := [0, 5, 10, 16, 32, 64, 128].getD code 0

/-- CAPACITY_IN_FORCE (R174). -/
def State.setCapacity (s : State) : State :=
  let k := s.host.link
  let t3 := if k.up then (100000 * k.lastWidth * halfRate k.lastRate, 16 * 128) else (0, 1)
  { s with tiers := { s.tiers with
      channels := s.warren.dram.map Stack.fullChans, capT2 := s.t2Capacity, capT3 := t3 } }

/-- The category that a shedding step sheds (Table TI-13). -/
def shedCat (step : Nat) : Nat := [0, 3, 4, 2, 1, 0].getD step 5

/-- The tiers, with their stacks. -/
def tierList : List (Nat × Nat) :=
  ((List.range 2).flatMap fun t => (List.range 8).map fun k => (t, k)) ++ [(2, 0), (3, 0), (4, 0)]

/-- Whether a demand, as a fraction, exceeds a capacity. -/
def exceeds (d c : Nat × Nat) : Bool := decide (c.1 * d.2 < d.1 * c.2)

/-- Demand of a tier with the steps taken, as a fraction: shed categories hold nothing, INTERACTIVE is scaled by step
5. -/
def State.shedDemand (s : State) (shed : List Nat) (num den : Nat) (t : Nat × Nat) : Nat × Nat :=
  let rs := resRecs s.plan0
  let off (r : ResRec) : Bool := shed.any fun k => decide (k < 5) && shedCat k == r.cat
  let other := demandOf rs t.1 t.2 fun r => !off r && r.cat != 0
  let inter := demandOf rs t.1 t.2 fun r => r.cat == 0
  if shed.contains 5 then (other * den + inter * num, den) else (demandOf rs t.1 t.2 fun r => !off r, 1)

/-- The tiers that are short under some steps. -/
def State.shortTiers (s : State) (shed : List Nat) (num den : Nat) : List (Nat × Nat) :=
  tierList.filter fun t => exceeds (s.shedDemand shed num den t) (s.capacity t.1 t.2)

/-- The factor of step 5: the smallest (C − U) ÷ I of the short tiers. -/
def State.shedFactor (s : State) (shed : List Nat) : Nat × Nat :=
  let rs := resRecs s.plan0
  let off (r : ResRec) : Bool := shed.any fun k => decide (k < 5) && shedCat k == r.cat
  let fs := (s.shortTiers (shed.filter (· < 5)) 1 1).filterMap fun t =>
    let u := demandOf rs t.1 t.2 fun r => !off r && r.cat != 0
    let i := demandOf rs t.1 t.2 fun r => r.cat == 0
    let c := s.capacity t.1 t.2
    if i = 0 then none else some (c.1 - u * c.2, i * c.2)
  fs.foldl (fun b f => if f.1 * b.2 < b.1 * f.2 then f else b) (1, 1)

/-- Whether a step's category holds reservations on a short tier. -/
def State.stepHolds (s : State) (step : Nat) (short : List (Nat × Nat)) : Bool :=
  (resRecs s.plan0).any fun r => r.cat == shedCat step &&
    short.any fun t => r.tier == t.1 && (decide (2 ≤ r.tier) || r.stack == t.2)

/-- Steps taken in order until no tier is short (R175). -/
def State.shedMore (s : State) : List Nat → State
  | [] => s
  | step :: r =>
    let short := s.shortTiers s.tiers.shed s.tiers.shedNum s.tiers.shedDen
    if short.isEmpty then s
    else if s.tiers.shed.contains step || !s.stepHolds step short then s.shedMore r
    else
      let shed := s.tiers.shed ++ [step]
      let f := if step = 5 then s.shedFactor shed else (s.tiers.shedNum, s.tiers.shedDen)
      let t := short.headD (0, 0)
      let s1 := { s with tiers := { s.tiers with shed := shed, shedNum := f.1, shedDen := f.2 } }
      (s1.raiseNamed .shedStep [step, t.1, t.2, (s.capacity t.1 t.2).1, (s.capacity t.1 t.2).2]).shedMore r

/-- Steps restored in reverse order, for as long as no tier becomes short (R176). -/
def State.shedLess (s : State) : Nat → State
  | 0 => s
  | n + 1 =>
    match s.tiers.shed.getLast? with
    | none => s
    | some step =>
      let shed := s.tiers.shed.dropLast
      if (s.shortTiers shed 1 1).isEmpty then
        let s1 := { s with tiers := { s.tiers with shed := shed, shedNum := 1, shedDen := 1 } }
        (s1.raiseNamed .shedRestore [step]).shedLess n
      else s

/-- SHEDDING_STEP and SHEDDING_RESTORE at a boundary. SYSTEM demand alone beyond a tier's capacity raises an event at every
boundary. -/
def State.shedding (s : State) : State :=
  let s0 := if s.tiers.shed.contains 5 then
      let f := s.shedFactor s.tiers.shed
      { s with tiers := { s.tiers with shedNum := f.1, shedDen := f.2 } }
    else s
  let s1 := if (s0.shortTiers s0.tiers.shed s0.tiers.shedNum s0.tiers.shedDen).isEmpty then s0.shedLess 5
    else s0.shedMore [1, 2, 3, 4, 5]
  let sys := tierList.filter fun t =>
    exceeds (demandOf (resRecs s.plan0) t.1 t.2 fun r => r.cat == 5, 1) (s.capacity t.1 t.2)
  match sys.head? with
  | some t => s1.raiseNamed .shedStep [0, t.1, t.2, (s.capacity t.1 t.2).1, (s.capacity t.1 t.2).2]
  | none => s1

/-- Whether an image's demand on some tier exceeds 85 % of the capacity in force (R173, COMMIT of a PLAN_SWAP). -/
def State.overCapacity (s : State) (img : List Byte) : Bool :=
  tierList.any fun t =>
    let c := s.capacity t.1 t.2
    exceeds (demandOf (resRecs img) t.1 t.2 fun _ => true, 1) (c.1 * 85, c.2 * 100)

end Sys2Proof.Machine
end

