-- ==== Sys2Proof/Machine/Live.lean ====
section
/-! DEFINITION. The live sheaves of an index and of a table: the headers that stand in stacked memory from the boundary
that creates the object (06 R161, 07 R178, R183, R184, 09 R227). -/

namespace Sys2Proof.Machine

/-- A header of a live sheaf: kind, format, scale mode, rows, row length, object, function, part, position. -/
def liveHdr (kind fmt smode rows rowLen obj fn part seq payload : Nat) (tick : Word64) : SheafHdr :=
  { magic := 0x5346, kind := kind, fmt := fmt, smode := smode, comp := 0, blockLen := 0, live := true, clean := true
    plen := payload / 64, sscale := 0, rows := rows, stored := payload, rowLen := rowLen, obj := obj, fn := fn
    part := part, gen := 0, seq := seq, crc := 0, tick := tick, hcrc := 0 }

/-- A header written at a node address. -/
def State.stampAt (s : State) (a : Nat) (h : SheafHdr) : State := { s with t1 := memWriteBytes s.t1 a (shBytes h) }

/-- Packed sheaves of `n` items of `u` bytes from an address on: each header, `rows` giving the rows of k items. -/
def State.stampPacked (s : State) (a n u kind rowLen : Nat) (rows : Nat → Nat) (obj fn part : Nat) : State :=
  let per := 65536 / u
  (List.range (ceilDiv n per)).foldl (fun s i =>
    let k := min per (n - i * per)
    s.stampAt (a + i * (64 + payloadOf (per * u)))
      (liveHdr kind 8 0 (rows k) rowLen obj fn part i (payloadOf (k * u)) s.tick.count)) s

/-- The live headers of one cell: LHEADS, the tombstone regions, and each list's delta sheaves. The part of a sheaf that
serves the lists of a cell is the cell's first list. -/
def State.stampCell (s : State) (x : Index) (c : Nat) : State :=
  let base := x.cellBase.getD c 0
  let (o1, o2, _, _, _) := cellLayout x
  let first := c * x.cells2
  let u := tombBytes 0 x.delta
  let s1 := s.stampPacked base x.cells2 64 4 64 (fun k => k) x.obj x.fn first
  let s2 := s1.stampPacked (base + o1) x.cells2 u 3 1 (fun k => 8 * u * k) x.obj x.fn first
  (List.range x.cells2).foldl (fun s k =>
    let a := base + o2 + k * deltaBytes x.delta x.code
    let n := payloadOf (x.delta * x.code)
    (s.stampAt a (liveHdr 5 8 0 x.delta x.code x.obj x.fn (first + k) 0 n s.tick.count)).stampAt (a + 64 + n)
      (liveHdr 6 8 0 x.delta 8 x.obj x.fn (first + k) 0 (payloadOf (x.delta * 8)) s.tick.count)) s2

/-- An index comes to exist, with its live headers. -/
def State.createIndex (s : State) (x : Index) : State :=
  let s1 := s.placeIndex x
  match s1.index x.fn x.obj with
  | some y => (List.range y.cells1).foldl (fun s c => if y.cellBase.getD c 0 = 0 then s else s.stampCell y c) s1
  | none => s1

/-- The live headers of a table's unit: the SCALE sheaf under SIDE, and the ROWS sheaf; PART is the table row of its first
row. -/
def State.stampUnit (s : State) (t : TableDef) (ch u : Nat) : State :=
  let base := t.base.getD ch 0 + u * unitBytes t
  let side := tSide t
  let j := (u * 256 + ch) * tRps t
  let part := match t.self with | some o => rowOfLocal t o j | none => 0
  let code := if tNested t then ceilDiv (tRps t) 64 * 64 else 0
  let n := payloadOf (code + tRps t * tStride t)
  let smode := if side then 1 else if tNested t then 2 else 0
  let s1 := if side then s.stampAt base (liveHdr 0x0C 6 0 (tRps t) 1 t.obj t.fn 0 0 4096 s.tick.count) else s
  s1.stampAt (if side then base + 64 + 4096 else base)
    (liveHdr 0x0A t.fmt smode (tRps t) t.elems t.obj t.fn part (flag side) n s.tick.count)

/-- A table comes to exist, with its live headers: units, and the dead bitmaps. -/
def State.createTable (s : State) (t : TableDef) : State :=
  let s1 := s.placeTable t
  match s1.tableDef t.fn t.obj with
  | none => s1
  | some y =>
    if y.self.isNone then s1
    else
      (List.range 256).foldl (fun s ch =>
        let s2 := (List.range (chanBlocks y ch)).foldl (fun s u => s.stampUnit y ch u) s
        s2.stampPacked (y.deadBase.getD ch 0) (ceilDiv (chanBlocks y ch * tRps y) 512) 64 3 1 (fun k => 512 * k) y.obj y.fn 0) s1

end Sys2Proof.Machine
end

