-- ==== Sys2Proof/Machine/StileState.lean ====
section
/-! DEFINITION. States of stiles: allocation, plan swap, quarantine, spare entries, and reading a state word
(11 R279–R284, R299, R300). -/

namespace Sys2Proof.Machine

/-! ### State changes of a boundary (R280, Table ST-3) -/

/-- Boundaries that a quarantine entered now lasts (R282, R312). -/
def State.quarTicks (s : State) : Nat := ceilDiv (2 * s.pktLifeMs * 1000000) s.tickNs

/-- Whether a stile is FREE at this boundary, a quarantine that ends at it counted as ended (R283). -/
def State.stileFree (s : State) (i : Nat) : Bool :=
  let t := s.stile i
  t.state == .free || (t.state == .quarantine && decide (t.quarEnd ≤ s.tick.count))

/-- A stile leaves FREE (R280): GEN advances, COUNT becomes INIT and the flags clear. -/
def stileEnter (t : Stile) (st : StileState) (owner init : Nat) : Stile :=
  { t with
    state := st, owner := owner, gen := (t.gen + 1) % 256, count := init, init := init, misuse := false
    underflow := false, overflow := false, homeKind := 0, home := 0, host := false, remote := false }

/-- ST_ALLOC takes effect: FREE becomes FUNCTION (R283). -/
def State.allocStile (s : State) (f i init : Nat) : State :=
  if s.stileFree i then s.setStile i (stileEnter (s.stile i) .function f init) else s

/-- A stile enters QUARANTINE: COUNT, GEN and flags stay (Table ST-3). -/
def State.quarantine (s : State) (i : Nat) : State :=
  let t := s.stile i
  s.setStile i { t with state := .quarantine, quarEnd := s.tick.count + BitVec.ofNat 64 s.quarTicks }

/-- ST_FREE takes effect: FUNCTION becomes QUARANTINE. -/
def State.freeStile (s : State) (f i : Nat) : State :=
  let t := s.stile i
  if t.state = .function && t.owner = f then s.quarantine i else s

/-- The FUNCTION stiles of functions that had an FLR enter QUARANTINE at this boundary (R374). -/
def State.flrStiles (s : State) : State :=
  let s1 := s.stiles.flrMarked.foldl (fun s i => if (s.stile i).state = .function then s.quarantine i else s) s
  { s1 with stiles := { s1.stiles with flrMarked := [] } }

/-- A record of a new image's STILE_ALLOC at the swap (Table ST-3). -/
def State.planStile (s : State) (r : AllocRec) : State :=
  let t := s.stile r.stile
  let place (t : Stile) : Stile := { t with homeKind := r.homeKind, home := r.home, host := r.host, remote := r.remote }
  if s.stileFree r.stile then s.setStile r.stile (place (stileEnter t .planned r.fn r.init))
  else if t.state = .planned then s.setStile r.stile (place { t with count := r.init, init := r.init, owner := r.fn })
  else s

/-- The stiles at a plan swap (R280): those that the new image does not name enter QUARANTINE, those that it names are
PLANNED. -/
def State.swapStiles (s : State) (img : List Byte) : State :=
  let rs := allocRecs img
  let named := rs.map (·.stile)
  let gone := (s.stiles.table.filter fun p => p.2.state == .planned && !named.contains p.1).map (·.1)
  rs.foldl State.planStile (gone.foldl State.quarantine s)

/-- Step 3 of R44: every PLANNED stile takes COUNT = INIT, and keeps GEN and flags (R299). -/
def State.resetPlanned (s : State) : State :=
  let tbl := s.stiles.table.map fun p => if p.2.state = .planned then (p.1, { p.2 with count := p.2.init }) else p
  { s with stiles := { s.stiles with table := tbl } }

/-- Spare entries of the stile table (Table FS-2). -/
def stileSpares : Nat := 512

/-- A stile's new entry after a double-bit error (R300). -/
def remapped (t : Stile) : Stile :=
  match t.state with
  | .planned => { t with count := t.init, misuse := false, underflow := false, overflow := false }
  | .function => { t with count := 0, gen := (t.gen + 1) % 256, misuse := true, underflow := false, overflow := false }
  | _ => { t with count := 0, misuse := false, underflow := false, overflow := false }

/-- A broken stile entry at the boundary: a spare takes its place, or none is left and the node faults (R300, row 15 of
Table FS-1). -/
def State.remapStile (s : State) (i : Nat) : State :=
  if s.stiles.sparesUsed < stileSpares then
    let s1 := s.setStile i (remapped (s.stile i))
    let s2 := { s1 with stiles := { s1.stiles with sparesUsed := s1.stiles.sparesUsed + 1 } }
    let s3 := s2.raiseNamed .stileEntry [i]
    let s4 := { s3 with faults := { s3.faults with mapped := s3.faults.mapped ++ [(4, 16384 + s.stiles.sparesUsed, i)] } }
    s4.raise .spareMapped 0 4 (16384 + s.stiles.sparesUsed) i
  else s.faultHold 0x0A i 15 i

/-- Every broken entry at a boundary. -/
def State.remapStiles (s : State) : State :=
  let s1 := s.stiles.broken.foldl State.remapStile s
  { s1 with stiles := { s1.stiles with broken := [] } }

/-! ### Commands -/

/-- QUARANTINE_END (R282): a stile whose quarantine has lasted its boundaries is FREE; GEN stays. -/
def execQuarantineEnd (stile : Nat) (s : State) : Host.Outcome State Fault Refusal :=
  let t := s.stile stile
  .next (if t.state = .quarantine && decide (t.quarEnd ≤ s.tick.count) then s.setStile stile { t with state := .free } else s)

/-- STILE_READ (R279): an aligned 8-byte read of +0x00 gives the state word; every other read gives 0. A function other
than 0 sees only its own stiles (Table MP-13). -/
def execStileRead (fn off size stile : Nat) (s : State) : Host.Outcome State Fault Refusal :=
  let t := s.stile stile
  let seen := fn = 0 || (t.owner = fn && (t.state = .planned || t.state = .function))
  .next { s with regs := { s.regs with readData := if off = 0 && size = 8 && seen then t.stateWord else 0 } }

/-- STILE_ECC_ERROR (R300): a single-bit error is corrected and counted; after a double-bit error the next boundary remaps
the stile. -/
def execStileEccError (stile : Nat) (double : Bool) (s : State) : Host.Outcome State Fault Refusal :=
  .next (if !double then s.bumpStile 7
    else if s.stiles.broken.contains stile then s
    else { s with stiles := { s.stiles with broken := s.stiles.broken ++ [stile] } })

end Sys2Proof.Machine
end

