-- ==== Sys2Proof/Machine/Txn.lean ====
section
/-! DEFINITION. Configuration transactions: item codes and records, the checks of COMMIT, applying an item at its boundary,
and BEGIN, SET, COMMIT and ROLLBACK (14 R382–R387, 19 R479–R480, and the item rules of the chapters that own them). -/

namespace Sys2Proof.Machine

/-! ### Item records (Tables HI-18 and MP-15) -/

/-- An item record with the host data that it names, as read at COMMIT. -/
abbrev TxnItem := ItemRec × List Byte

/-- The item record that 32 bytes hold. -/
def itemOf (b : List Byte) : ItemRec :=
  let w := wordAt b 0
  { block := field w 56 8, func := w.testBit 55, number := field w 48 7, reserved := field w 32 16, index := field w 0 32
    v0 := BitVec.ofNat 64 (wordAt b 8), v1 := BitVec.ofNat 64 (wordAt b 16), v2 := BitVec.ofNat 64 (wordAt b 24) }

/-- What Table MP-15 gives an item: the bits that its three values may use, and the largest INDEX. -/
structure ItemForm where
  m0 : Nat
  m1 : Nat
  m2 : Nat
  top : Nat
  deriving DecidableEq, Repr

/-- A form by numbers of bits. -/
def formBits (a b c top : Nat) : Option ItemForm := some { m0 := 2 ^ a - 1, m1 := 2 ^ b - 1, m2 := 2 ^ c - 1, top := top }

/-- The item codes of Table MP-15 by block and number. -/
def itemForm (block number : Nat) : Option ItemForm :=
  match block, number with
  | 1, 0x00 => formBits 1 0 0 0
  | 1, 0x01 => formBits 64 32 17 4095
  | 1, 0x02 => formBits 64 5 64 0
  | 1, 0x03 => some { m0 := 2 ^ 64 - 1, m1 := 0xFF3F3F, m2 := 2 ^ 17 - 1, top := 0 }
  | 1, 0x40 => formBits 1 0 0 255
  | 2, 0x00 => formBits 1 0 0 0
  | 2, 0x01 => formBits 2 0 0 0
  | 2, 0x02 => formBits 16 0 0 0
  | 2, 0x03 => formBits 32 0 0 0
  | 2, 0x04 => formBits 32 0 0 0
  | 2, 0x05 => formBits 7 0 0 0
  | 2, 0x06 => formBits 64 0 0 0
  | 2, 0x07 => formBits 8 0 0 0
  | 2, 0x08 => formBits 8 0 0 0
  | 2, 0x09 => formBits 64 64 0 0
  | 2, 0x0A => formBits 7 0 0 0
  | 2, 0x0B => formBits 12 0 0 0
  | 2, 0x0C => formBits 7 0 0 0
  | 3, 0x00 => formBits 6 0 0 7
  | 3, 0x01 => formBits 5 0 0 0
  | 4, 0x00 => formBits 5 0 0 0
  | 4, 0x01 => formBits 5 0 0 0
  | 4, 0x02 => formBits 11 0 0 0
  | 4, 0x03 => formBits 5 0 0 0
  | 4, 0x04 => formBits 5 0 0 0
  | 5, 0x00 => formBits 32 64 64 7
  | 5, 0x01 => formBits 12 0 0 0
  | 5, 0x02 => formBits 24 0 0 0
  | 5, 0x03 => formBits 6 0 0 0
  | 5, 0x04 => formBits 14 0 0 0
  | 5, 0x05 => formBits 7 0 0 0
  | 5, 0x06 => formBits 16 0 0 0
  | 5, 0x07 => formBits 9 0 0 0
  | 5, 0x08 => formBits 10 0 0 0
  | 5, 0x09 => formBits 4 0 0 0
  | 5, 0x0A => formBits 14 0 0 0
  | 5, 0x0B => formBits 13 0 0 0
  | 5, 0x0C => formBits 64 21 0 0
  | 5, 0x0D => formBits 64 64 34 0xFFFFFFFF
  | 5, 0x0E => formBits 7 64 0 1023
  | 5, 0x0F => formBits 0 0 0 7
  | 5, 0x10 => formBits 19 0 0 5
  | 5, 0x11 => formBits 10 0 0 5
  | 5, 0x12 => formBits 21 0 0 5
  | 5, 0x13 => formBits 13 0 0 4095
  | 5, 0x14 => formBits 23 0 0 4095
  | 5, 0x15 => formBits 48 0 0 0xFFFFFFFF
  | 5, 0x40 => formBits 64 64 14 63
  | 5, 0x41 => formBits 0 0 0 63
  | 6, 0x40 => formBits 24 0 0 0xFFFFFFFF
  | 6, 0x41 => formBits 0 0 0 0xFFFFFFFF
  | 7, 0x40 => formBits 0 0 0 65535
  | 7, 0x41 => formBits 0 0 0 65535
  | 7, 0x42 => formBits 2 0 0 65535
  | 7, 0x43 => formBits 13 0 0 65535
  | 7, 0x44 => formBits 8 0 0 65535
  | 7, 0x45 => formBits 2 0 0 65535
  | 7, 0x46 => formBits 8 0 0 65535
  | 7, 0x47 => formBits 7 0 0 65535
  | 7, 0x48 => formBits 13 0 0 65535
  | 7, 0x49 => formBits 11 0 0 65535
  | 7, 0x4A => formBits 64 0 0 65535
  | 7, 0x4B => formBits 64 0 0 65535
  | 7, 0x4C => formBits 11 0 0 65535
  | 7, 0x4D => formBits 6 0 0 65535
  | 7, 0x4E => formBits 6 0 0 65535
  | 8, 0x40 => formBits 0 0 0 65535
  | 8, 0x41 => formBits 0 0 0 65535
  | 8, 0x42 => formBits 1 0 0 65535
  | 8, 0x43 => formBits 33 0 0 65535
  | 8, 0x44 => formBits 18 0 0 65535
  | 8, 0x45 => formBits 8 0 0 65535
  | 8, 0x46 => formBits 2 0 0 65535
  | 8, 0x47 => formBits 1 0 0 65535
  | 8, 0x48 => formBits 7 0 0 65535
  | 8, 0x49 => formBits 64 0 0 65535
  | 8, 0x4A => formBits 64 0 0 65535
  | 8, 0x4B => formBits 7 0 0 65535
  | 8, 0x4C => formBits 21 0 0 65535
  | 8, 0x4D => formBits 17 0 0 65535
  | 8, 0x4E => formBits 17 0 0 65535
  | 8, 0x4F => formBits 12 0 0 65535
  | 8, 0x50 => formBits 8 0 0 65535
  | 9, 0x00 => formBits 7 0 0 0
  | _, _ => none

/-- The form of a record; none for an unknown item (R479). -/
def formOf (r : ItemRec) : Option ItemForm :=
  if r.func != decide (0x40 ≤ r.number) || r.reserved ≠ 0 then none else itemForm r.block r.number

/-- Whether only named bits are set, and INDEX names an instance that the item has. -/
def bitsOk (f : ItemForm) (r : ItemRec) : Bool :=
  (r.v0.toNat &&& f.m0) == r.v0.toNat && (r.v1.toNat &&& f.m1) == r.v1.toNat && (r.v2.toNat &&& f.m2) == r.v2.toNat &&
    decide (r.index ≤ f.top)

/-- A record of some items by block, number and index. -/
def itemIn (all : List TxnItem) (block number index : Nat) : Option TxnItem :=
  all.find? fun t => t.1.block == block && t.1.number == number && t.1.index == index

/-- VALUE0 of a record of some items, or a default. -/
def valIn (all : List TxnItem) (block number index default : Nat) : Nat :=
  match itemIn all block number index with | some t => t.1.v0.toNat | none => default

/-- Data bytes of a record of some items. -/
def dataIn (all : List TxnItem) (block number index : Nat) : List Byte :=
  match itemIn all block number index with | some t => t.2 | none => []

/-- Bytes of host memory that a record names: its address and length (FB_MCAST, IX_CELLMAP, TB_NODES, TB_RANGES). -/
def dataSpan (all : List ItemRec) (r : ItemRec) : Nat × Nat :=
  let v (block number default : Nat) : Nat := valIn (all.map fun x => (x, [])) block number r.index default
  match r.block, r.number with
  | 5, 0x0E => (r.v1.toNat, 4 * r.v0.toNat)
  | 7, 0x4A => (r.v0.toNat, 2 * v 7 0x48 4096)
  | 8, 0x49 => (r.v0.toNat, 8 * v 8 0x48 1)
  | 8, 0x4A => (r.v0.toNat, 8 * (v 8 0x48 1 + 1))
  | _, _ => (0, 0)

/-! ### Ranges (the item tables of the chapters) -/

/-- Whether a number lies in a range and is a multiple of a step. -/
def inRange (lo hi step v : Nat) : Bool := decide (lo ≤ v) && decide (v ≤ hi) && v % step == 0

/-- One attribute field descriptor (R191). -/
def attrOk (d : Nat) : Bool := field d 5 3 == 0 && field d 0 5 ≤ 27 && (!d.testBit 15 || field d 8 6 + field d 0 5 + 1 ≤ 64)

/-- The range of a record's values (Tables HI-19, OB-11, TK-11, FS-6, WA-11, FL-13, FB-10, EG-7, VS-1, TU-1 and
R437). `now` is the tick of validation, `all` the transaction, `s` the state before it. -/
def valuesOk (s : State) (now : Nat) (all : List TxnItem) (t : TxnItem) : Bool :=
  let r := t.1
  let a := r.v0.toNat
  let b := r.v1.toNat
  let c := r.v2.toNat
  match r.block, r.number with
  | 1, 0x01 => a % 64 == 0 && (a == 0 || (decide (16384 ≤ b) && inRange 1 65536 1 c))
  | 1, 0x02 => a % 4096 == 0 && (a == 0 || (inRange 12 24 1 b && c % 64 == 0))
  | 1, 0x03 => decide (field b 0 6 ≤ field b 8 6) && inRange 1 65536 1 c
  | 2, 0x02 => a % 8 == 0
  | 2, 0x05 => inRange 5 80 1 a
  | 2, 0x06 => decide (now + 64 ≤ a)
  | 2, 0x07 => decide (a ≤ 200)
  | 2, 0x0A => inRange 10 100 1 a
  | 2, 0x0B => inRange 10 3600 1 a
  | 2, 0x0C => inRange 1 100 1 a
  | 3, 0x00 => inRange 40 55 1 a
  | 3, 0x01 => inRange 1 16 1 a
  | 4, 0x00 => inRange 1 30 1 a
  | 4, 0x01 => inRange 1 (valIn all 4 0 0 (s.cfg 4 0 0)) 1 a
  | 4, 0x02 => inRange 50 2000 1 a
  | 4, 0x03 => inRange 1 16 1 a
  | 4, 0x04 => inRange 1 16 1 a
  | 5, 0x01 => inRange 1 4094 1 a
  | 5, 0x04 => inRange 100 10000 1 a
  | 5, 0x06 => inRange 1024 65535 1 a && a != 4791
  | 5, 0x07 => inRange 10 500 1 a
  | 5, 0x08 => inRange 5 1000 1 a
  | 5, 0x09 => inRange 1 15 1 a
  | 5, 0x0A => inRange 100 10000 1 a
  | 5, 0x0B => inRange 1024 7680 1 a
  | 5, 0x0C => a % 4096 == 0 && decide (b ≤ 2 ^ 20)
  | 5, 0x0D =>
    let mode := field c 29 2
    decide (r.index < s.fabric.residents) && mode != 3 && (mode == 0 || (field c 21 8 != 0 && decide (2 ≤ field c 31 3)))
  | 5, 0x0E => decide (a ≤ 64)
  | 5, 0x10 => inRange 4352 262144 64 a
  | 5, 0x11 => decide (a ≤ 800)
  | 5, 0x12 => inRange 4352 1048576 64 a
  | 5, 0x13 => decide (a ≤ 6400)
  | 5, 0x14 => inRange 16384 4194304 64 a
  | 7, 0x42 => decide (a ≤ 2)
  | 7, 0x43 => inRange 256 4096 64 a
  | 7, 0x44 => inRange 3 6 1 a
  | 7, 0x45 => inRange 1 2 1 a
  | 7, 0x46 => a == 3 || a == 5
  | 7, 0x47 => inRange 16 64 8 a
  | 7, 0x48 => inRange 1 4096 1 a
  | 7, 0x49 => inRange 1 1024 1 a
  | 7, 0x4A => a % 64 == 0 && (List.range (t.2.length / 2)).all fun i => natAt t.2 (2 * i) 2 < 256
  | 7, 0x4B => (List.range 4).all fun i => attrOk (field a (16 * i) 16)
  | 7, 0x4C => inRange 128 1024 128 a
  | 7, 0x4E => inRange 1 50 1 a
  | 8, 0x43 => inRange 1 (2 ^ 32) 1 a
  | 8, 0x44 => inRange 1 131072 1 a
  | 8, 0x45 => inRange 1 7 1 a
  | 8, 0x46 => inRange 1 2 1 a
  | 8, 0x48 => inRange 1 64 1 a
  | 8, 0x49 => a % 64 == 0
  | 8, 0x4A => a % 64 == 0
  | 8, 0x4B => decide (a ≤ 63) || a == 0x7F
  | 8, 0x4C => inRange 256 1048576 1 a
  | 8, 0x4D => inRange 1 65536 1 a
  | 8, 0x4E => inRange 1 65536 1 a
  | 8, 0x4F => inRange 64 2048 64 a
  | 8, 0x50 => a == 3 || a == 5
  | 9, 0x00 => inRange 85 110 1 a
  | _, _ => true

/-! ### The objects that a transaction defines -/

/-- The index that a transaction defines (R177, Table VS-1). -/
def indexOf (f o : Nat) (q : Word64) (all : List TxnItem) : Index :=
  let v (n default : Nat) : Nat := valIn all 7 n o default
  { fn := f, obj := o, metric := v 0x42 0, dims := v 0x43 1024, vfmt := v 0x44 3, scale := v 0x45 1, cfmt := v 0x46 3
    code := v 0x47 32, cells1 := v 0x48 4096, cells2 := v 0x49 256, cellmap := dataIn all 7 0x4A o
    attr := BitVec.ofNat 64 (v 0x4B 0), delta := v 0x4C 128, shard := v 0x4D 0, deadWarn := v 0x4E 10, digest := none
    cents := [], books := [], cellBase := [], kills := [], adds := [], shareTold := none, txnSeq := q, dropped := false }

/-- The table that a transaction defines (R224, Table TU-1). -/
def tableOf (f o : Nat) (q : Word64) (all : List TxnItem) : TableDef :=
  let v (n default : Nat) : Nat := valIn all 8 n o default
  let nodes := dataIn all 8 0x49 o
  let bounds := dataIn all 8 0x4A o
  let owners := v 0x48 1
  { fn := f, obj := o, pkey := v 0x42 0 == 1, rows := v 0x43 0, elems := v 0x44 0, fmt := v 0x45 0, scale := v 0x46 1
    range := v 0x47 0 == 1, owners := owners
    nodes := (List.range owners).map fun i => (natAt nodes (8 * i) 4, natAt nodes (8 * i + 4) 4)
    bounds := if v 0x47 0 = 1 then (List.range (owners + 1)).map fun i => natAt bounds (8 * i) 8 else []
    self := if v 0x4B 0x7F = 0x7F then none else some (v 0x4B 0x7F), history := v 0x4C 4096, keys1 := v 0x4D 0
    keys2 := v 0x4E 0, dims := v 0x4F 256, kfmt := v 0x50 3, base := [], deadBase := [], gen := 0, gens := [], pass := none
    hist := [], subkeys := [], drops := List.replicate 4 0, txnSeq := q, dropped := false }

/-- Whether an object number is taken by a live index or table of a function. -/
def State.objUsed (s : State) (f o : Nat) : Bool := (s.liveIndex f o).isSome || (s.liveTable f o).isSome

/-- An object that has been dropped gives up what it still holds: T1 space, flash segments, locators of log records
(R25, R177, R224). -/
def State.releaseObject (s : State) (f o : Nat) : State :=
  let mine := s.flash.segs.filter fun g => g.fn == f && g.obj == o
  let s1 := mine.foldl (fun s g => (s.dropWords (s.segPlaces g)).jot 5 [g.map]) s
  let log := s1.flash.log.map fun e =>
    match e.vec with
    | some v => if v.1 == f && v.2.1 == o then { e with vec := none } else e
    | none => e
  let s2 := { s1 with flash := { s1.flash with
    segs := s1.flash.segs.filter fun g => !(g.fn == f && g.obj == o), log := log
    lost := s1.flash.lost.filter fun l => !(l.fn == f && l.obj == o) } }
  let s3 := s2.dropPlaces f o
  { s3 with
    search := { s3.search with indexes := s3.search.indexes.filter fun x => !(x.fn == f && x.obj == o) }
    tables := { s3.tables with defs := s3.tables.defs.filter fun x => !(x.fn == f && x.obj == o) } }

/-! ### RMA regions (R311, R312) -/

/-- The entry of a function's slot in the region table. -/
def State.rmaSlot (s : State) (f slot : Nat) : Option Rma :=
  s.fabric.rma.find? fun r => r.state == .used && r.fn == f && r.slot == slot

/-- Whether an entry may be allocated: free, or at the end of its quarantine. -/
def State.rmaFree (s : State) (e : Nat) : Bool :=
  match s.fabric.rma.find? fun r => r.entry == e with
  | some r => r.state == .free || (r.state == .quarantine && decide (r.quarEnd ≤ s.tick.count))
  | none => true

/-- The lowest entry that may be allocated (assumption 12). -/
def State.rmaEntry (s : State) : Option Nat := (List.range 16384).find? s.rmaFree

/-- The key of an entry (Table FB-4). -/
def rmaKey (r : Rma) : Word64 := word [(18, 14, r.entry), (10, 8, r.gen), (0, 10, r.tag)]

/-- Fields of an FB_RMA_REGION record: base, length, whether STILE, rights, tag. -/
def rmaBase (r : ItemRec) : Nat := r.v0.toNat
def rmaLen (r : ItemRec) : Nat := r.v1.toNat
def rmaStile (r : ItemRec) : Bool := r.v2.toNat.testBit 10
def rmaRights (r : ItemRec) : Nat := field r.v2.toNat 11 3
def rmaTag (r : ItemRec) : Nat := field r.v2.toNat 0 10

/-- The rules of R311 that concern a region alone: multiples of 64 bytes, a length, rights, and where it may lie. -/
def State.rmaRange (s : State) (f : Nat) (r : ItemRec) : Bool :=
  let a := rmaBase r
  let n := rmaLen r
  a % 64 == 0 && n % 64 == 0 && decide (64 ≤ n) &&
    (if rmaStile r then
      rmaRights r == 2 && (match regionOf a with
        | .stile i _ => (List.range (n / 64)).all fun k => s.stileInRange f (i + k)
        | _ => false)
    else
      rmaRights r != 0 && (match regionOf a with
        | .t1 x => channelOf x == channelOf (x + n - 1) && decide (grantBase ≤ chanOff x) &&
            decide (chanOff x + n ≤ grantTop)
        | _ => false))

/-- Whether a MEMORY region overlaps a region in use of its channel. -/
def State.rmaOverlaps (s : State) (r : ItemRec) : Bool :=
  let o := chanOff (rmaBase r)
  !rmaStile r && (s.inUse (channelOf (rmaBase r))).any fun u => decide (o < u.1 + u.2) && decide (u.1 < o + rmaLen r)

/-- Whether a region would pass the bounds of R311: 64 to a function, 16,384 to the node, the function's grant. -/
def State.rmaQuota (s : State) (f : Nat) (r : ItemRec) : Bool :=
  let used := s.fabric.rma.filter fun x => x.state == .used
  decide (64 ≤ (used.filter fun x => x.fn == f).length) || s.rmaEntry.isNone ||
    (!rmaStile r && decide (s.grant f < s.held f (channelOf (rmaBase r)) + rmaLen r))

/-- The object number under which a region's bytes stand in the list of T1 regions in use. -/
def rmaObject (slot : Nat) : Nat := 65536 + slot

/-- FB_RMA_REGION takes effect: the lowest free entry, with the next GEN. -/
def State.rmaAlloc (s : State) (f : Nat) (r : ItemRec) : State :=
  match s.rmaEntry with
  | none => s
  | some e =>
    let gen := match s.fabric.rma.find? fun x => x.entry == e with | some x => (x.gen + 1) % 256 | none => 1
    let x : Rma :=
      { entry := e, state := .used, fn := f, slot := r.index, base := rmaBase r, len := rmaLen r, stile := rmaStile r
        rights := rmaRights r, tag := rmaTag r, gen := gen, quarEnd := 0 }
    let s1 := { s with fabric := { s.fabric with rma := putBy Rma.entry x s.fabric.rma } }
    if rmaStile r then s1
    else { s1 with tiers := { s1.tiers with allocs := s1.tiers.allocs ++
        [(channelOf (rmaBase r), chanOff (rmaBase r), rmaLen r, f, rmaObject r.index)] } }

/-- FB_RMA_FREE takes effect: the entry enters quarantine. -/
def State.rmaDrop (s : State) (f slot : Nat) : State :=
  match s.rmaSlot f slot with
  | none => s
  | some x =>
    let y := { x with state := .quarantine, quarEnd := s.tick.count + BitVec.ofNat 64 s.quarTicks }
    ({ s with fabric := { s.fabric with rma := putBy Rma.entry y s.fabric.rma } }).dropPlaces f (rmaObject slot)

/-! ### Applying an item at its boundary (R386) -/

/-- Put an item in force. -/
def State.putItem (s : State) (i : Item) : State :=
  let keep := s.items.filter fun x => !(x.fn == i.fn && x.block == i.block && x.number == i.number && x.index == i.index)
  { s with items := keep ++ [i] }

/-- Items of an object leave with it. -/
def State.dropItems (s : State) (f block index : Nat) : State :=
  { s with items := s.items.filter fun x => !(x.fn == f && x.block == block && x.index == index && decide (0x40 ≤ x.number)) }

/-- The counts of a function start again, with IMAGE_SEQ 1 (Table OB-11). -/
def State.restartCounts (s : State) (f : Nat) : State :=
  let o := s.obs
  let defs := s.tables.defs.map fun t => if t.fn = f then { t with drops := List.replicate 4 0 } else t
  { s with
    obs := { o with
      classes := o.classes.filter fun c => c.fn != f
      totals := if f = 0 then List.replicate 21 0 else o.totals
      images := (o.images.filter fun i => i.1 != f) ++ [(f, s.tick.count, 0)] }
    tables := { s.tables with defs := defs } }

/-- A system connection that an FB_SYSCONN configures, with its FB_SYSCONN_MAC; it opens at this boundary (R330). -/
def State.sysConn (s : State) (all : List TxnItem) (r : ItemRec) : State :=
  let c := r.v2.toNat
  let mode := field c 29 2
  if mode = 0 then s.mapConn r.index fun c => { c with state := .closing }
  else
    let psn := s.freshWord.toNat % 2 ^ 24
    let kind : ConnKind := if mode = 1 then .ordered else .relaxed
    let x := { connBase r.index 0 (field c 31 3) (field c 21 8) kind true with
      peerHi := r.v0, peerLo := r.v1, peerMac := valIn all 5 0x15 r.index 0, peerConn := field c 0 21, nextPsn := psn
      cgen := s.nextCgen r.index }
    let gone := s.fabric.released.filter fun g => g.1 != r.index
    let s1 := (s.tookFresh).dropConn r.index
    { s1 with fabric := { s1.fabric with released := gone } }.setConn x

/-- The members of a multicast group, from the bytes that FB_MCAST names. -/
def mcastMembers (n : Nat) (b : List Byte) : List Nat := (List.range n).map fun i => natAt b (4 * i) 4

/-- A port retrains at 800 Gb/s (R306). -/
def State.portRestore (s : State) (p : Nat) : State :=
  let s1 := if (s.port p).up then s.portDown p else s
  (s1.setPort p { s1.port p with degraded := false, failed := 0, half := 0 }).raisePort .laneRestored p 0 0

/-- What an item does beside being in force. `q` is the SEQ of the transaction's COMMIT and `all` its items. -/
def State.itemEffect (s : State) (f : Nat) (q : Word64) (all : List TxnItem) (t : TxnItem) : State :=
  let r := t.1
  let o := r.index
  match r.block, r.number with
  | 1, 0x00 => { s with power := { s.power with fallowAsked := r.v0 == 1 } }
  | 1, 0x01 => s.restartCounts o
  | 1, 0x02 => { s with obs := { s.obs with trace := { s.obs.trace with written := 0, sinceStatus := 0 } } }
  | 2, 0x05 =>
    let at_ := BitVec.ofNat 64 (valIn all 2 6 0 0)
    { s with tick := { s.tick with lenSched := some (r.v0.toNat, at_) } }
  | 2, 0x09 => { s with plan := { s.plan with swap := some (r.v0, r.v1) } }
  | 5, 0x06 =>
    let ns := (s.fabric.conns.filter fun c => (c.kind == .ordered || c.kind == .relaxed) &&
      (c.state == .open_ || c.state == .connecting)).map (·.num)
    ns.foldl State.connect s
  | 5, 0x0D => s.sysConn all r
  | 5, 0x0E =>
    let gone := s.fabric.mcast.filter fun g => g.1 != o
    let now_ := if r.v0 = 0 then gone else gone ++ [(o, mcastMembers r.v0.toNat t.2)]
    { s with fabric := { s.fabric with mcast := now_ } }
  | 5, 0x0F => s.portRestore o
  | 5, 0x15 => if (itemIn all 5 0x0D o).isSome then s else s.mapConn o fun c => { c with peerMac := r.v0.toNat }
  | 5, 0x40 => s.rmaAlloc f r
  | 5, 0x41 => (s.rmaDrop f o).dropItems f 5 o
  | 6, 0x40 => s.allocStile f o r.v0.toNat
  | 6, 0x41 => s.freeStile f o
  | 7, 0x40 => (s.releaseObject f o).createIndex (indexOf f o q all)
  | 7, 0x41 =>
    match s.index f o with
    | some x => (s.setIndex { x with dropped := true }).dropItems f 7 o
    | none => s
  | 7, 0x4E =>
    match s.index f o with
    | some x => s.setIndex { x with deadWarn := r.v0.toNat }
    | none => s
  | 8, 0x40 => (s.releaseObject f o).createTable (tableOf f o q all)
  | 8, 0x41 =>
    match s.tableDef f o with
    | some x => (s.setTable { x with dropped := true }).dropItems f 8 o
    | none => s
  | _, _ => s

/-- A policer keeps its old rate and burst until the first refill at or after the end of the boundary phase (R342). -/
def State.holdPolicer (s : State) (t : TxnItem) : State :=
  if t.1.block = 5 && (t.1.number = 0x13 || t.1.number = 0x14) then
    let f := t.1.index
    let old := s.policeRate f
    let s1 := s.setPolicer (s.policer f)
    { s1 with egress := { s1.egress with rates := (s1.egress.rates.filter fun r => r.1 != f) ++ [(f, old)] } }
  else s

/-- One item applies: it is in force from this boundary on, and does what it does. -/
def State.applyRec (s : State) (f : Nat) (q : Word64) (all : List TxnItem) (t : TxnItem) : State :=
  let r := t.1
  let s1 := (s.holdPolicer t).putItem
    { fn := if r.func then f else 0, block := r.block, number := r.number, index := r.index, v0 := r.v0, v1 := r.v1
      v2 := r.v2, tick := s.tick.count }
  s1.itemEffect f q all t

/-- The items of a COMMIT with their data. -/
def Commit.all (c : Commit) : List TxnItem := c.items.zip c.data

/-- Every item of a COMMIT applies, in record order; the item words of R387 come with it. -/
def State.applyCommitItems (s : State) (c : Commit) : State × List Word64 :=
  c.all.foldl (fun st t =>
    let s1 := st.1.applyRec c.fn c.seq c.all t
    let key := if t.1.block = 5 && t.1.number = 0x40 then
        match s1.rmaSlot c.fn t.1.index with | some x => rmaKey x | none => 0
      else 0
    (s1, st.2 ++ [key])) (s, [])

/-- The result block of a COMMIT (R387); a rejected one has no item words. -/
def resultBlock (q tick : Word64) (count fail reason : Nat) (keys : List Word64) : List Byte :=
  wordsBytes ([q, tick, word [(32, 16, count), (16, 16, fail), (8, 8, reason)], 0, 0, 0, 0, 0] ++ keys)

/-- A COMMIT takes effect at its boundary, and its completion stands ready (R386, R387). A COMMIT whose work an FLR has
ended still applies; its completion is kept for a resume (R374, R375). -/
def State.applyCommit (s : State) (c : Commit) : State :=
  let (s1, keys) := s.applyCommitItems c
  let bufs := if c.result = 0 then [] else [(c.result, resultBlock c.seq c.apply c.items.length 0xFFFF 0 keys)]
  let comp : Comp := { status := stOk, flags := 0, result := c.apply }
  match s1.workAt c.fn c.ring c.seq with
  | some _ => s1.finish c.fn c.ring c.seq comp bufs
  | none =>
    let w : Work :=
      { fn := c.fn, ring := c.ring, idx := 0, seq := c.seq, opcode := 3, cls := 0, words := [], admitTick := 0, late := false
        started := true, done := some comp, bufs := bufs, scanned := 0, readFails := 0, slots := 0, carried := false }
    { s1.markAdmin c.fn c.seq with host := { (s1.markAdmin c.fn c.seq).host with past := s1.host.past ++ [w] } }

/-- Step 1 of R44: the COMMITs that are due apply, in the order in which they were validated. -/
def State.applyCommits (s : State) : State :=
  let due := s.host.commits.filter fun c => decide (c.apply ≤ s.tick.count)
  let s1 := due.foldl State.applyCommit s
  { s1 with host := { s1.host with commits := s.host.commits.filter fun c => !decide (c.apply ≤ s.tick.count) } }

/-! ### The checks of COMMIT (R386) -/

/-- The state that a COMMIT is checked against: after every validated COMMIT that has not been applied. -/
def State.afterCommits (s : State) (apply : Word64) : State :=
  let s1 := s.host.commits.foldl (fun s c =>
    ({ s with tick := { s.tick with count := c.apply } }.applyCommitItems c).1) s
  { s1 with tick := { s1.tick with count := apply } }

/-- Whether two records set one instance, and whether they name one stile (R283, R386). -/
def sameInstance (a b : ItemRec) : Bool :=
  a.block == b.block && a.index == b.index && (a.number == b.number || a.block == 6)

/-- Whether a record of a function sets an instance that a validated COMMIT still waits to set. -/
def State.itemPending (s : State) (f : Nat) (r : ItemRec) : Bool :=
  s.host.commits.any fun c => c.items.any fun x =>
    x.block == r.block && x.number == r.number && x.index == r.index && (!r.func || c.fn == f)

/-- The tick length that will be in force at a tick, with a change that the transaction makes. -/
def lenAt (s : State) (all : List TxnItem) (tick : Nat) : Nat :=
  let sched := match itemIn all 2 5 0 with
    | some t => some (t.1.v0.toNat, valIn all 2 6 0 0)
    | none => s.tick.lenSched.map fun x => (x.1, x.2.toNat)
  match sched with
  | some (len, at_) => if at_ ≤ tick then len else s.tick.lenCur
  | none => s.tick.lenCur

/-- The staged image that a PLAN_SWAP names: validated, with that digest. -/
def State.stagedImage (s : State) (digest : Nat) : Option (List Byte) :=
  match s.plan.staging with
  | some p => if p.valid && imgDigest0 p.image == digest then some p.image else none
  | none => none

/-- Every function and class that must find carry slots in a new plan (R52). -/
def State.needCarry (s : State) : List (Nat × Nat) :=
  (((slotRecs s.plan0).filter fun r => decide (0 < r.slots)).map fun r => (r.fn, r.cls)) ++
    ((s.host.work.filter fun w => w.done.isNone && classHasSlots w.cls).map fun w => (w.fn, w.cls)) ++
    (s.search.shard.filterMap fun j => if j.ask.fn < 4096 && !j.own then some (j.ask.fn, j.ask.cls) else none)

/-- The stiles of a new image at the swap boundary (R284): whether one is neither free nor planned for the same
function. -/
def State.stilesBar (s : State) (img : List Byte) (tick : Nat) : Bool :=
  (allocRecs img).any fun r =>
    let t := s.stile r.stile
    match t.state with
    | .free => false
    | .planned => t.owner != r.fn
    | .quarantine => decide (tick < t.quarEnd.toNat)
    | .function => true

/-- The rules of a PLAN_SWAP (R50–R52, R173, R284). `s` is the state as it is, `h` as it will stand. -/
def swapFault (s h : State) (all : List TxnItem) (r : ItemRec) : Option Nat :=
  match h.stagedImage r.v0.toNat with
  | none => some 4
  | some img =>
    if h.plan.swap.isSome || h.plan.validating.isSome then some 4
    else if r.v1.toNat < s.tick.count.toNat + 64 then some 2
    else if imgTickLen img ≠ lenAt h all r.v1.toNat then some 7
    else if s.needCarry.any fun k => (slotRecOf img k.1 k.2).carry == 0 then some 7
    else if h.stilesBar img r.v1.toNat then some 4
    else if h.overCapacity img then some 5
    else none

/-- The rules of an FB_SYSCONN and its FB_SYSCONN_MAC (R330, R480). -/
def sysConnFault (h : State) (all : List TxnItem) (r : ItemRec) : Option Nat :=
  if r.number = 0x15 then
    match itemIn all 5 0x0D r.index, h.conn r.index with
    | some _, _ => none
    | none, some c => if c.sys then none else some 4
    | none, none => some 4
  else if field r.v2.toNat 29 2 = 0 then
    match h.conn r.index with
    | some c => if c.sys then none else some 4
    | none => some 4
  else if (itemIn all 5 0x15 r.index).isNone then some 7
  else
    match h.conn r.index with
    | some c => if c.sys then none else some 4
    | none => if h.fabric.released.any fun g => g.1 == r.index then some 4 else none

/-- The rules of an IX_OBJECT record (R177, R178). `h` is the state before the transaction, `n` after its earlier
records. -/
def indexFault (sound : Bool) (h n : State) (f : Nat) (all : List TxnItem) (o : Nat) : Option Nat :=
  let x := indexOf f o 0 all
  if h.objUsed f o || n.objUsed f o then some 4
  else if (itemIn all 7 0x42 o).isNone || (itemIn all 7 0x4A o).isNone || (itemIn all 7 0x4D o).isNone then some 7
  else if !sound then none
  else if (List.range 256).any fun ch => decide (n.grant f < n.held f ch + footprint x ch) then some 5
  else
    match ((n.releaseObject f o).placeIndex x).index f o with
    | some y => if y.cellBase.contains 0 then some 5 else none
    | none => some 5

/-- The rules of R178 that a record of an index's definition breaks: the vector's bytes are IX_DIMS's, or IX_VFMT's where that
has its default, and the multiple is IX_DIMS's, or IX_CODE's. -/
def indexItemFault (f : Nat) (all : List TxnItem) (o k : Nat) : Option Nat :=
  let x := indexOf f o 0 all
  let w := rowBytes x.vfmt x.dims
  let dims := (itemIn all 7 0x43 o).isSome
  let long := decide (w < 512) || decide (4096 < w)
  match k with
  | 0x43 => if long || x.dims % x.code != 0 then some 2 else none
  | 0x44 => if long && !dims then some 2 else none
  | 0x47 => if x.dims % x.code != 0 && !dims then some 2 else none
  | _ => none

/-- The rules of a TB_OBJECT record (R224, R225). -/
def tableFault (sound : Bool) (h n : State) (f : Nat) (all : List TxnItem) (o : Nat) : Option Nat :=
  let t := tableOf f o 0 all
  let has (k : Nat) : Bool := (itemIn all 8 k o).isSome
  if h.objUsed f o || n.objUsed f o then some 4
  else if !has 0x43 || !has 0x44 || !has 0x45 || !has 0x49 || (t.range && !has 0x4A) ||
      (t.pkey && !(has 0x4D && has 0x4E)) then some 7
  else if !sound then none
  else if (List.range 256).any fun ch => decide (n.grant f < n.held f ch + regionBytes t ch) then some 5
  else
    match ((n.releaseObject f o).placeTable t).tableDef f o with
    | some y => if y.self.isSome && y.base.contains 0 then some 5 else none
    | none => some 5

/-- The rules of R225 that a record of a table's definition breaks. -/
def tableItemFault (h : State) (f : Nat) (all : List TxnItem) (o k : Nat) : Option Nat :=
  let t := tableOf f o 0 all
  let rec up : List Nat → Bool
    | a :: b :: r => decide (a ≤ b) && up (b :: r)
    | _ => true
  let bad : Bool := match k with
    | 0x43 => t.pkey && t.rows != t.keys1 * t.keys2
    | 0x44 => decide ((if tNested t then 65472 else 65536) < rowBytes t.fmt t.elems)
    | 0x46 => !scaledFmt t.fmt
    | 0x4A => t.range && (!up t.bounds || decide (t.rows < t.bounds.getLastD 0))
    | 0x4B =>
      match t.self with
      | some j => decide (t.owners ≤ j) ||
          (match t.nodes[j]? with | some p => p.1 != h.nodeId && p.2 != h.nodeId | none => true)
      | none => false
    | _ => false
  if bad then some 2 else none

/-- Whether the records of an object's definition hold values that a footprint can be reckoned from: each has its form and
range, and keeps the rules of its definition. -/
def definitionSound (h : State) (now f : Nat) (all : List TxnItem) (blk o : Nat) : Bool :=
  all.all fun t => t.1.block != blk || t.1.index != o || t.1.number == 0x40 ||
    ((match formOf t.1 with | some fm => bitsOk fm t.1 && valuesOk h now all t | none => false) &&
      (if blk = 7 then indexItemFault f all o t.1.number else tableItemFault h f all o t.1.number).isNone)

/-- The rules of the chapters for a record that is in range: the reason of the one that it breaks. `before` holds the
transaction's earlier records. -/
def chapterFault (s h n : State) (f : Nat) (all before : List TxnItem) (r : ItemRec) : Option Nat :=
  let o := r.index
  match r.block, r.number with
  | 2, 0x05 =>
    match itemIn all 2 6 0, itemIn all 2 9 0 with
    | some a, some p => if a.1.v0 = p.1.v1 && (match h.stagedImage p.1.v0.toNat with
        | some img => imgTickLen img == r.v0.toNat | none => true) then none else some 7
    | _, _ => some 7
  | 2, 0x06 => if (itemIn all 2 5 0).isSome then none else some 7
  | 2, 0x09 => swapFault s h all r
  | 5, 0x0D => sysConnFault h all r
  | 5, 0x15 => sysConnFault h all r
  | 5, 0x40 =>
    if !h.rmaRange f r then some 2
    else if (h.rmaSlot f o).isSome || n.rmaOverlaps r then some 4
    else if n.rmaQuota f r then some 5
    else none
  | 5, 0x41 => if (h.rmaSlot f o).isSome then none else some 4
  | 6, 0x40 => if !h.stileInRange f o then some 2 else if h.stileFree o then none else some 4
  | 6, 0x41 =>
    if !h.stileInRange f o then some 2
    else if (h.stile o).state = .function && (h.stile o).owner = f then none
    else some 4
  | 7, 0x40 => indexFault (definitionSound h s.tick.count.toNat f all 7 o) h n f all o
  | 7, 0x41 => if (h.liveIndex f o).isSome && (itemIn all 7 0x40 o).isNone then none else some 4
  | 7, k =>
    if (itemIn before 7 0x40 o).isSome then indexItemFault f all o k
    else if k = 0x4E && (h.liveIndex f o).isSome then none
    else some 4
  | 8, 0x40 => tableFault (definitionSound h s.tick.count.toNat f all 8 o) h n f all o
  | 8, 0x41 => if (h.liveTable f o).isSome && (itemIn all 8 0x40 o).isNone then none else some 4
  | 8, k => if (itemIn before 8 0x40 o).isSome then tableItemFault h f all o k else some 4
  | _, _ => none

/-- The reason (Table HI-20) of the first check that a record fails. -/
def itemFault (s h n : State) (f : Nat) (all before : List TxnItem) (t : TxnItem) : Option Nat :=
  match formOf t.1 with
  | none => some 1
  | some fm =>
    if !t.1.func && f ≠ 0 then some 3
    else if !bitsOk fm t.1 || !valuesOk h s.tick.count.toNat all t then some 2
    else
      match chapterFault s h n f all before t.1 with
      | some k => some k
      | none => if (before.any fun b => sameInstance b.1 t.1) || s.itemPending f t.1 then some 6 else none

/-- The first failing record of a transaction and its reason. -/
def firstFault (s h : State) (f : Nat) (all : List TxnItem) : State → List TxnItem → List TxnItem → Option (Nat × Nat)
  | _, _, [] => none
  | n, before, t :: rest =>
    match itemFault s h n f all before t with
    | some k => some (before.length, k)
    | none => firstFault s h f all (n.applyRec f 0 all t) (before ++ [t]) rest

/-! ### BEGIN, SET, COMMIT, ROLLBACK (R382, R383, R386) -/

/-- The open transaction of a function. -/
def State.txn (s : State) (f : Nat) : Option Txn := s.host.txns.find? fun t => t.fn == f
/-- The items that a function's open transaction holds. -/
def State.txnCount (s : State) (f : Nat) : Nat := match s.txn f with | some t => (t.sets.map (·.2)).sum | none => 0
/-- A function's transaction is no longer open. -/
def State.endTxn (s : State) (f : Nat) : State :=
  { s with host := { s.host with txns := s.host.txns.filter fun t => t.fn != f } }

/-- The form of a transaction descriptor (Table HI-17). -/
def txnForm (op : Nat) (d : Desc) : Bool :=
  let addr := d.w 2
  field (d.w 1) 9 39 == 0 && (op == 2 || field (d.w 1) 0 9 == 0) && field (d.w 1) 0 9 ≤ 255 &&
    (match op with | 2 => addr % 32 == 0 | 3 => addr % 64 == 0 | _ => addr == 0) &&
    zeros d [(3, 0, 64), (4, 0, 64), (5, 0, 64), (6, 0, 64), (7, 0, 64)]

/-- Form, and whether a transaction is open as the descriptor needs it. -/
def txnCheck (op : Nat) (s : State) (d : Desc) : Option Nat :=
  if !txnForm op d then some stBad
  else if (s.txn d.fn).isSome != (op != 1) then some stNotPermitted
  else none

/-- BEGIN (R382). -/
def beginBody (s : State) (d : Desc) : State :=
  let t : Txn := { fn := d.fn, beginSeq := d.seq, sets := [] }
  ({ s with host := { s.host with txns := s.host.txns ++ [t] } }).endWith d stOk

/-- SET (R383): ADDR and COUNT are recorded; one that would pass 4,096 items rolls the transaction back. -/
def setBody (s : State) (d : Desc) : State :=
  let n := field (d.w 1) 0 9 + 1
  if s.txnCount d.fn + n > 4096 then (s.endTxn d.fn).endWith d stRejected
  else
    let ts := s.host.txns.map fun t => if t.fn = d.fn then { t with sets := t.sets ++ [(d.w 2, n)] } else t
    ({ s with host := { s.host with txns := ts } }).endWith d stOk

/-- ROLLBACK (R383). -/
def rollbackBody (s : State) (d : Desc) : State := (s.endTxn d.fn).endWith d stOk

/-- The records of a transaction as they stand in host memory. -/
def State.txnRecords (s : State) (t : Txn) : List ItemRec :=
  t.sets.flatMap fun x => (List.range x.2).map fun i => itemOf (memReadBytes s.hostMem (x.1 + 32 * i) 32)

/-- The records with the host data that they name. -/
def State.txnItems (s : State) (t : Txn) : List TxnItem :=
  let rs := s.txnRecords t
  rs.map fun r => (r, memReadBytes s.hostMem (dataSpan rs r).1 (dataSpan rs r).2)

/-- A COMMIT is rejected whole (R386, R387), and its transaction is closed. -/
def State.rejectCommit (s : State) (d : Desc) (count fail reason : Nat) : State :=
  let addr := d.w 2
  let bufs := if addr = 0 then [] else [(addr, resultBlock d.seq 0 count fail reason [])]
  (s.endTxn d.fn).finish d.fn d.ring d.seq (compOf (if reason = 3 then stNotPermitted else stRejected)) bufs

/-- The boundary at which a COMMIT validated now applies (R44). -/
def State.applyTick (s : State) : Word64 := s.tick.count + (if s.tick.phase = .guard then 2 else 1)

/-- While the node is fallow only the wake is committed (R381). -/
def wakesOnly (all : List TxnItem) : Bool :=
  match all with
  | [t] => t.1.block == 1 && t.1.number == 0 && !t.1.func && t.1.v0 == 0
  | _ => false

/-- COMMIT (R386): the transaction is validated, and waits for its boundary, or is rejected. -/
def commitBody (s : State) (d : Desc) : State :=
  match s.txn d.fn with
  | none => s.endWith d stNotPermitted
  | some t =>
    let all := s.txnItems t
    let apply := s.applyTick
    let h := s.afterCommits apply
    if s.isFallow && !wakesOnly all then (s.endTxn d.fn).endWith d stNotPermitted
    else
      match firstFault s h d.fn all h [] all with
      | some (i, k) => s.rejectCommit d all.length i k
      | none =>
        let c : Commit :=
          { fn := d.fn, ring := d.ring, seq := d.seq, beginSeq := t.beginSeq, items := all.map (·.1), keys := []
            data := all.map (·.2), result := d.w 2, apply := apply }
        let s1 := match itemIn all 2 9 0 with
          | some p => { s with plan := { s.plan with swap := some (p.1.v0, p.1.v1) } }
          | none => s
        let s2 := s1.endTxn d.fn
        { s2 with host := { s2.host with commits := s2.host.commits ++ [c] } }

/-- BEGIN. -/
def execBeginTxn (d : Desc) (s : State) : Host.Outcome State Fault Refusal :=
  .next (s.runDesc d 0x01 (txnCheck 1) oneSlot beginBody)

/-- SET. -/
def execSetItem (d : Desc) (s : State) : Host.Outcome State Fault Refusal :=
  .next (s.runDesc d 0x02 (txnCheck 2) oneSlot setBody)

/-- COMMIT. -/
def execCommit (d : Desc) (s : State) : Host.Outcome State Fault Refusal :=
  .next (s.runDesc d 0x03 (txnCheck 3) oneSlot commitBody)

/-- ROLLBACK. -/
def execRollback (d : Desc) (s : State) : Host.Outcome State Fault Refusal :=
  .next (s.runDesc d 0x04 (txnCheck 4) oneSlot rollbackBody)

end Sys2Proof.Machine
end

