-- ==== Sys2Proof/Machine/Moves.lean ====
section
/-! DEFINITION. Sheaf moves: their start, landing, commit and deadline, the outcomes by source tier, and failed host reads
(06 R162, R163, R168–R170, 04 R116, 14 R355). -/

namespace Sys2Proof.Machine

/-- A move record of the active plan. -/
def State.moveRec (s : State) (num : Nat) : Option MoveRec := (moveRecs s.plan0)[num]?

/-- A move under way, by its number. -/
def State.moveAt (s : State) (num : Nat) : Option Move := s.tiers.moves.find? fun m => m.num == num

/-- A move ends. -/
def State.dropMove (s : State) (num : Nat) : State :=
  { s with tiers := { s.tiers with moves := s.tiers.moves.filter fun m => m.num != num } }

/-- Put a move back. -/
def State.setMove (s : State) (m : Move) : State :=
  { s with tiers := { s.tiers with moves := s.tiers.moves.map fun x => if x.num == m.num then m else x } }

/-- SHEAF_MOVE_START (R168): the engine of the source tier starts a move at its ISSUE_NS; background moves pause under step
2 of shedding. -/
def execSheafMoveStart (num : Nat) (s : State) : Host.Outcome State Fault Refusal :=
  .next (match s.moveRec num with
    | none => s
    | some r =>
      if !s.running || r.issue = 0xFFFFFFFF || r.srcTier = 0 || r.dstTier = 0 || (s.moveAt num).isSome ||
          (r.fn == 0 && r.cls == 0xFE && s.tiers.shed.contains 2) then s
      else
        let m : Move :=
          { num := num, tile := none, landing := 0, dst := 0, aux := 0, stile := r.stile, value := r.value, staged := none
            retried := false, tick := s.tick.count }
        { s with tiers := { s.tiers with moves := s.tiers.moves ++ [m] } })

/-! ### What a move reads -/

/-- Header and stored payload of a sheaf that lies in a memory. -/
def sheafIn (mem : List Host.Cell) (a : Nat) : List Byte × List Byte :=
  let hb := memReadBytes mem a 64
  (hb, memReadBytes mem (a + 64) (min (shOf hb).stored 131072))

/-- The sheaf that ends where another begins: its address. -/
def sheafBefore (mem : List Host.Cell) (a : Nat) : Option Nat :=
  (((List.range 1042).filterMap fun k =>
    let b := a - 64 - 64 * k
    let h := shOf (memReadBytes mem b 64)
    if 64 + 64 * k ≤ a && h.magic = 0x5346 && h.hcrc = crc32c (memReadBytes mem b 56) && ceilDiv h.stored 64 = k
    then some b else none)).head?

/-- The SCALE sheaf that covers the sheaf at an address: the nearest one before it in its sequence (R76). -/
def coverScale (mem : List Host.Cell) : Nat → Nat → Option SheafHdr
  | 0, _ => none
  | fuel + 1, a =>
    match sheafBefore mem a with
    | none => none
    | some b =>
      let h := shOf (memReadBytes mem b 64)
      if h.kind = 0x0C then some h else coverScale mem fuel b

/-- The list header of the snapshot of the tick, and the sheaf's address, that a LIST binding names (R168). -/
def State.listSource (s : State) (r : MoveRec) : Option (Nat × Nat × ListHdr) :=
  match s.tiers.bindings.find? fun b => b.1 == field r.src 0 32 with
  | none => none
  | some (_, f, o, l) =>
    (s.index f o).map fun x =>
      let h := s.listHdr x l
      let q := field r.src 32 16
      let a :=
        match r.kind with
        | 1 => h.codes + q * codeStep x.code
        | 2 => h.attrs + q * (64 + 65536)
        | 5 => h.delta
        | 6 => h.delta + 64 + payloadOf (x.delta * x.code)
        | _ => h.tombs - 64
      (a, o, h)

/-- The sheaf a locator names: header and stored payload. -/
def State.locSheaf (s : State) (w : Nat) : Option (List Byte × List Byte) :=
  match locator w with
  | .segment t a => s.segSheaf (s.segEntry a t)
  | .log lsn =>
    match s.flash.log.find? fun e => e.lsn == lsn with
    | none => none
    | some e => (s.joinWords (logPlaces e)).map fun b => (b.take 64, b.drop 64)
  | .reserved => none

/-- Header and stored payload of a move's source, the binding it must match, and whether its SCALE sheaf agrees. -/
def State.moveSource (s : State) (r : MoveRec) : Option (List Byte × List Byte × Binding × Bool) :=
  let paired (mem : List Host.Cell) (a : Nat) (hb : List Byte) : Bool :=
    let h := shOf hb
    if h.smode = 1 && h.kind ≠ 0x0C then
      match coverScale mem 512 a with
      | some sc => scalePair sc h r.srcTier r.srcTier
      | none => false
    else true
  let fixed : Binding := { kind := r.kind, fn := r.fn, list := none }
  match r.srcTier with
  | 1 =>
    if r.bind = 1 then
      (s.listSource r).map fun (a, o, h) =>
        let (hb, sp) := sheafIn s.t1 a
        (hb, sp, { fixed with list := some (o, h.list, h.gen, field r.src 32 16) }, true)
    else
      let (hb, sp) := sheafIn s.t1 r.src
      some (hb, sp, fixed, paired s.t1 r.src hb)
  | 2 => (s.locSheaf r.src).map fun (hb, sp) => (hb, sp, fixed, true)
  | 3 =>
    let (hb, sp) := sheafIn s.hostMem r.src
    some (hb, sp, fixed, paired s.hostMem r.src hb)
  | _ => none

/-! ### Where a move lands -/

/-- A sheaf committed to flash: VECTORS sheaves compressed, other sheaves as they are; the map entry or the log's record
follows the new place (R156, R158, R256). -/
def State.landFlash (s : State) (loc : Nat) (h0 : SheafHdr) (p : List Byte) : State :=
  let h := committed { h0 with live := false } p s.tick.count
  match locator loc with
  | .segment t a =>
    let (h2, body) := if h.kind = 9 then bpSheaf h p else (h, p)
    let dirN := if h2.comp = 1 then dirBytes h2 else 0
    let dir := shBytes h2 ++ body.take dirN
    let blocks := bpBlocks (if h2.comp = 1 then h2.blockLen else 64) p
    let stored := blocks.map fun b => if h2.comp = 1 then (bpEncode b).1 else b
    let cw (b : List Byte) (tag : Word32) : CwData :=
      { user := b, scale := 0, norm := 0, tag := tag, crc := BitVec.ofNat 32 (crc32c b) }
    let ws := cw dir (locTag (segLocator t a)) :: stored.flatMap fun b => (codePieces b).map fun q => cw q (locTag loc)
    match s.writeSegWords ws with
    | none => s.tellFull
    | some (s1, pl) =>
      let e : SegEntry := { place := pl, dirLen := dir.length, sizes := stored.map List.length }
      { s1 with t1 := memWriteBytes s1.t1 (a + 64 + 112 * t) (segEntryBytes e) }
  | .log lsn =>
    let ws := (codePieces (shBytes h ++ p)).map fun q =>
      ({ user := q, scale := 0, norm := 0, tag := locTag loc, crc := BitVec.ofNat 32 (crc32c q) } : CwData)
    match s.writeLogWords ws with
    | none => s.tellFull
    | some (s1, pl) =>
      let log := s1.flash.log.map fun e =>
        if e.lsn = lsn then
          { e with set := pl.set, plane := pl.plane, block := pl.block, page := pl.page, off := pl.off, durable := false }
        else e
      { s1 with flash := { s1.flash with log := log } }
  | .reserved => s

/-- A payload that has passed its check is committed to its destination tier (R151, R156, R161). -/
def State.landAt (s : State) (r : MoveRec) (m : Move) (hb p : List Byte) : State :=
  let h := shOf hb
  match r.dstTier, m.tile with
  | 0, some t => (s.scratchPut t m.aux hb).scratchPut t m.dst p
  | 0, none => s
  | 1, _ => { s with t1 := memWriteBytes s.t1 r.dst (shBytes (committed h p s.tick.count) ++ p) }
  | 2, _ => s.landFlash r.dst h p
  | _, _ =>
    let (h2, body) := bpSheaf (committed { h with live := false } p s.tick.count) p
    s.hostWrite r.dst (shBytes h2 ++ body)

/-- The signal of a move that has landed, and the end of its landing on the tile that started it (R116). -/
def State.moveSignals (s : State) (m : Move) : State :=
  let s1 := match m.tile with | some t => s.boardLanded t m.landing | none => s
  if m.value = 0 then s1 else s1.planSignal m.stile m.value

/-! ### Outcomes (Table TI-6) -/

/-- A move that failed its check, or did not land by its deadline, by its source tier. -/
def State.moveFails (s : State) (r : MoveRec) (m : Move) : State :=
  match r.srcTier with
  | 1 =>
    let a := if r.bind = 1 then (match s.listSource r with | some (a, _, _) => a | none => r.src) else r.src
    (s.dropMove m.num).badBlockAt a []
  | 2 => (s.dropMove m.num).classBump r.fn r.cls 10 1
  | 3 =>
    if m.retried then (s.dropMove m.num).raiseNamed .sheafFault [r.src]
    else s.setMove { m with retried := true, tick := s.tick.count + 1 }
  | _ => s.dropMove m.num

/-- A move of the plan lands. -/
def State.moveLands (s : State) (num : Nat) (poisoned : Bool) : State :=
  match s.moveAt num, s.moveRec num with
  | some m, some r =>
    if m.staged.isSome || decide (s.tick.count.toNat < m.tick.toNat) then s
    else
      match s.moveSource r with
      | none => s.moveFails r m
      | some (hb, sp, b, paired) =>
        if poisoned || !paired then s.moveFails r m
        else
          match sheafCheck hb sp r.srcTier b with
          | .error _ => s.moveFails r m
          | .ok p => ((s.dropMove num).landAt r m hb p).moveSignals m
  | _, _ => s

/-- SHEAF_LANDING (R162): a move of the plan, the next sheaf of a LOAD, or the input of a SELECT lands. -/
def execSheafLanding (m : MoveRef) (poisoned : Bool) (s : State) : Host.Outcome State Fault Refusal :=
  .next (match m with
    | .plan num => s.moveLands num poisoned
    | .load f r q => match s.loadAt f r q with | some j => s.loadLands j (!poisoned) | none => s
    | .select f r q => match s.selectAt f r q with | some j => s.selectLands j (!poisoned) | none => s)

/-- SHEAF_MOVE_DEADLINE (R170): a move from flash or the shared tier that has not landed by the end of its phase takes the
outcome of its tier. -/
def execSheafMoveDeadline (m : MoveRef) (s : State) : Host.Outcome State Fault Refusal :=
  .next (match m with
    | .plan num =>
      match s.moveAt num, s.moveRec num with
      | some v, some r =>
        if (r.srcTier = 2 || r.srcTier = 3) && decide (v.tick.toNat ≤ s.tick.count.toNat) then s.moveFails r v else s
      | _, _ => s
    | .load f r q => match s.loadAt f r q with | some j => s.loadLands j false | none => s
    | .select f r q => match s.selectAt f r q with | some j => s.selectLands j false | none => s)

/-- The checks of a sheaf that a tile stores: steps 1 to 3 on the header that it supplied, without the CRC that the node
itself writes (R156, R163). -/
def stagedOk (hb p : List Byte) : Bool :=
  let h := shOf hb
  h.magic == 0x5346 && h.clean && sheafStep2 h 0 && sheafStep3 h p && p.length == h.plen * 64

/-- SHEAF_COMMIT (R116, R163): a staged sheaf is committed whole and its stile signalled, or nothing is committed. A tile
that was fenced since commits nothing. -/
def execSheafCommit (num : Nat) (s : State) : Host.Outcome State Fault Refusal :=
  .next (match s.moveAt num, s.moveRec num with
    | some m, some r =>
      match m.staged, m.tile with
      | some (hb, p), some tile =>
        let t := s.tile tile
        if t.fenced then s.dropMove num
        else if stagedOk hb p then ((s.dropMove num).landAt r m hb p).moveSignals m
        else
          let c := { Counts0 with range := 1 }
          let (x, y) := s.physTile tile
          let s1 := (s.dropMove num).setTile { t with counts := addCounts t.counts c }
          (s1.total 4 1).raiseNamed .tileFault [x, y, tile]
      | _, _ => s
    | _, _ => s)

/-! ### Failed host reads (R355) -/

/-- The data of a descriptor could not be read: the first time it is carried and read again in the next tick's ingest, the
second time it ends with BAD_DESCRIPTOR. -/
def State.dataFails (s : State) (f r : Nat) (q : Word64) : State :=
  match s.workAt f r q with
  | none => s
  | some w =>
    if w.started || w.done.isSome then s
    else if w.readFails = 0 then
      (s.mapWork f r q fun w => { w with readFails := 1 }).carry f r q w.cls
    else s.finish f r q (compOf stBad) []

/-- The value of an item could not be read: retried once, then the COMMIT is rejected with reason READ (R386). -/
def State.valueFails (s : State) (f r : Nat) (q : Word64) (item : Nat) : State :=
  match s.workAt f r q with
  | none => s
  | some w =>
    if w.started || w.done.isSome || w.opcode ≠ 3 then s
    else if w.readFails = 0 then
      (s.mapWork f r q fun w => { w with readFails := 1 }).carry f r q w.cls
    else
      s.rejectCommit { fn := f, ring := r, idx := w.idx, words := w.words } (s.txnCount f) item 8

/-- HOST_READ_FAIL (R355). -/
def execHostReadFail (fn : Nat) (what : HostRead) (s : State) : Host.Outcome State Fault Refusal :=
  let s1 := s.bumpFn fn 7
  .next (match what with
    | .fetch r => if (s1.ring fn r).state = .enabled || (s1.ring fn r).state = .draining then s1.haltRing fn r 2 else s1
    | .data r q => s1.dataFails fn r q
    | .value r q i => s1.valueFails fn r q i
    | .move (.plan num) =>
      match s1.moveAt num, s1.moveRec num with
      | some v, some r => if r.srcTier = 3 then s1.moveFails r v else s1
      | _, _ => s1
    | .move (.load f r q) => match s1.loadAt f r q with | some j => s1.loadLands j false | none => s1
    | .move (.select f r q) => match s1.selectAt f r q with | some j => s1.selectLands j false | none => s1)

end Sys2Proof.Machine
end

