-- ==== Sys2Proof/Machine/PlanCheck.lean ====
section
/-! DEFINITION. Staging and validation of a plan image (02 R45–R51, Table TK-8), with the record rules of the chapters
that own the sections. A fault is a pair: 0 for the header or 1 plus the index of the section in the directory, and the
record. A record of TILE_LISTS is counted in 32-byte units from the end of its directory; one of BURROW_PROGRAMS is the
logical burrow (assumption 21). -/

namespace Sys2Proof.Machine

/-- A place that validation reports. -/
abbrev PlanFault := Nat × Nat

/-- One fault, where a condition fails. -/
def faultIf (c : Bool) (sec rec : Nat) : List PlanFault := if c then [(sec, rec)] else []

/-- The place of a section of a kind: 1 plus its index in the directory. -/
def secPlace (img : List Byte) (kind : Nat) : Nat := ((secEntries img).findIdx fun e => e.kind == kind) + 1

/-- Start and end of a phase, ns from the edge, for a tick of `len` units of 50 µs (R43, Tables TK-3 and TL-6). -/
def phaseNs (len phase : Nat) : Nat × Nat :=
  let t (us : Nat) : Nat := us * len * 50
  match phase with
  | 1 => (max 20000 (t 20), t 120)
  | 2 => (t 120, t 400)
  | 3 => (t 120, t 720)
  | 4 => (t 300, t 340)
  | 5 => (t 400, t 850)
  | 6 => (t 650, t 690)
  | 7 => (t 720, t 900)
  | 8 => (t 900, t 980)
  | _ => (0, 0)

/-- A phase code that is not reserved (Table TL-6). -/
def phaseOk (p : Nat) : Bool := decide (1 ≤ p) && decide (p ≤ 8)

/-- Records of a section with their index, and the faults of each. -/
def eachRec {α : Type} (sec : Nat) (rs : List α) (bad : α → Bool) : List PlanFault :=
  (rs.zipIdx.filter fun r => bad r.1).map fun r => (sec, r.2)

/-- Faults of neighbouring records: the later one is reported. -/
def eachPair {α : Type} (sec : Nat) (rs : List α) (ok : α → α → Bool) : List PlanFault :=
  ((rs.zip (rs.drop 1)).zipIdx.filter fun r => !ok r.1.1 r.1.2).map fun r => (sec, r.2 + 1)

/-! ### TILE_LISTS (R102–R109) -/

/-- The command record that 32 bytes hold, and whether a reserved bit is set (Table TL-4). -/
def cmdOf (b : List Byte) : CmdRec :=
  let w0 := natAt b 0 8
  let w1 := natAt b 8 8
  let w2 := natAt b 16 8
  let w3 := natAt b 24 8
  { issue := field w0 32 32, phase := field w0 28 4, flags := field w0 16 8, opcode := field w0 0 8, aux := field w1 48 16
    dst := field w1 32 16, src1 := field w1 16 16, src0 := field w1 0 16, fmt1 := field w2 56 8, fmt0 := field w2 48 8
    k := field w2 32 16, n := field w2 16 16, m := field w2 0 16, value := field w3 40 24, stile := field w3 24 14
    ext := field w3 0 24, attr := 0 }
def cmdReserved (b : List Byte) : Bool :=
  field (natAt b 0 8) 24 4 != 0 || field (natAt b 0 8) 8 8 != 0 || field (natAt b 24 8) 38 2 != 0

/-- A directory entry: FIRST, COUNT, reserved bits clear. -/
def tileEnt (sec : List Byte) (i : Nat) : Nat × Nat × Bool :=
  let w := natAt sec (8 * i) 8
  (field w 32 32, field w 0 20, field w 20 12 == 0)

/-- First record after the directory: 4,096 entries of 8 bytes, in 32-byte units. -/
def tileDir : Nat := 1024

/-- A tile's records: index in the section, bytes, record. -/
def tileList (sec : List Byte) (i : Nat) : List (Nat × List Byte × CmdRec) :=
  let (first, count, _) := tileEnt sec i
  (List.range count).map fun j =>
    let b := bytesAt sec (32 * (first + j)) 32
    (first + j - tileDir, b, cmdOf b)

/-- The engines that have a list. -/
def tileLists (sec : List Byte) : List (Nat × List (Nat × List Byte × CmdRec)) :=
  ((List.range 4096).map fun i => (i, tileList sec i)).filter fun t => !t.2.isEmpty

/-- FORMAT faults of the directory (R102). -/
def tileDirFaults (sec : List Byte) (at_ : Nat) : List PlanFault :=
  let n := sec.length / 32
  let es := (List.range 4096).map fun i => tileEnt sec i
  let used := es.filter fun e => e.2.1 != 0
  let clash (a b : Nat × Nat × Bool) : Bool := decide (a.1 < b.1 + b.2.1) && decide (b.1 < a.1 + a.2.1)
  if n < tileDir then [(at_, 0)]
  else
    (es.zipIdx.filter fun p =>
      let e := p.1
      !e.2.2 || (e.2.1 != 0 && (decide (e.1 < tileDir) || decide (n < e.1 + e.2.1) ||
        decide (1 < (used.filter fun u => clash u e).length)))).map fun p => (at_, p.2)

/-- Whether a command names a stile. -/
def namesStile (r : CmdRec) : Bool := r.sigdone || (decide (0x0E ≤ r.opcode) && decide (r.opcode ≤ 0x11))

/-- The partition that a command enters candidates into, if it enters any. -/
def enters (r : CmdRec) : Option Nat :=
  if !r.selreg then none
  else if r.opcode = 0x02 then some (field r.ext 18 3)
  else if r.opcode = 0x04 then some (field r.ext 16 3)
  else none

/-- The records of a list that break the partitioning rule of R94: PART in force while the register is not empty, and the
partitions that hold candidates. -/
def partFaults : Nat → List Nat → List (Nat × List Byte × CmdRec) → List Nat
  | _, _, [] => []
  | part, full, (i, _, r) :: rest =>
    match enters r with
    | some p =>
      if full.isEmpty then partFaults r.partCode [p] rest
      else (if r.partCode = part then [] else [i]) ++ partFaults part (if full.contains p then full else p :: full) rest
    | none =>
      if r.opcode = 0x09 && r.selreg then partFaults part (full.filter (· != field r.ext 0 3)) rest
      else partFaults part full rest

/-- Whether a tile-started move is one that the command may start: the tier that a tile takes or gives, its length (R116,
R168), and where its payload lies (R92). -/
def moveOfCmd (moves : List MoveRec) (r : CmdRec) : Bool :=
  match r.opcode with
  | 0x0E => match moves[field r.ext 0 24]? with
    | some m => m.dstTier == 0 && spanOk (r.dst, 64 * m.len) && !overlaps (r.aux, 64) (r.dst, 64 * m.len)
    | none => false
  | 0x0F => match moves[field r.ext 0 24]? with | some m => m.srcTier == 0 && m.len == r.cn | none => false
  | _ => true

/-- COMMAND faults of one record of a tile. -/
def tileCmdBad (len tile : Nat) (allocs : List AllocRec) (moves : List MoveRec) (b : List Byte) (r : CmdRec) : Bool :=
  let nested := r.opcode == 0x06 && field r.ext 0 2 == 2
  cmdReserved b || !cmdOk r || decide (len * 80000 ≤ r.issue) || !moveOfCmd moves r ||
    (nested && decide (rowsPerSheaf true (stride64 (rowBytes r.fmt1 r.cn)) < r.cm)) ||
    (namesStile r && (match allocs.find? fun a => a.stile == r.stile with
      | some a => r.opcode == 0x11 && r.ext.testBit 0 && !(a.homeKind == 0 && a.home == tile)
      | none => true))

/-- COMMAND faults of TILE_LISTS. -/
def tileCommandFaults (img : List Byte) : List PlanFault :=
  let at_ := secPlace img 1
  let allocs := allocRecs img
  let moves := moveRecs img
  (tileLists (secBytes img 1)).flatMap fun (tile, rs) =>
    ((rs.filter fun r => tileCmdBad (imgTickLen img) tile allocs moves r.2.1 r.2.2).map fun r => (at_, r.1)) ++
      (partFaults 0 [] rs).map fun i => (at_, i)

/-! ### Tile budgets (R96, R100, R101, R105, R106) -/

/-- Planned hop count between two logical tiles (R100). -/
def planHops (a b : Nat) : Nat :=
  let d (p q : Nat) : Nat := (p - q) + (q - p)
  d (a % 64) (b % 64) + d (a / 64) (b / 64) + 2

/-- Destination tile of a remote COPY. -/
def copyDst (r : CmdRec) : Nat := 64 * field r.ext 6 6 + field r.ext 0 6
/-- A remote COPY. -/
def isRemote (r : CmdRec) : Bool := r.opcode == 0x0D && r.ext.testBit 12
/-- The cycle at which a remote COPY's data has landed. -/
def landsAt (tile : Nat) (r : CmdRec) : Nat := r.issue + 4 + planHops tile (copyDst r) + r.cn

/-- Whether a record breaks R105. Tile cycles run at 1.6 GHz. -/
def outOfPhase (len tile : Nat) (r : CmdRec) : Bool :=
  let p := phaseNs len r.phase
  let last := max (r.issue + cmdCost r) (if isRemote r then landsAt tile r else 0)
  decide (r.issue * 5 < p.1 * 8) || decide (p.2 * 8 < last * 5)

/-- Directed links that a move could use, each with the first cycle of its use (R101): x, y, direction 0 north, 1 south,
2 east, 3 west. -/
def moveLinks (tile : Nat) (r : CmdRec) : List ((Nat × Nat × Nat) × Nat) :=
  let x1 := tile % 64
  let y1 := tile / 64
  let x2 := copyDst r % 64
  let y2 := copyDst r / 64
  let dx := (x1 - x2) + (x2 - x1)
  let dir (a b plus minus : Nat) : Nat := if a < b then plus else minus
  let horiz := (List.range 3).flatMap fun k => (List.range dx).map fun i =>
    ((if x1 < x2 then x1 + i else x1 - i, y1 + k, dir x1 x2 2 3), r.issue + i)
  let lo := min y1 y2
  let span := (y1 - y2) + (y2 - y1) + 2
  let vert := if y1 = y2 then
      (List.range 2).flatMap fun i => [((x2, y1 + i, 1), r.issue + dx + i), ((x2, y1 + i + 1, 0), r.issue + dx + i)]
    else (List.range span).map fun i =>
      if y1 < y2 then ((x2, lo + i, 1), r.issue + dx + i) else ((x2, lo + span - i, 0), r.issue + dx + i)
  horiz ++ vert

/-- Whether two moves can occupy one link in the same cycle. -/
def movesClash (t u : Nat) (a b : CmdRec) : Bool :=
  (moveLinks t a).any fun l => (moveLinks u b).any fun m =>
    l.1 == m.1 && decide (l.2 < m.2 + b.cn) && decide (m.2 < l.2 + a.cn)

/-- Landings into a tile's scratch: the record that issues each, its tile, its first cycle and the stile that it signals. -/
def planLandings (ls : List (Nat × List (Nat × List Byte × CmdRec))) : List (Nat × Nat × Nat × Nat) :=
  ls.flatMap fun (tile, rs) => rs.filterMap fun (i, _, r) =>
    if isRemote r then some (i, copyDst r, r.issue, r.stile)
    else if r.opcode = 0x0E then some (i, tile, r.issue, r.stile)
    else none

/-- The cycle at which the WAIT that consumes a landing completes, as planned (R96); none where no WAIT follows. -/
def landingEnd (ls : List (Nat × List (Nat × List Byte × CmdRec))) (tile start stile : Nat) : Option Nat :=
  match ls.find? fun l => l.1 == tile with
  | none => none
  | some (_, rs) =>
    (rs.find? fun r => r.2.2.opcode == 0x11 && r.2.2.stile == stile && decide (start ≤ r.2.2.issue + 3)).map fun r =>
      r.2.2.issue + 3

/-- TILE_BUDGET faults. -/
def tileBudgetFaults (img : List Byte) : List PlanFault :=
  let at_ := secPlace img 1
  let len := imgTickLen img
  let ls := tileLists (secBytes img 1)
  let late := ls.flatMap fun (tile, rs) => (rs.filter fun r => outOfPhase len tile r.2.2).map fun r => (at_, r.1)
  let spaced := ls.flatMap fun (_, rs) =>
    ((rs.zip (rs.drop 1)).filter fun p => decide (p.2.2.2.issue < p.1.2.2.issue + max 4 (cmdCost p.1.2.2))).map
      fun p => (at_, p.2.1)
  let copies := ls.flatMap fun (tile, rs) => (rs.filter fun r => isRemote r.2.2).map fun r => (tile, r.1, r.2.2)
  let clash := (copies.filter fun a => copies.any fun b => decide (b.2.1 < a.2.1) && movesClash a.1 b.1 a.2.2 b.2.2).map
    fun a => (at_, a.2.1)
  let lands := planLandings ls
  let tooMany := (lands.filter fun l => decide (16 < (lands.filter fun k =>
    k.2.1 == l.2.1 && decide (k.2.2.1 ≤ l.2.2.1) &&
      (match landingEnd ls k.2.1 k.2.2.1 k.2.2.2 with | some e => decide (l.2.2.1 < e) | none => true)).length)).map
    fun l => (at_, l.1)
  late ++ spaced ++ clash ++ tooMany

/-! ### BURROW_PROGRAMS (R129, R134, R135, R141) -/

/-- FORMAT faults of the directory (R134). -/
def burrowDirFaults (sec : List Byte) (at_ : Nat) : List PlanFault :=
  let n := sec.length
  let out (off len : Nat) : Bool := len != 0 && (decide (off < 64) || decide (n < 64 * off + len))
  if n < 4096 then [(at_, 0)]
  else
    ((List.range 256).filter fun i =>
      let e := progEnt sec i
      e.rsv || out e.off (8 * e.len) || out e.slotOff (16 * e.slotCount)).map fun i => (at_, i)

/-- Whether a micro-op breaks R129 in a program of some length. -/
def microBad (allocs : List AllocRec) (n : Nat) (word : Word64) : Bool :=
  let w := word.toNat
  let op := mOp w
  let flags := field w 51 5
  let allow := match op with | 2 => 1 | 3 => 1 | 4 => 2 | 6 => 4 | 7 => 4 | 10 => 4 | 11 => 8 | _ => 0
  let sig := op == 8 || op == 9 || flags.testBit 2
  op == 0 || decide (12 < op) || (flags &&& allow) != flags || field w 38 2 != 0 || decide (n ≤ mTarget w) ||
    (mTarget w != 0 && op != 1 && op != 11) || (!sig && mStile w != 0) ||
    (!sig && (if op == 10 then mValue w &&& 0x1F0F else 0) != mValue w) ||
    (sig && !(allocs.any fun a => a.stile == mStile w))

/-- Micro-ops that a slot can reach from its entry. -/
def reached (prog : List Word64) : Nat → List Nat → List Nat → List Nat
  | 0, _, seen => seen
  | _, [], seen => seen
  | fuel + 1, pc :: todo, seen =>
    if seen.contains pc then reached prog fuel todo seen
    else
      match prog[pc]? with
      | none => reached prog fuel todo seen
      | some w =>
        let next := match mOp w.toNat with
          | 12 => []
          | 1 => [pc + 1, mTarget w.toNat]
          | 11 => if mFlag w.toNat 3 then [pc + 1, mTarget w.toNat] else [mTarget w.toNat]
          | _ => [pc + 1]
        reached prog fuel (next ++ todo) (pc :: seen)

/-- Cost of a micro-op that has no item (Table WA-5). -/
def fixedMicro (op : Nat) : Nat :=
  match op with | 5 => 16 | 6 => 16 | 7 => 24 | 9 => 3 | 11 => 2 | 12 => 1 | _ => 4

/-- Cost and copies of a FIXED slot from a micro-op: it has no item, so NEXT jumps and a COND jump does not. None where it
does not end. -/
def fixedRun (prog : List Word64) : Nat → Nat → Option (Nat × Nat)
  | 0, _ => none
  | fuel + 1, pc =>
    match prog[pc]? with
    | none => none
    | some w =>
      let op := mOp w.toNat
      let c := fixedMicro op
      if op = 12 then some (c, 0)
      else
        let next := if op = 1 || (op = 11 && !mFlag w.toNat 3) then mTarget w.toNat else pc + 1
        (fixedRun prog fuel next).map fun r => (r.1 + c, r.2 + flag (op = 10))

/-- Steps within which a FIXED slot must end: no slot is longer than a tick of 4 ms. -/
def fixedFuel : Nat := 4000000

/-- COMMAND faults of BURROW_PROGRAMS. -/
def burrowCommandFaults (img : List Byte) : List PlanFault :=
  let sec := secBytes img 2
  let at_ := secPlace img 2
  let allocs := allocRecs img
  let len := imgTickLen img
  ((List.range 256).filter fun i =>
    let e := progEnt sec i
    let prog := burrowProg sec i
    decide (2048 < e.len) || decide (64 < e.slotCount) || prog.any (microBad allocs e.len) ||
      (burrowSlots sec i).any fun b =>
        b.rsv || b.kind == 0 || decide (4 < b.kind) || !phaseOk b.phase || decide (len * 50000 ≤ b.start) ||
          b.budget == 0 || decide (e.len ≤ b.entry) || (b.kind == 4 && b.cls != 0) ||
          (b.kind != 4 && (reached prog 8192 [b.entry] []).any fun pc =>
            (match prog[pc]? with | some w => mOp w.toNat == 10 | none => false))).map fun i => (at_, i)

/-- BURROW_BUDGET faults (R135, R141). A burrow cycle lasts 1 ns, a bus cycle 2 ns. -/
def burrowBudgetFaults (img : List Byte) : List PlanFault :=
  let sec := secBytes img 2
  let at_ := secPlace img 2
  let len := imgTickLen img
  let slot (prog : List Word64) (b : BSlot) : Bool :=
    let p := phaseNs len b.phase
    decide (b.start < p.1) || decide (p.2 < b.endAt) || (b.kind != 4 && b.phase == 3 && decide (b.start < p.1 + 1000)) ||
      (b.kind == 4 && (match fixedRun prog fixedFuel b.entry with | some r => decide (b.budget < r.1) | none => true))
  let ordered : List BSlot → Bool := fun bs =>
    (bs.zip (bs.drop 1)).all fun p => decide (p.1.start ≤ p.2.start) && decide (p.1.endAt ≤ p.2.start)
  let copies (i phase : Nat) : Nat :=
    ((burrowSlots sec i).map fun b =>
      if b.kind = 4 && b.phase = phase then
        match fixedRun (burrowProg sec i) fixedFuel b.entry with | some r => r.2 | none => 0
      else 0).sum
  let busFull (stack phase : Nat) : Bool :=
    let p := phaseNs len phase
    decide ((p.2 - p.1) / 2 < 18 * ((List.range 32).map fun k => copies (32 * stack + k) phase).sum)
  ((List.range 256).filter fun i =>
    let bs := burrowSlots sec i
    bs.any (slot (burrowProg sec i)) || !ordered bs ||
      (List.range 9).any fun ph => decide (0 < copies i ph) && busFull (i / 32) ph).map fun i => (at_, i)

/-! ### SHEAF_MOVES (R155, R168, R169) -/

/-- Whether a sheaf of a payload length lies in one logical channel, outside its work area (R155). -/
def t1Placed (a len : Nat) : Bool :=
  let n := 64 + 64 * len
  a % 64 == 0 && decide (a < 2 ^ 39) && channelOf a == channelOf (a + n - 1) && decide (chanOff a + n ≤ workArea)

/-- COMMAND faults of one move; a T2 end must be a locator (R256). -/
def moveBad (allocs : List AllocRec) (m : MoveRec) : Bool :=
  let tileStarted := m.srcTier == 0 || m.dstTier == 0
  let pair := [(1, 0), (0, 1), (1, 2), (2, 1), (1, 3), (3, 1)].contains (m.srcTier, m.dstTier)
  let place (tier a : Nat) : Bool :=
    if tier = 1 then t1Placed a m.len else if tier = 2 then locator a != .reserved else if tier = 3 then a % 64 == 0 else true
  !pair || decide (1 < m.bind) || (m.bind == 1 && (m.srcTier != 1 || field m.src 48 16 != 0)) || !phaseOk m.phase ||
    m.rsv != 0 || decide (m.len < 64) || decide (1024 < m.len) || !((List.range 4).any fun t => kindTier m.kind t) ||
    (tileStarted != (m.issue == 0xFFFFFFFF)) || (tileStarted && (m.stile != 0 || m.value != 0)) ||
    (m.bind == 0 && !place m.srcTier m.src) || !place m.dstTier m.dst ||
    (m.value != 0 && !(allocs.any fun a => a.stile == m.stile))

/-- WINDOW_FIT faults of SHEAF_MOVES: outside the phase, a largest span that leaves the T3 window (R152), or a T1 place
both stored to and loaded from in one swath. -/
def moveWindowFaults (s : State) (img : List Byte) : List PlanFault :=
  let ms := moveRecs img
  let len := imgTickLen img
  let meets (a b : Nat) (m n : MoveRec) : Bool := decide (a < b + 64 + 64 * n.len) && decide (b < a + 64 + 64 * m.len)
  eachRec (secPlace img 4) ms fun m =>
    let p := phaseNs len m.phase
    let out (tier a : Nat) : Bool := tier == 3 && !s.inT3 a (64 + 64 * m.len + 1024)
    (m.issue != 0xFFFFFFFF && (decide (m.issue < p.1) || decide (p.2 ≤ m.issue))) ||
      out m.srcTier m.src || out m.dstTier m.dst ||
      (m.dstTier == 1 && ms.any fun n => n.srcTier == 1 && n.bind == 0 && meets m.dst n.src m n) ||
      (m.srcTier == 1 && m.bind == 0 && ms.any fun n => n.dstTier == 1 && meets n.dst m.src n m)

/-! ### FLASH_WINDOWS, FABRIC_GATES (R260, R330, R343, R347) -/

/-- COMMAND faults of one flash window. -/
def winBad (w : WinRec) : Bool :=
  w.kind == 0 || decide (3 < w.kind) || !phaseOk w.phase || w.rsv || decide (4 < w.maxPlane) || decide (32 < w.maxChannel)

/-- WINDOW_FIT faults of FLASH_WINDOWS. The records bound every plane and every channel alike. -/
def winWindowFaults (img : List Byte) : List PlanFault :=
  let ws := winRecs img
  let len := imgTickLen img
  let upTo (i : Nat) (f : WinRec → Nat) : Nat := ((ws.take (i + 1)).map f).sum
  (ws.zipIdx.filter fun (w, i) =>
    let p := phaseNs len w.phase
    decide (w.deadline < w.last + 60000) || decide (w.first < p.1) || decide (w.last < w.first) ||
      decide (p.2 < w.deadline) || decide (4 < upTo i (·.maxPlane)) || decide (32 < upTo i (·.maxChannel))).map
    fun r => (secPlace img 5, r.2)

/-- COMMAND faults of FABRIC_GATES. -/
def gateFaults (s : State) (img : List Byte) : List PlanFault :=
  let gs := gateRecs img
  let at_ := secPlace img 6
  let conn (g : GateRec) : Bool := match s.conn g.conn with
    | some c => c.sys && c.state == .open_ && c.tc == g.tc && decide (g.conn < s.fabric.residents)
    | none => false
  (eachRec at_ gs fun g =>
    (g.kind != 1 && g.kind != 2) || (g.kind == 2 && g.cut) || g.rsv || decide (g.tc < 2) || decide (5 < g.tc) ||
      g.ports == 0 || !phaseOk g.phase || decide (g.close ≤ g.open_) || !conn g ||
      (if g.kind == 1 then g.addr != 0 else g.addr % 64 != 0 || g.size % 64 != 0)) ++
    eachPair at_ gs fun a b => decide (a.open_ ≤ b.open_)

/-- The set bits of a port mask. -/
def portCount (m : Nat) : Nat := ((List.range 8).filter fun p => m.testBit p).length

/-- The byte budget of R347 for a port and a SEND record, in 840ths of a byte. -/
def gateOver (gs : List GateRec) (p : Nat) (g : GateRec) : Bool :=
  let inside := gs.filter fun k => k.kind == 1 && k.ports.testBit p && decide (g.open_ ≤ k.open_) && decide (k.close ≤ g.close)
  let sum := (inside.map fun k => k.size * (840 / portCount k.ports)).sum
  decide (840 * (85 * (g.close - g.open_) - 4286) < sum)

/-- WINDOW_FIT faults of FABRIC_GATES. -/
def gateWindowFaults (img : List Byte) : List PlanFault :=
  let gs := gateRecs img
  let len := imgTickLen img
  eachRec (secPlace img 6) gs fun g =>
    let p := phaseNs len g.phase
    if g.kind = 1 then
      decide (g.open_ < p.1) || decide (p.2 < g.close) || (List.range 8).any fun q => g.ports.testBit q && gateOver gs q g
    else
      decide (g.open_ + 10000 < p.1) || decide (p.2 + 10000 < g.close) || decide (len * 50000 < g.close) ||
        !(match regionOf g.addr with
          | .t1 a => decide (a + g.size ≤ 2 ^ 39)
          | .scratch _ o => decide (o + g.size ≤ 0x10000)
          | _ => false)

/-! ### STILE_ALLOC, SPLIT, RESERVATIONS, SLOTS (R297, R190, R172, R173, R48) -/

/-- COMMAND faults of STILE_ALLOC. -/
def allocFaults (img : List Byte) : List PlanFault :=
  let rs := allocRecs img
  let at_ := secPlace img 7
  (eachRec at_ rs fun r =>
    r.rsv || r.homeKind == 3 || (r.homeKind == 1 && decide (256 ≤ r.home)) || (r.homeKind == 2 && r.home != 0)) ++
    eachPair at_ rs fun a b => decide (a.stile < b.stile)

/-- COMMAND faults of SPLIT. -/
def splitFaults (img : List Byte) : List PlanFault :=
  let rs := splitRecs img
  let at_ := secPlace img 8
  (eachRec at_ rs fun r =>
    r.mode == 3 || decide (r.cls < 0x10) || decide (0x1F < r.cls) ||
      (if r.cls = 0x1F then r.mode != 2 || r.t == 0 || decide (32 < r.t)
       else if r.mode = 0 then r.t == 0 else r.t != 0)) ++
    eachPair at_ rs fun a b => decide ([a.fn, a.cls, a.index] < [b.fn, b.cls, b.index])

/-- COMMAND faults of RESERVATIONS. -/
def resFaults (img : List Byte) : List PlanFault :=
  eachRec (secPlace img 9) ((resRecs img).zip (secRecs img 9 16)) fun (r, b) =>
    (natAt b 0 8).testBit 27 || r.rate == 0 || (decide (2 ≤ r.tier) && decide (r.tier ≤ 4) && r.stack != 0) ||
      decide (r.wend ≤ r.wstart)

/-- The contract rate of a tier, MB/s (Table TI-10). -/
def contractRate (tier : Nat) : Nat := [1600000, 12800000, 153600, 100000, 100000].getD tier 0

/-- RESERVATION faults: reserved codes, two categories for one function and class, demand above 85 %. -/
def resDemandFaults (img : List Byte) : List PlanFault :=
  let rs := resRecs img
  let above := tierList.filter fun t => decide (85 * contractRate t.1 < 100 * demandOf rs t.1 t.2 fun _ => true)
  eachRec (secPlace img 9) rs fun r =>
    decide (5 ≤ r.tier) || decide (6 ≤ r.cat) || (rs.any fun q => q.fn == r.fn && q.cls == r.cls && q.cat != r.cat) ||
      above.any fun t => t.1 == r.tier && (decide (2 ≤ r.tier) || t.2 == r.stack)

/-- SLOTS faults: order, reserved bits, and the composition's bound for a function. -/
def slotFaults (s : State) (img : List Byte) : List PlanFault :=
  let rs := slotRecs img
  let at_ := secPlace img 3
  let bound (f : Nat) : Nat := (s.compEntry f).elim 0 entSlots
  let upTo (f i : Nat) : Nat := (((rs.take (i + 1)).filter fun r => r.fn == f).map (·.slots)).sum
  (eachRec at_ (secRecs img 3 8) fun b => field (natAt b 0 8) 12 4 != 0) ++
    (eachPair at_ rs fun a b => decide ([a.fn, a.cls] < [b.fn, b.cls])) ++
    ((rs.zipIdx.filter fun (r, i) => decide (bound r.fn < upTo r.fn i)).map fun r => (at_, r.2))

/-- STILE_RANGE faults: a planned stile outside its function's composed range. -/
def stileRangeFaults (s : State) (img : List Byte) : List PlanFault :=
  eachRec (secPlace img 7) (allocRecs img) fun r => !s.stileInRange r.fn r.stile

/-- Node work's own classes (R172). -/
def nodeClass (f c : Nat) : Bool := f == 0 && (c == 0xFE || c == 0xFF)

/-- CARRY faults: the header's share, short carry slots, and classes that another section charges without a SLOTS
record. The CLASS of a FABRIC_GATES record is a traffic class, and charges no class of work (assumption 21). -/
def carryFaults (s : State) (img : List Byte) : List PlanFault :=
  let pct := field (natAt img 0x18 8) 0 8
  let rs := slotRecs img
  let lacks (f c : Nat) : Bool :=
    decide (0 < (s.compEntry f).elim 0 entSlots) && !nodeClass f c && !(rs.any fun r => r.fn == f && r.cls == c)
  let sec := secBytes img 2
  faultIf (decide (pct < 2) || decide (25 < pct)) 0 0 ++
    (eachRec (secPlace img 3) rs fun r =>
      decide (r.carry < ceilDiv (r.slots * pct) 100) || (decide (0 < r.slots) && r.carry == 0)) ++
    (((List.range 256).filter fun i => (burrowSlots sec i).any fun b => b.kind != 4 && lacks b.fn b.cls).map fun i =>
      (secPlace img 2, i)) ++
    (eachRec (secPlace img 4) (moveRecs img) fun m => lacks m.fn m.cls) ++
    (eachRec (secPlace img 5) (winRecs img) fun w => lacks w.fn w.cls) ++
    (eachRec (secPlace img 8) (splitRecs img) fun r => lacks r.fn r.cls) ++
    (eachRec (secPlace img 9) (resRecs img) fun r => lacks r.fn r.cls)

/-- SPLIT faults: a forced path without the capacity of R23. -/
def splitCapacityFaults (img : List Byte) : List PlanFault :=
  let sec := secBytes img 2
  let cycles (f c : Nat) : Nat :=
    ((List.range 256).map fun i => (((burrowSlots sec i).filter fun b =>
      b.kind == 1 && b.fn == f && b.cls == c).map (·.budget)).sum).sum
  eachRec (secPlace img 8) (splitRecs img) fun r =>
    (r.mode == 1 && decide (r.slots < (slotRecOf img r.fn r.cls).slots * Config.probeCount r.fn r.cls)) ||
      (r.mode == 2 && decide (cycles r.fn r.cls < Config.burrowDemand r.fn r.cls r.index))

/-! ### The whole validation (R49, Table TK-8) -/

/-- FORMAT faults of the header and the directory. -/
def headerFaults (img : List Byte) (len : Nat) : List PlanFault :=
  let w0 := natAt img 0 8
  let w1 := natAt img 8 8
  let es := secEntries img
  let clash (a b : SecEnt) : Bool := decide (a.off < b.off + b.len) && decide (b.off < a.off + a.len)
  faultIf (field w0 0 32 != 0x4C504E51 || field w0 32 16 != 1 || field w1 32 32 != len || decide (len < 2) ||
      decide (0x04000000 < len) || field w1 16 8 != 9 || field w1 24 8 != 0 || field (natAt img 0x18 8) 8 56 != 0) 0 0 ++
    ((es.zipIdx.filter fun (e, i) =>
      e.kind == 0 || decide (9 < e.kind) || e.rsv != 0 || decide (e.off < 4) || decide (len < e.off + e.len) ||
        (es.zipIdx.any fun (g, j) => i != j && (g.kind == e.kind || clash e g))).map fun r => (r.2 + 1, 0))

/-- The checks of Table TK-8 in its order: reason, and the faults found. -/
def planChecks (s : State) (img : List Byte) (len : Nat) : List (Nat × List PlanFault) :=
  let es := secEntries img
  let digest := sha256 (img.take 0x20 ++ List.replicate 32 0 ++ img.drop 0x40)
  let comp := match s.host.comp.record with | some r => (digestWord (sha256 r) 0).toNat | none => 0
  let allocs := allocRecs img
  [ (0x01, headerFaults img len),
    (0x01, tileDirFaults (secBytes img 1) (secPlace img 1) ++ burrowDirFaults (secBytes img 2) (secPlace img 2)),
    (0x02, faultIf (field (natAt img 0 8) 48 16 != 0x0880 || field (natAt img 8 8) 0 8 != 0xB0) 0 0),
    (0x03, faultIf (bytesAt img 0x20 32 != digest) 0 0),
    (0x04, (es.zipIdx.filter fun (e, _) => crc32c (bytesAt img (64 * e.off) (64 * e.len)) != e.crc).map fun r => (r.2 + 1, 0)),
    (0x05, faultIf (natAt img 0x10 8 != comp) 0 0),
    (0x06, faultIf (decide (imgTickLen img < 5) || decide (80 < imgTickLen img)) 0 0),
    (0x07, tileCommandFaults img ++ burrowCommandFaults img ++ eachRec (secPlace img 4) (moveRecs img) (moveBad allocs) ++
      eachRec (secPlace img 5) (winRecs img) winBad ++ gateFaults s img ++ allocFaults img ++ splitFaults img ++
      resFaults img),
    (0x08, tileBudgetFaults img),
    (0x09, burrowBudgetFaults img),
    (0x0A, slotFaults s img),
    (0x0B, stileRangeFaults s img),
    (0x0C, moveWindowFaults s img ++ winWindowFaults img ++ gateWindowFaults img),
    (0x0D, resDemandFaults img),
    (0x0E, carryFaults s img),
    (0x0F, splitCapacityFaults img) ]

/-- The fault reported among some: the section that stands first, and in it the lowest record. -/
def firstPlace : List PlanFault → Option PlanFault
  | [] => none
  | f :: r => some (r.foldl (fun a b => if decide ([b.1, b.2] < [a.1, a.2]) then b else a) f)

/-- The outcome of a list of checks: reason, SECTION (0xFF for the header) and RECORD of TK_PLAN_STATUS. -/
def planOutcome : List (Nat × List PlanFault) → Nat × Nat × Nat
  | [] => (0, 0, 0)
  | (reason, fs) :: rest =>
    match firstPlace fs with
    | some (sec, rec) => (reason, if sec = 0 then 0xFF else sec - 1, rec)
    | none => planOutcome rest

/-- Validation of an image of `len` 64-byte units (R49). -/
def State.validate (s : State) (img : List Byte) (len : Nat) : Nat × Nat × Nat := planOutcome (planChecks s img len)

/-! ### PLAN_STAGE and PLAN_VALIDATION_DONE -/

/-- Form of PLAN_STAGE (Table HI-14), and the states in which it is refused (R49, R51). -/
def planStageCheck (s : State) (d : Desc) : Option Nat :=
  if s.isFallow then some stNotPermitted
  else if !zeros d [(1, 0, 48), (3, 0, 32), (4, 0, 64), (5, 0, 64), (6, 0, 64), (7, 0, 64)] then some stBad
  else if s.plan.validating.isSome || s.plan.swap.isSome then some stNotPermitted
  else none

/-- PLAN_STAGE: the image is copied into the staging slot, and its validation begins. -/
def planStageBody (s : State) (d : Desc) : State :=
  let img := memReadBytes s.hostMem (d.w 2) (64 * field (d.w 3) 32 32)
  { s with plan := { s.plan with
      staging := none, validating := some { fn := d.fn, ring := d.ring, seq := d.seq, image := img } } }

/-- PLAN_STAGE (R49, R379). -/
def execPlanStage (d : Desc) (s : State) : Host.Outcome State Fault Refusal :=
  .next (s.runDesc d 0x05 planStageCheck oneSlot planStageBody)

/-- PLAN_VALIDATION_DONE (R49): TK_PLAN_STATUS takes the outcome, and the descriptor completes. -/
def execPlanValidationDone (s : State) : Host.Outcome State Fault Refusal :=
  match s.plan.validating with
  | none => .next s
  | some v =>
    let (reason, sec, rec) := s.validate v.image (v.image.length / 64)
    let ok := reason == 0
    let s1 := { s with plan := { s.plan with
      staging := if ok then some { image := v.image, valid := true } else none
      validating := none, reason := reason, section_ := sec, record := rec } }
    .next (s1.finish v.fn v.ring v.seq
      { status := if ok then stOk else stPlanMismatch, flags := 0
        result := if ok then BitVec.ofNat 64 (imgDigest0 v.image) else 0 } [])

end Sys2Proof.Machine
end

