-- ==== Sys2Proof/Machine/Sources.lean ====
section
/-! DEFINITION. The sources of the tick: the tick line, the beacon, the root's time base, holdover, and the PTP clock (02
R29–R38, R41, 12 R308). -/

namespace Sys2Proof.Machine

/-! ### Tick-line frames (R29, R30) -/

/-- Bits of the scrambler x¹⁵ + x¹⁴ + 1 from a 15-bit state: each bit sent is the sum of the last two stages, which is fed
back (assumption 19). -/
def scrambleBits : Nat → Nat → List Bool
  | 0, _ => []
  | n + 1, st =>
    let b := st.testBit 14 != st.testBit 13
    b :: scrambleBits n ((2 * st + flag b) % 2 ^ 15)

/-- The 56 scrambler bits of a frame as a number: the first goes with bit 55 (R30). -/
def scrambleMask : Nat := (scrambleBits 56 0x7FFF).foldl (fun a b => 2 * a + flag b) 0

/-- Scramble or descramble a frame: bits [55:0] are added to the scrambler's. -/
def scrambled (f : Word64) : Word64 := f ^^^ BitVec.ofNat 64 scrambleMask

/-- A frame to be sent: TICK, EDGE, OFFSET and HOLD, with SYNC and CRC-8, scrambled. -/
def lineFrame (tick : Nat) (edge : Bool) (offset : Nat) (hold : Bool) : Word64 :=
  let f := word [(56, 8, 0xB9), (16, 40, tick), (15, 1, flag edge), (9, 6, offset), (8, 1, flag hold)]
  scrambled (f + BitVec.ofNat 64 (crc8 f.toNat))

/-- R40: a 40-bit field extended against a 64-bit count. -/
def extend40 (count field : Nat) : Nat :=
  let d := (field + 2 ^ 40 - count % 2 ^ 40) % 2 ^ 40
  if d < 2 ^ 39 then (count + d) % 2 ^ 64 else (count + 2 ^ 64 - (2 ^ 40 - d)) % 2 ^ 64

/-- SYNC and CRC-8 of a descrambled frame are good. -/
def frameGood (f : Nat) : Bool := field f 56 8 == 0xB9 && crc8 f == field f 0 8

/-- The continuity rule of R31 for a frame after one whose TICK is `prev`. -/
def frameFollows (f prev : Nat) : Bool :=
  if f.testBit 15 then field f 16 40 == (prev + 1) % 2 ^ 40 else field f 16 40 == prev

/-- The edge that an EDGE frame announces (R29): its extended number and its instant. -/
def State.frameEdge (s : State) (f atNs : Nat) : Word64 × Nat :=
  (BitVec.ofNat 64 (extend40 s.tick.count.toNat (field f 16 40)), atNs + 8 * field f 9 6 + 65536 - s.tkLineDelay)

/-- Put the receiver back. -/
def State.setLine (s : State) (l : Line) : State := { s with tick := { s.tick with line := l } }

/-- A follower sends on TICK_OUT what it regenerates (R33). -/
def State.regenerate (s : State) (f : Word64) : State :=
  if s.tkRoot then s else { s with tick := { s.tick with tickOut := some f } }

/-- A frame taken by a receiver in lock: its edge, if it announces one. -/
def State.acceptFrame (s : State) (f atNs : Nat) (raw : Word64) : State :=
  let l := s.tick.line
  let l1 := { l with
    tick40 := field f 16 40, lastAt := atNs, ignored := 0
    edge := if f.testBit 15 then some (s.frameEdge f atNs) else l.edge }
  (s.setLine l1).regenerate raw

/-- A frame that a receiver in lock ignores (R32): it is counted, and a follower sends one from its flywheel. -/
def State.ignoreFrame (s : State) (atNs : Nat) : State :=
  let l := s.tick.line
  let s1 := { s with tick := { s.tick with
    lineErr := bump s.tick.lineErr 1, line := { l with ignored := l.ignored + 1, lastAt := atNs } } }
  s1.regenerate (lineFrame l.tick40 false 0 true)

/-- The node has been counting ticks, so that a relock is compared with its count (R41). -/
def State.counting (s : State) : Bool := s.tick.phase != .none

/-- The third good frame in a row puts the receiver in lock (R31); a number behind the flywheel count refuses the source
(R41). -/
def State.lineLocks (s : State) (f atNs : Nat) (raw : Word64) : State :=
  let behind := s.counting && decide (extend40 s.tick.count.toNat (field f 16 40) < s.tick.count.toNat)
  let l := { s.tick.line with locked := true, run := 0, ignored := 0, lockTicks := 0, edge := none, refused := behind }
  let s1 := (s.setLine l).acceptFrame f atNs raw
  if behind then s1.raiseNamed .relockBehind [field f 16 40] else s1

/-- A frame while the receiver searches: a good frame that follows the one 64 bits before it lengthens the run; any other
good frame begins a new one (R31). -/
def State.searchFrame (s : State) (f atNs : Nat) (raw : Word64) : State :=
  let l := s.tick.line
  if !frameGood f then s.setLine { l with run := 0 }
  else
    let next := decide (0 < l.run) && decide (atNs = l.lastAt + 512) && frameFollows f l.tick40
    if next && l.run == 2 then s.lineLocks f atNs raw
    else s.setLine { l with run := if next then l.run + 1 else 1, tick40 := field f 16 40, lastAt := atNs }

/-- TICK_LINE_FRAME (R29–R33): a frame as it arrives, scrambled, and the arrival of its first bit. -/
def execTickLineFrame (frame : Word64) (atNs : Nat) (s : State) : Host.Outcome State Fault Refusal :=
  let f := (scrambled frame).toNat
  .next (if s.tick.line.locked then
      if frameGood f && frameFollows f s.tick.line.tick40 then s.acceptFrame f atNs frame else s.ignoreFrame atNs
    else s.searchFrame f atNs frame)

/-- LINE_LOCK_LOST (R32): after four ignored frames in a row the receiver leaves lock and searches again. -/
def execLineLockLost (s : State) : Host.Outcome State Fault Refusal :=
  let l := s.tick.line
  if l.locked && decide (4 ≤ l.ignored) then
    .next ((s.setLine { l with locked := false, run := 0, ignored := 0, lockTicks := 0, edge := none }).raiseNamed .lineLost [])
  else .next s

/-- ROOT_EDGE_ANNOUNCE (R33): the root sends an EDGE frame whose first bit leaves at an instant; OFFSET makes the announced
instant fall 65,536 ns before its next edge. -/
def execRootEdgeAnnounce (atNs : Nat) (s : State) : Host.Outcome State Fault Refusal :=
  let at_ := s.tick.edgeNs + s.tickNs
  if s.tkRoot && decide (atNs + 65536 ≤ at_) && decide (at_ < atNs + 65536 + 512) then
    let f := lineFrame (s.tick.count.toNat + 1) true ((at_ - 65536 - atNs) / 8) s.tick.hold
    .next { s with tick := { s.tick with tickOut := some f } }
  else .next s

/-- PPS_PULSE (R33): the root's time base takes the pulse as a whole second; its last edge keeps its distance from it. -/
def execPpsPulse (atNs : Nat) (s : State) : Host.Outcome State Fault Refusal :=
  if s.tkRoot then
    let sec := (atNs + 500000000) / 1000000000 * 1000000000
    .next { s with tick := { s.tick with pps := some sec, edgeNs := s.tick.edgeNs + sec - atNs } }
  else .next s

/-! ### Beacons (R35, R36) -/

/-- A beacon's payload is well formed. -/
def beaconGood (ws : List Word64) : Bool :=
  ws.length == 8 && field (nth ws 0) 0 8 == 1 && field (nth ws 7) 0 32 == crc32c ((wordsBytes ws).take 56)

/-- BEACON_RECEIVED (R35): the sender's flags are kept, and the edge of the root's beacon taken. -/
def execBeaconReceived (port : Nat) (payload : List Word64) (s : State) : Host.Outcome State Fault Refusal :=
  if !(s.port port).up then .next s
  else if !beaconGood payload then .next { s with tick := { s.tick with beaconErr := bump s.tick.beaconErr 1 } }
  else
    let node := field (nth payload 0) 32 32
    let p : PeerBeacon :=
      { node := node, flags := field (nth payload 0) 8 8, tick := BitVec.ofNat 64 (nth payload 1)
        planDigest := BitVec.ofNat 64 (nth payload 5), slack := field (nth payload 3) 32 16
        carried := field (nth payload 6) 0 32, age := 0, fresh := true }
    let peers := (s.tick.peers.filter fun q => q.node != node) ++ [p]
    let edge := field (nth payload 2) 0 48 * 1000000000 + field (nth payload 3) 0 32
    let b := s.tick.beacon
    let b1 := if node = s.beaconNode then { b with seen := true, edge := some (BitVec.ofNat 64 (nth payload 1), edge) } else b
    .next { s with tick := { s.tick with peers := peers, beacon := b1 } }

/-- BEACON_LOST (R36): two ticks without a valid root beacon; the source is lost. -/
def execBeaconLost (s : State) : Host.Outcome State Fault Refusal :=
  let b := s.tick.beacon
  if 2 ≤ b.missed then .next { s with tick := { s.tick with beacon := { b with lockTicks := 0, edge := none } } } else .next s

/-! ### The choice of source (R36, R38) -/

/-- Whether a source may be used and is in lock. -/
def State.sourceUp (s : State) (src : Source) : Bool :=
  match src with
  | .line => s.tkSrc != 3 && s.tick.line.locked && !s.tick.line.refused
  | .beacon => s.tkSrc != 2 && decide (0 < s.tick.beacon.lockTicks)
  | .none => false

/-- The primary source, and the other one. -/
def State.primary (s : State) : Source := if s.tkSrc = 1 || s.tkSrc = 3 then .beacon else .line
def State.secondary (s : State) : Source := if s.tkSrc = 1 || s.tkSrc = 3 then .line else .beacon

/-- Ticks for which a source has been in lock. -/
def State.sourceLock (s : State) (src : Source) : Nat :=
  match src with
  | .line => s.tick.line.lockTicks
  | .beacon => s.tick.beacon.lockTicks
  | .none => 0

/-- The source of the next edge: the one in use while it is up, else the other; none in holdover, which ends by
HOLDOVER_END. -/
def State.nextSource (s : State) : Source :=
  if s.tick.hold then .none
  else if s.sourceUp s.tick.src then s.tick.src
  else if s.sourceUp s.primary then s.primary
  else if s.sourceUp s.secondary then s.secondary
  else .none

/-- SOURCE_SWITCH_BACK (R36): the primary, in lock for 16 ticks, is taken back. -/
def execSourceSwitchBack (s : State) : Host.Outcome State Fault Refusal :=
  if !s.tick.hold && s.sourceUp s.primary && decide (16 ≤ s.sourceLock s.primary) then
    .next { s with tick := { s.tick with src := s.primary } }
  else .next s

/-- HOLDOVER_NOT_ALIGNED (R38): the accumulated error has passed 5 µs. -/
def execHoldoverNotAligned (s : State) : Host.Outcome State Fault Refusal :=
  if s.tick.hold && decide (5000000 < s.tick.holdErrPs) then .next { s with tick := { s.tick with notAligned := true } }
  else .next s

/-- HOLDOVER_END (R38): a source has been in lock for 16 ticks; the next edge is its own, and both flags clear. -/
def execHoldoverEnd (s : State) : Host.Outcome State Fault Refusal :=
  let ready (x : Source) : Bool := s.sourceUp x && decide (16 ≤ s.sourceLock x)
  if s.tick.hold && (ready s.primary || ready s.secondary) then
    .next { s with tick := { s.tick with
      src := if ready s.primary then s.primary else s.secondary, hold := false, notAligned := false, holdErrPs := 0 } }
  else .next s

/-! ### The PTP clock (R308) -/

/-- What the best master clock algorithm compares, most significant first. -/
def annKey (a : PtpAnnounce) : List Nat :=
  [a.priority1, a.clockClass, a.accuracy, a.variance, a.priority2, a.identity, a.stepsRemoved]

/-- PTP_ANNOUNCE: an Announce of the domain on an up port makes its sender the master when it is the better one, or is the
master already. -/
def execPtpAnnounce (port : Nat) (ann : PtpAnnounce) (s : State) : Host.Outcome State Fault Refusal :=
  if !(s.port port).up || ann.domain ≠ s.cfg 5 5 0 then .next s
  else
    let take := match s.ptp.master with
      | none => true
      | some (m, p) => (m.identity == ann.identity && p == port) || decide (annKey ann < annKey m)
    .next (if take then { s with ptp := { s.ptp with master := some (ann, port) } } else s)

/-- Whether a message comes from the chosen master. -/
def State.fromMaster (s : State) (port : Nat) (msg : PtpMsg) : Bool :=
  match s.ptp.master with
  | some (m, p) => m.identity == msg.identity && p == port && (s.port port).up
  | none => false

/-- A Sync with its time stamp: the offset, and lock once 16 in a row have been below 100 ns. -/
def State.syncDone (s : State) (stamp rx : Nat) : State :=
  let off : Int := (rx : Int) - (stamp : Int) - (s.ptp.delay : Int)
  let good := if off.natAbs < 100 then min 16 (s.ptp.good + 1) else 0
  let p := { s.ptp with pendingSync := none, lastSync := some (stamp, rx), offset := off, good := good }
  if good = 16 && !s.ptp.locked then { s with ptp := { p with locked := true } }.raiseNamed .ptpLocked [] else { s with ptp := p }

/-- PTP_SYNC: a Sync of the master, complete in one step, or waiting for its Follow_Up. -/
def execPtpSync (port : Nat) (msg : PtpMsg) (s : State) : Host.Outcome State Fault Refusal :=
  if !s.fromMaster port msg then .next s
  else if msg.twoStep then .next { s with ptp := { s.ptp with pendingSync := some (port, msg) } }
  else .next (s.syncDone msg.stampNs msg.rxNs)

/-- PTP_FOLLOW_UP: it brings the time stamp of the Sync that waits. -/
def execPtpFollowUp (port : Nat) (msg : PtpMsg) (s : State) : Host.Outcome State Fault Refusal :=
  match s.ptp.pendingSync with
  | some (p, m) =>
    if p = port && m.identity = msg.identity && m.seqId = msg.seqId && s.fromMaster port msg then
      .next (s.syncDone msg.stampNs m.rxNs)
    else .next s
  | none => .next s

/-- PTP_DELAY_REQ: a Delay_Req leaves on TC6 of the master's port; its transmit time is kept. -/
def execPtpDelayReq (port : Nat) (txNs : Nat) (s : State) : Host.Outcome State Fault Refusal :=
  match s.ptp.master with
  | some (_, p) =>
    if p = port && (s.port port).up then
      let msg : List Byte := beBytes 1 1 ++ beBytes 1 2 ++ beBytes 2 44 ++ beBytes 1 (s.cfg 5 5 0) ++ List.replicate 39 0
      let s1 := { s with ptp := { s.ptp with delayReq := some (port, txNs) } }
      .next (s1.enqueue port 6 { conn := none, len := 66, bytes := msg, endsRead := false })
    else .next s
  | none => .next s

/-- PTP_DELAY_RESP: the mean path delay of the Sync and the Delay_Req. -/
def execPtpDelayResp (port : Nat) (msg : PtpMsg) (s : State) : Host.Outcome State Fault Refusal :=
  match s.ptp.delayReq, s.ptp.lastSync with
  | some (p, tx), some (stamp, rx) =>
    if p = port && s.fromMaster port msg then
      let d : Int := ((rx : Int) - (stamp : Int) + ((msg.stampNs : Int) - (tx : Int))) / 2
      .next { s with ptp := { s.ptp with delay := d.toNat, delayReq := none } }
    else .next s
  | _, _ => .next s

/-- PTP_LOCK_LOST: eight Sync intervals without a Sync of the master; another is chosen. -/
def execPtpLockLost (s : State) : Host.Outcome State Fault Refusal :=
  let p := { s.ptp with locked := false, good := 0, master := none, pendingSync := none, delayReq := none }
  if s.ptp.locked then .next ({ s with ptp := p }.raiseNamed .ptpLost []) else .next { s with ptp := p }

end Sys2Proof.Machine
end

