-- ==== Sys2Proof/Machine/Spares.lean ====
section
/-! DEFINITION. The boundary's decisions on faults: spares, the redirects of channels, and NODE_FAULT
(15 R388–R400, 05 R147, R148). -/

namespace Sys2Proof.Machine

/-! ### Spares, in the row order of Table FS-2 (R392, R395) -/

/-- A mapping is noted as configuration flash keeps it, and SPARE_MAPPED raised: pool, physical part, logical part. -/
def State.mapSpare (s : State) (pool phys log : Nat) : State :=
  let s1 := { s with faults := { s.faults with mapped := s.faults.mapped ++ [(pool, phys, log)] } }
  s1.raise .spareMapped 0 pool phys log

/-- A failed tile is mapped out (R98): the next good row serves its logical tile. A third failed tile in a column is a
node fault. -/
def State.spareTile (s : State) (x p : Nat) : State :=
  if s.mesh.mappedOut.contains (x, p) then s
  else if 2 ≤ (s.mesh.mappedOut.filter fun m => m.1 == x).length then s.nodeFault 2 (64 * p + x)
  else
    let y := ((List.range 66).filter fun q => decide (q < p) && !s.mesh.mappedOut.contains (x, q)).length
    let s1 := { s with mesh := { s.mesh with mappedOut := s.mesh.mappedOut ++ [(x, p)] } }
    if y < 64 then s1.mapSpare 1 (64 * (s1.physTile (64 * y + x)).2 + x) (64 * y + x) else s1

/-- A failed wire is replaced by the link's spare wire (R99). -/
def State.spareWire (s : State) (x p d : Nat) : State :=
  let n := 4 * (64 * p + x) + d
  if s.mesh.spareWires.contains (x, p, d) then s.nodeFault 4 n
  else ({ s with mesh := { s.mesh with spareWires := s.mesh.spareWires ++ [(x, p, d)] } }).mapSpare 2 n n

/-- REDIRECT_START of a redirect that begins at this boundary (R397, R400). -/
def State.redirectStarts (s : State) (r : Redirect) : State :=
  s.raise .redirectStart 0 r.chan ((s.partner).getD 0) 0

/-- A redirect of a logical channel from this boundary on, in place of any other of it (R397). -/
def State.redirect (s : State) (ch : Nat) : State :=
  let r : Redirect := { chan := ch, start := s.tick.count, replayOnly := false, partner := s.partner.getD 0 }
  let rest := s.faults.redirects.filter fun y => y.chan != ch
  ({ s with faults := { s.faults with redirects := rest ++ [r] } }).redirectStarts r

/-- A failed unit (R147, R148): its channel goes to the stack's spare unit, whose store is loaded and whose refill starts,
and the channel is redirected to the partner; with no spare left the channel stays without a unit. -/
def State.spareUnit (s : State) (stack u : Nat) : State :=
  let x := s.stack stack
  let x1 := { x with failed := if x.failed.contains u then x.failed else x.failed ++ [u] }
  match x.chanOf u with
  | none => s.setStack stack x1
  | some c =>
    let ch := 32 * stack + c
    let spare := (List.range 33).find? fun v => !x1.failed.contains v && (x.chanOf v).isNone
    let rest := x.moved.filter fun m => m.1 != c
    let s1 := s.setBurrow { burrowReset ch with store := burrowProg (secBytes s.plan0 9) ch }
    match spare with
    | some v =>
      let s2 := (s1.setStack stack { x1 with
        moved := rest ++ [(c, some v)], spareUsed := true, refill := some c, refillNext := 0 }).mapSpare 3 (33 * stack + v) ch
      (s2.redirect ch).pumpRefill stack 16
    | none =>
      (s1.setStack stack { x1 with moved := rest ++ [(c, none)], secondLoss := true
                                   refill := if x.refill = some c then none else x.refill }).redirect ch

/-- Place of a pool in Table FS-2. -/
def Part.pool : Part → Nat
  | .tile _ _ => 1 | .wire _ _ _ => 2 | .unit _ _ => 3 | .stile _ => 4 | .die _ => 5

/-- A part that failed is decided (R392). Dies are rebuilt by the flash tier, stile entries remapped by the stile
engine. -/
def State.decidePart (s : State) (p : Part) : State :=
  if s.inHold then s
  else
    match p with
    | .tile x q => s.spareTile x q
    | .wire x q d => s.spareWire x q d
    | .unit k u => s.spareUnit k u
    | .stile _ => s
    | .die _ => s

/-- SPARE_MAPPING: every part fenced since the last boundary, pool by pool; then broken stile entries and failed
dies. -/
def State.spareMapping (s : State) : State :=
  let parts := (List.range 6).flatMap fun k => s.faults.fenced.filter fun p => p.pool == k
  let s1 := parts.foldl State.decidePart { s with faults := { s.faults with fenced := [] } }
  let s2 := s1.remapStiles
  if s2.inHold then s2 else s2.startRebuilds

/-! ### Redirects at a boundary (R397, R400) -/

/-- Whether a redirect ends at this boundary: it was for a replay that has run, or the refill of its unit has
completed. -/
def State.redirectOver (s : State) (r : Redirect) : Bool :=
  let x := s.stack (r.chan / 32)
  if r.replayOnly then decide (r.start.toNat < s.tick.count.toNat)
  else (x.unitOf (r.chan % 32)).isSome && x.refill != some (r.chan % 32) && r.start != s.tick.count

/-- REDIRECT_START of the redirects that begin here after an uncorrectable block; REDIRECT_END of those that end. -/
def State.redirectBoundary (s : State) : State :=
  let begins := s.faults.redirects.filter fun r => r.replayOnly && r.start == s.tick.count
  let s1 := begins.foldl State.redirectStarts s
  let over_ := s1.faults.redirects.filter s1.redirectOver
  let rest := s1.faults.redirects.filter fun r => !over_.contains r
  over_.foldl (fun s r => s.raise .redirectEnd 0 r.chan (s.tick.count - r.start).toNat 0)
    { s1 with faults := { s1.faults with redirects := rest } }

/-- The MEMORY event of a stack with a channel that is mapped to no unit, at every boundary (R148). -/
def State.tellSecondLoss (s : State) : State :=
  (List.range 8).foldl (fun s k => if (s.stack k).secondLoss then s.raiseNamed .channelLoss [k, 255, 255] else s) s

/-! ### NODE_FAULT (R388, R390) -/

/-- Rows of Table FS-1 whose scope is NODE. -/
def nodeRows : List Nat := [2, 4, 8, 15, 18, 23]

/-- NODE_FAULT: a fault of scope NODE that no other command brings puts the node in the fault hold. -/
def execNodeFault (row part : Nat) (s : State) : Host.Outcome State Fault Refusal :=
  .next (if nodeRows.contains row && !s.inHold then s.nodeFault row part else s)

end Sys2Proof.Machine
end

