-- ==== Sys2Proof/Machine/Boundary.lean ====
section
/-! DEFINITION. The tick edge: the end of a swath, the tick number and its source, and the boundary phase
(02 R36–R44, R57–R62; 15 R392; 16 R428, R434). -/

namespace Sys2Proof.Machine

/-! ### The end of a swath (R57, R61) -/

/-- The stile that a command waits on. -/
def waitStile (r : CmdRec) : Nat := if r.opcode = 0x11 then r.stile else 0xFFFF

/-- The commands and items that are unfinished when a tick ends, by engine: engine, opcode, phase, issue cycle, stile
waited on. -/
def State.unfinished (s : State) : List (Nat × Nat × Nat × Nat × Nat) :=
  let tiles := s.mesh.tiles.filterMap fun t =>
    match t.queue with
    | r :: _ => some (t.id, r.opcode, r.phase, r.issue, waitStile r)
    | [] => none
  let burrows := s.warren.burrows.filterMap fun b =>
    match b.running, b.item with
    | some _, some it => some (4096 + b.id, 0x80 + it.kind, 3, 0, match b.wait with | .stile i _ => i | _ => 0xFFFF)
    | some _, none => some (4096 + b.id, 0x80, 3, 0, match b.wait with | .stile i _ => i | _ => 0xFFFF)
    | none, _ => none
  tiles ++ burrows

/-- OVERRUN_CARRY: at an edge `cyc` tile cycles after the last one, unfinished commands are abandoned with their queues, the
items that they serve are carried, and one TICK event names the first stalled engine. -/
def State.abandon (s : State) (cyc : Nat) : State :=
  let left := s.unfinished
  if left.isEmpty && s.mesh.copies.isEmpty then { s with tick := { s.tick with overrun := false } }
  else
    let tiles := (left.filter fun e => decide (e.1 < 4096)).length + s.mesh.copies.length
    let traced (e : Nat) : Bool := if e < 4096 then s.tileTraced e else s.burrowTraced (e - 4096)
    let s1 := left.foldl (fun s e =>
      if traced e.1 then s.traceAbandon e.1 e.2.1 e.2.2.1 cyc (cyc - e.2.2.2.1) else s) s
    let s2 := s1.warren.burrows.foldl (fun s b =>
      match b.running with
      | some slot => s.poisonItems b.id (b.item.toList ++ (b.bound.filter fun x => x.1 == slot).map (·.2))
      | none => s) s1
    let e := left.headD (0, 0, 0, 0, 0xFFFF)
    let s3 := ((s2.total 7 tiles).total 16 1).raiseNamed .overrun [e.1, e.2.2.2.2]
    { s3 with tick := { s3.tick with overrun := true } }

/-- The slack of the tick that ends becomes that of the last completed tick, and STRAGGLER follows (R61). -/
def State.endSlack (s : State) : State :=
  let k := if s.tick.overrun then 0 else s.tick.slackNow.getD 0
  let hist := (k :: s.tick.slackHist).take 16
  { s with tick := { s.tick with
      slack := k, slackHist := hist, slackNow := none, straggler := hist.any fun x => decide (x < s.slackLow) } }

/-- A new swath: scratch, registers, queues, copies, bindings and items of the last one are gone (R57, R93). Of the moves
only those that are tried again stay. -/
def State.newSwath (s : State) : State :=
  { s with
    mesh := { s.mesh with tiles := [], copies := [], epoch := s.mesh.epoch + 1 }
    warren := { s.warren with
      burrows := s.warren.burrows.map fun b => { burrowReset b.id with store := b.store } }
    tiers := { s.tiers with moves := s.tiers.moves.filter (·.retried), bindings := [] } }

/-- The end of the running tick's swath. -/
def State.endSwath (s : State) (atNs : Nat) : State :=
  if s.running then (((s.abandon (cyclesOfNs (atNs - s.tick.edgeNs))).selectEdge).endSlack).newSwath
  else { s with tick := { s.tick with overrun := false, slackNow := none } }

/-! ### The edge and its source (R36–R40) -/

/-- The edge that a source has announced: number and instant. -/
def State.sourceEdge (s : State) (x : Source) : Option (Word64 × Nat) :=
  match x with
  | .line => s.tick.line.edge
  | .beacon => s.tick.beacon.edge
  | .none => none

/-- SOURCE_DISAGREEMENT: both sources are there and differ by more than 2 µs, or in number (R37). The event comes with the
first tick of a disagreement, and once in 1,024. -/
def State.sourceCheck (s : State) : State :=
  let differ := s.sourceUp .line && s.sourceUp .beacon &&
    (match s.tick.line.edge, s.tick.beacon.edge with
     | some a, some b => a.1 != b.1 || decide (a.2 + 2000 < b.2) || decide (b.2 + 2000 < a.2)
     | _, _ => false)
  if differ then
    let s1 := { s with tick := { s.tick with srcDiff := bump s.tick.srcDiff 1, diffRun := s.tick.diffRun + 1 } }
    if s1.tick.diffRun % 1024 = 1 then s1.raiseNamed .sourcesDiffer [] else s1
  else { s with tick := { s.tick with diffRun := 0 } }

/-- EDGE_OFF_POSITION: an edge more than 1 µs from where the tick length puts it (R39). -/
def State.edgeCheck (s : State) (atNs : Nat) : State :=
  let due := s.tick.edgeNs + s.tickNs
  if s.tick.phase != .none && (decide (due + 1000 < atNs) || decide (atNs + 1000 < due)) then
    ({ s with tick := { s.tick with lenErr := bump s.tick.lenErr 1 } }).raiseNamed .edgeOff [atNs, due]
  else s

/-- The ticks for which each source has been in lock, after one more edge (R36, R38). -/
def State.sourceTicks (s : State) : State :=
  let l := s.tick.line
  let b := s.tick.beacon
  let missed := if b.seen then 0 else b.missed + 1
  { s with tick := { s.tick with
      line := { l with lockTicks := if l.locked && !l.refused then l.lockTicks + 1 else 0 }
      beacon := { b with
        seen := false, missed := missed
        lockTicks := if b.seen then b.lockTicks + 1 else if missed ≥ 2 then 0 else b.lockTicks } } }

/-- The number of the next tick and whether a relock has moved it ahead (R40, R41). -/
def State.nextNumber (s : State) (x : Source) : Word64 × Bool :=
  let n := s.tick.count + 1
  match s.sourceEdge x with
  | some (k, _) => if k != n && seqLe n k then (k, true) else (n, false)
  | none => (n, false)

/-- The tile clock's count begins when the tile PLL first locks (R461), an instant before the first edge that the spec leaves
open. -/
def State.startClock (s : State) (atNs : Nat) : State :=
  if s.obs.trace.start.isSome then s
  else
    let at_ := atNs - s.freshWord.toNat % (atNs + 1)
    { s.tookFresh with obs := { s.obs with trace := { s.obs.trace with start := some at_ } } }

/-- Counts that start again after a reset start at this boundary (Table OB-11): SINCE 0 is none yet. -/
def State.stampSince (s : State) : State :=
  let images := s.obs.images.map fun i => if i.2.1 = 0 then (i.1, s.tick.count, i.2.2) else i
  { s with obs := { s.obs with images := images } }

/-- The edge is taken: the number of the tick that begins, its source or the holdover, and a tick length that comes into
force with it (R38, R40, R64). The root's own time base never is in holdover. -/
def State.takeEdge (s : State) (atNs : Nat) : State :=
  let src := s.nextSource
  let s1 := ((s.startClock atNs).sourceCheck.edgeCheck atNs)
  let (n, ahead) := s1.nextNumber src
  let held := src == .none && !s1.tkRoot
  let len := match s1.tick.lenSched with
    | some (len, t) => if seqLe t n then some len else none
    | none => none
  let s2 := { s1 with tick := { s1.tick with
    count := n, src := src, edgeNs := atNs, phase := .boundary, hold := s1.tick.hold || held
    holdErrPs := if held then s1.tick.holdErrPs + s1.tickNs / 50 else s1.tick.holdErrPs
    lenCur := len.getD s1.tick.lenCur
    lenSched := if len.isSome then none else s1.tick.lenSched
    lenNext := if len.isSome then 0 else s1.tick.lenNext } }
  let s3 := if ahead then s2.raiseNamed .relockAhead [n.toNat] else s2
  s3.sourceTicks

/-! ### Steps of the boundary -/

/-- PLAN_SWAP_ACTIVATE (R44, R50): the staged image becomes active, and the image that was active is staged; planned stiles
change, and the burrows' stores are loaded (R134). -/
def State.swapPlan (s : State) : State :=
  match s.plan.swap, s.plan.staging with
  | some (_, t), some img =>
    if t != s.tick.count then s
    else
      let back := match s.plan.active with | some a => if a.valid then some a else none | none => none
      let s1 := { s with plan := { s.plan with active := some img, staging := back, swap := none } }
      let s2 := s1.swapStiles img.image
      let sec := secBytes img.image 9
      (List.range 256).foldl (fun s b =>
        let prog := burrowProg sec b
        if prog.isEmpty && (s.burrow b).store.isEmpty then s
        else s.setBurrow { s.burrow b with store := prog }) s2
  | _, _ => s

/-- The step that runs from this edge on: the swath runs from the first edge with a plan on (R428, R429), and again from the
first edge after the wake has ended (R434). The first running edge after a boot or a wake is where the node rejoins its
domain (R405, R430). -/
def State.startSwath (s : State) : State :=
  let ready := match s.plan.active with | some a => a.valid | none => false
  let woken := s.power.step = 0x0B && s.power.wakeNs.isNone
  if s.power.step = 0x08 && ready then
    let s1 := { s with power := { s.power with step := 0x09 }, tick := { s.tick with swapped := true } }
    if s.power.warm then s1.startRejoin s.tick.count else s1.startSeeding
  else if woken then
    let s1 := { s with power := { s.power with step := if ready then 0x09 else 0x08, fallowSince := none } }
    s1.startRejoin (s.power.fallowSince.getD s.tick.count)
  else s

/-- WAKE_START (R434): the boundary that applies AWAKE ends fallow. -/
def State.wakeStart (s : State) : State :=
  if s.isFallow && !s.power.fallowAsked then
    let since := s.power.fallowSince.getD s.tick.count
    let s1 := { s with power := { s.power with step := 0x0B, wakeNs := some (s.tick.edgeNs + s.boundaryEndNs) } }
    s1.raise .fallowExit 0 0 s.tick.count.toNat (s.tick.count - since).toNat
  else s

/-- HOST_LINK_CHECK (R356): the width and rate in force, with HOST_LINK on a change. Table HI-16 gives the rate in GT/s; 2.5
is no whole number, and its word is a free value. -/
def State.linkCheck (s : State) : State :=
  let k := s.host.link
  let (w, r) := if k.up then (k.width, k.rate) else (0, 0)
  if w = k.lastWidth && r = k.lastRate then s
  else
    let s1 := { s with host := { s.host with link := { k with lastWidth := w, lastRate := r } } }
    if r = 1 then (s1.raise .hostLink 0 0 w s.freshWord.toNat).tookFresh else s1.raise .hostLink 0 0 w (halfRate r / 2)

/-- The sum of DEAD and of LEN + DLEN over the lists of an index. -/
def State.deadSums (s : State) (x : Index) : Nat × Nat :=
  let hs := (List.range (listCount x)).map (s.listHdr x)
  ((hs.map (·.dead)).sum, (hs.map fun h => h.len + h.dlen).sum)

/-- DEAD_SHARE_CHECK of one index (R182): at the warning share, and at each further point. -/
def State.deadShare (s : State) (x : Index) : State :=
  let (dead, all) := s.deadSums x
  if all = 0 then s
  else
    let pct := 100 * dead / all
    let told := match x.shareTold with | some p => decide (p < pct) | none => true
    if decide (x.deadWarn ≤ pct) && told then
      (s.setIndex { x with shareTold := some pct }).raise .deadShare x.fn x.obj pct all
    else s

/-- DEAD_SHARE_CHECK of every index. -/
def State.deadShares (s : State) : State := (s.search.indexes.filter fun x => !x.dropped).foldl State.deadShare s

/-- Snapshots that carried work still names (R58, R60). -/
def State.keepSnapshots (s : State) : State :=
  let jobs := s.search.shard.filterMap (·.snap)
  let looks := s.tables.lookups.map (·.tick)
  { s with search := { s.search with snapshots := (jobs ++ looks).dedup } }

/-- Objects that were dropped and that no carried work refers to any longer are released (R25, R177, R224). -/
def State.releaseDropped (s : State) : State :=
  let ixs := s.search.indexes.filter fun x =>
    x.dropped && !s.search.shard.any fun j => j.ask.fn == x.fn && j.ask.index == x.obj
  let tbs := s.tables.defs.filter fun t =>
    t.dropped && !s.tables.lookups.any fun l => l.fn == t.fn && l.table == t.obj
  let s1 := ixs.foldl (fun s x => s.releaseObject x.fn x.obj) s
  tbs.foldl (fun s t => s.releaseObject t.fn t.obj) s1

/-- SHED_TICKS of the classes whose admission slots the shedding steps have taken away (Table OB-4). -/
def State.shedTicks (s : State) : State :=
  (slotRecs s.plan0).foldl (fun s r =>
    if r.slots ≠ 0 && s.slotsOf r.fn r.cls = 0 then s.classBump r.fn r.cls 13 1 else s) s

/-- The remote quiesces that this boundary applies are acknowledged (R379). -/
def State.ackQuiesces (s : State) : State :=
  let s1 := s.host.quiesceAcks.foldl (fun s p => s.ackConn (Config.planConn 7 p) none) s
  { s1 with host := { s1.host with quiesceAcks := [] } }

/-- What the spec counts once per tick starts anew. -/
def State.newTick (s : State) : State :=
  { s with
    flash := { s.flash with opTold := false, issued := [] }
    tables := { s.tables with mismatched := [] }
    host := { s.host with rxDirty := [] }
    faults := { s.faults with serving := [] } }

/-- The TICK record with which a traced tick begins (R460). -/
def State.traceTick (s : State) : State := if s.tickTraced then s.traceRec s.edgeTime 1 0 s.tick.count else s

/-- The boundary phase of a tick (R44): spares first (R392); then the COMMITs, the snapshot, the planned stiles, the swap;
then what follows from them. -/
def State.boundary (s : State) : State :=
  let s1 := s.agePeers.newTick.stampSince.traceTick.spareMapping
  if s1.inHold then s1
  else
    let s2 := s1.applyCommits.wakeStart
    let s3 := s2.keepSnapshots.flrStiles.resetPlanned.swapPlan.startSwath
    let s4 := s3.redirectBoundary.tellSecondLoss.linkCheck.setCapacity.shedding.shedTicks
    let s5 := s4.partnerWatch.routing.reissueLost
    let s6 := s5.functions.foldl State.fnBoundary s5
    let s7 := s6.connsBoundary.ackQuiesces.armWatches
    let s8 := if s7.running then s7.selectLists.wearMove else s7
    let s9 := if s8.isFallow then s8 else s8.sweepLog.sweepSbs.checkRoom.askRefills
    s9.deadShares.releaseDropped.releaseRetired.writeJournal

/-- TICK_EDGE (R40). The node counts ticks from the LOCK step of boot on, and through the fault hold; boundaries run from the
PLAN step on (R428). A thermal trip and power-down stop the clocks (R415, R421). -/
def execTickEdge (atNs : Nat) (s : State) : Host.Outcome State Fault Refusal :=
  .next (if s.power.clocksStopped then s
    else if s.ticking then ((s.endSwath atNs).egressBoundary.takeEdge atNs).boundary
    else if s.power.step = 0x07 || s.inHold then s.takeEdge atNs
    else s)

end Sys2Proof.Machine
end

