-- ==== Sys2Proof/Machine/Reset.lean ====
section
/-! DEFINITION. Resets: FLR, PERST_N, the warm and the cold reset, and what each keeps (14 R373, R374; 16 R414–R416,
R422–R424, R429). -/

namespace Sys2Proof.Machine

/-! ### FLR (R374) -/

/-- The functions of the node that hold anything: the PF, the composed ones, and any that software has written to. -/
def State.allFns (s : State) : List Nat := (0 :: s.functions ++ s.host.fns.map (·.id)).dedup

/-- Work whose completion may be rebuilt after a reset (R375): administration work and updates that have ended. -/
def Work.lasting (w : Work) : Bool :=
  w.done.isSome && (w.ring == 0 || [0x21, 0x22, 0x23, 0x27, 0x28].contains w.opcode)

/-- Steps 1 and 2 of R374: a function's unfinished work is abandoned. Updates that are logged stay in the apply's queue. -/
def State.abandonWork (s : State) (f : Nat) : State :=
  let h := s.host
  let kept := h.work.filter fun w => w.fn == f && w.lasting
  let validating := match s.plan.validating with | some v => if v.fn = f then none else some v | none => none
  { s with
    host := { h with
      work := h.work.filter fun w => w.fn != f
      past := h.past ++ kept
      remoteQuiesce := h.remoteQuiesce.filter fun q => q.fn != f }
    search := { s.search with
      front := s.search.front.filter fun q => q.ask.fn != f
      shard := s.search.shard.filter fun j => !(j.own && j.ask.fn == f)
      selects := s.search.selects.filter fun j => j.fn != f
      outResults := s.search.outResults.filter fun o => !(o.2.1.isSome && o.1.fn == f) }
    tables := { s.tables with
      lookups := s.tables.lookups.filter fun l => l.fn != f
      loads := s.tables.loads.filter fun l => l.fn != f }
    flash := { s.flash with formats := s.flash.formats.filter fun j => j.fn != f }
    plan := { s.plan with validating := validating }
    obs := { s.obs with watches := s.obs.watches.filter fun w => w.fn != f } }

/-- Step 3: an open transaction is rolled back. `cause` is 1 for an FLR, 2 for a warm reset (Table HI-16). -/
def State.abortTxn (s : State) (f cause : Nat) : State :=
  match s.host.txns.find? fun t => t.fn == f with
  | none => s
  | some t =>
    let txns := s.host.txns.filter fun t => t.fn != f
    { s with host := { s.host with txns := txns } }.raise .txnAbort f f t.beginSeq.toNat cause

/-- A ring pair that a reset disables; its history and its other registers stay. -/
def ringOff (x : Ring) : Ring :=
  { x with state := .disabled, haltReason := 0, cfg := BitVec.ofNat 64 (x.cfg.toNat / 2 * 2), dirty := false, wrote := false }

/-- An event or receive ring that a reset disables. -/
def sideOff (x : SideRing) : SideRing :=
  { x with state := .disabled, haltReason := 0, cfg := BitVec.ofNat 64 (x.cfg.toNat / 2 * 2) }

/-- A function's rings after an FLR, with its MSI-X structures at their reset values. -/
def fnOff (g : Fn) : Fn :=
  { g with
    rings := g.rings.map ringOff, ev := sideOff g.ev, rx := sideOff g.rx, msix := List.replicate 64 msixEntryReset
    pba := 0 }

/-- Step 4: rings, stiles and connections of a function. A connection in its error state is released at once. -/
def State.fnReleases (s : State) (f : Nat) : State :=
  let s1 := s.setFn (fnOff (s.fn f))
  let mine := (s1.stiles.table.filter fun p =>
    p.2.state == .function && p.2.owner == f && !s1.stiles.flrMarked.contains p.1).map (·.1)
  let s2 := { s1 with stiles := { s1.stiles with flrMarked := s1.stiles.flrMarked ++ mine } }
  let conns := (s2.fabric.conns.filter fun c => c.fn == f && !c.sys).map (·.num)
  conns.foldl (fun s n => (s.discardFrames n).releaseConn n) s2

/-- What a reset of one function does (R374). -/
def State.flrOne (s : State) (cause f : Nat) : State := ((s.abandonWork f).abortTxn f cause).fnReleases f

/-- The functions that an FLR of f acts on: that of the PF clears VF Enable. -/
def State.flrScope (s : State) (f : Nat) : List Nat := if f = 0 then s.allFns else [f]

/-- FLR (R374). -/
def execFlr (fn : Nat) (s : State) : Host.Outcome State Fault Refusal :=
  .next ((s.flrScope fn).foldl (fun s f => s.flrOne 1 f) s)

/-! ### PERST_N (R423, R424) -/

/-- PERST_N, which is ignored while PWR_GOOD is low (R498): the PCIe link goes down, and every function is reset as by an FLR
of the PF. Before the composition has been
accepted the composition registers are reset as well. -/
def execPerstN (s : State) : Host.Outcome State Fault Refusal :=
  let s1 := (s.flrScope 0).foldl (fun s f => s.flrOne 1 f) s
  let k := s1.host.link
  let link : HostLink := { linkReset with perst := true, lastWidth := k.lastWidth, lastRate := k.lastRate }
  let comp := if s1.host.comp.accepted then s1.host.comp else compositionReset
  .next (if s.power.pwrGood then { s1 with host := { s1.host with link := link, comp := comp } } else s)

/-- PERST_N_RELEASE: the link may train again. -/
def execPerstNRelease (s : State) : Host.Outcome State Fault Refusal :=
  .next { s with host := { s.host with link := { s.host.link with perst := false } } }

/-- HOST_LINK_STATE_CHANGE: the link has trained to a width and rate (Table MP-9), or gone down. While PERST_N is asserted it
stays down. -/
def execHostLinkStateChange (up flit : Bool) (width rate : Nat) (s : State) : Host.Outcome State Fault Refusal :=
  let k := s.host.link
  let link : HostLink :=
    if up && !k.perst then { k with up := true, flit := flit, width := width, rate := rate }
    else { k with up := false, flit := false, width := 0, rate := 0 }
  .next { s with host := { s.host with link := link } }

/-! ### The warm reset (R422, R424, R429) -/

/-- Whether the log record of an update item is durable on flash. -/
def State.itemDurable (s : State) (u : UpItem) : Bool :=
  s.flash.log.any fun e => e.durable && e.bytes == recBytes u

/-- The tick engine when a boot begins: no source, no phase; the counters stay (R422, R429). -/
def tickRestart (t : TickState) : TickState :=
  { tickReset with
    count := t.count, lenCur := t.lenCur, lineErr := t.lineErr, beaconErr := t.beaconErr, srcDiff := t.srcDiff
    lenErr := t.lenErr }

/-- A port when a boot begins: down until the LOCK step; failed lanes, degradation and counters stay. -/
def portRestart (x : Port) : Port :=
  { portReset with degraded := x.degraded, half := x.half, failed := x.failed, counters := x.counters }

/-- A system connection that is to be opened again. -/
def connRestart (c : Conn) : Conn :=
  { connBase c.num c.fn c.tc c.ports c.kind true with
    port := c.port, peerHi := c.peerHi, peerLo := c.peerLo, peerMac := c.peerMac, peerConn := c.peerConn, mtu := c.mtu
    cgen := c.cgen, nextPsn := c.nextPsn, expPsn := c.expPsn }

/-- A port's egress when a boot begins: queues empty; the counters stay. -/
def egPortRestart (x : EgPort) : EgPort := { egPortReset with counters := x.counters }

/-- A memory stack when a boot begins: nothing throttles yet. -/
def stackRestart (x : Stack) : Stack := { x with level := 0, thermal := 0, powerLevel := 0 }

/-- The plan slots: a validated image waits for its revalidation (R429). -/
def planRestart (p : PlanState) : PlanState :=
  { planReset with
    active := p.active.map fun a => { a with valid := false }
    staging := match p.staging with | some a => if a.valid then some { a with valid := false } else none | none => none }

/-- What a warm reset keeps, once it has acted on every function as an FLR does: T1, the items but HI_FALLOW, objects,
regions, stiles, plan slots, and what flash holds. -/
def State.warmState (s : State) : State :=
  let fab := s.fabric
  { s with
    tick := tickRestart s.tick
    ptp := ptpReset
    plan := planRestart s.plan
    items := s.items.filter fun i => !(i.block == 1 && i.number == 0)
    host := { s.host with
      fns := s.host.fns.map fun g =>
        { g with rings := g.rings.map fun x => { x with history := none }, quiesced := false, quiesceNext := none }
      commits := [], comp := compositionReset, rxDirty := [], remoteQuiesce := [], quiesceAcks := [] }
    mesh := { s.mesh with tiles := [], copies := [] }
    warren := { s.warren with dram := s.warren.dram.map stackRestart, burrows := [], resending := [] }
    tiers := { s.tiers with moves := [], bindings := [] }
    search := { searchReset with indexes := s.search.indexes, nextJob := s.search.nextJob }
    tables := { tablesReset with
      defs := s.tables.defs, queue := s.tables.queue.filter s.itemDurable, results := s.tables.results
      partnerTick := s.tables.loggedHere, loggedHere := s.tables.loggedHere, loggedThere := s.tables.loggedThere
      watermarks := s.tables.watermarks, duplicates := s.tables.duplicates }
    flash := { s.flash with reads := [], recon := [], formats := [], issued := [] }
    fabric := { fabricReset with
      ports := fab.ports.map portRestart, counters := fab.counters
      conns := (fab.conns.filter (·.sys)).map connRestart, released := fab.released, rma := fab.rma, mcast := fab.mcast
      nextMcast := fab.nextMcast, residents := fab.residents, ctxBase := fab.ctxBase, ctxCount := fab.ctxCount }
    egress := { s.egress with ports := s.egress.ports.map egPortRestart, gates := [] }
    faults := { s.faults with rejoin := .none, serving := [] }
    regs := { regsReset with
      serialLo := s.regs.serialLo, serialHi := s.regs.serialHi, macBase := s.regs.macBase, avsFuse := s.regs.avsFuse
      badAccess := s.regs.badAccess }
    obs := { s.obs with
      totals := obsReset.totals, classes := [], images := s.obs.images.map fun i => (i.1, 0, 0)
      trace := { s.obs.trace with staged := [], lost := 0, lostTime := 0 }, watches := [] } }

/-- A boot is in progress: a step of Table PW-6 before RUNNING. -/
def State.booting (s : State) : Bool := decide (1 ≤ s.power.step) && decide (s.power.step ≤ 8)

/-- A warm-reset request. It is ignored in reset and in the safe state (R453). During a boot the boot restarts, and the request
is counted; what a cold boot had lost stays lost. -/
def State.warmReset (s : State) : State :=
  if s.power.step = 0 || s.inSafe || !s.power.pwrGood then s
  else
    let s1 := (s.allFns.foldl (fun s f => s.flrOne 2 f) s).warmState
    let p := s.power
    { s1 with power := { p with
        step := 1, fail := 0, detail := 0, trip := false, fallowAsked := false, fallowSince := none, wakeNs := none
        clocksStopped := false, warm := if s.booting then p.warm else true
        restarts := if s.booting then min (p.restarts + 1) 0xFFFFFFFF else p.restarts } }

/-- WARM_RESET. -/
def execWarmReset (s : State) : Host.Outcome State Fault Refusal := .next s.warmReset

/-! ### The cold reset (R414–R416, R422) -/

/-- The bytes of stacked memory that segment maps take: a segment map is read back from flash by the FLASH step (R425), and
stands where it stood. -/
def State.mapSpan (s : State) (g : Segment) : Nat × Nat := (g.map, 64 + 112 * (s.segHdr g.map).sheaves)

/-- The part of stacked memory that comes back with the segment maps. -/
def State.mapCells (s : State) : List Host.Cell :=
  let spans := s.flash.segs.map s.mapSpan
  s.t1.filter fun c => spans.any fun m => decide (m.1 ≤ c.1) && decide (c.1 < m.1 + m.2)

/-- The regions in use that hold segment maps. -/
def State.mapAllocs (s : State) : List (Nat × Nat × Nat × Nat × Nat) :=
  s.tiers.allocs.filter fun a => s.flash.segs.any fun g => g.map == chanAddr a.1 a.2.1

/-- A die until the FLASH step has identified it. -/
def dieUnseen (x : Die) : Die := { x with state := if x.state = .good then .absent else x.state }

/-- A stack as the mappings of configuration flash give it at a cold boot (R124). -/
def stackCold (x : Stack) : Stack :=
  { stackReset with failed := x.failed, bootOut := x.failed, spareUsed := x.failed.any fun u => decide (u < 32) }

/-- What a cold reset keeps (R422): flash with its journal and watermarks, configuration flash, fuses, host memory. The
context allowances of Table FB-10 are those that the items held; the BIST configuration, which only the next BIST step uses
(R449), stays while power is good. -/
def State.coldState (s : State) : State :=
  let fl := s.flash
  let marks := (s.host.fns.filter fun g => g.adminMark.isSome).map fun g => { fnReset g.id with adminMark := g.adminMark }
  let (base, count, _) := s.itemVals 0 5 0x0C 0
  { State.reset with
    host := { hostReset with
      fns := marks, link := { linkReset with perst := s.host.link.perst } }
    stiles := { stilesReset with sparesUsed := s.stiles.sparesUsed }
    mesh := { meshReset with mappedOut := s.mesh.mappedOut, spareWires := s.mesh.spareWires }
    warren := { warrenReset with dram := s.warren.dram.map stackCold }
    tiers := { tiersReset with allocs := s.mapAllocs }
    tables := { tablesReset with watermarks := s.tables.watermarks }
    flash := { flashReset with
      dies := fl.dies.map dieUnseen, sbs := fl.sbs, vols := fl.vols, words := fl.words, log := fl.log, nextLsn := fl.nextLsn
      logOpen := fl.logOpen, segOpen := fl.segOpen, segs := fl.segs, lost := fl.lost, nextRead := fl.nextRead
      serial := fl.serial, jPending := fl.jPending, journal := fl.journal, checkpoint := fl.checkpoint
      rootPage := fl.rootPage, remaps := fl.remaps, blockBad := fl.blockBad }
    fabric := { fabricReset with
      residents := s.cfg 5 0x0B 0, ctxBase := base, ctxCount := count }
    t1 := s.mapCells
    hostMem := s.hostMem
    faults := { faultsReset with mapped := s.faults.mapped }
    power := { powerReset with pwrGood := s.power.pwrGood, sysRstN := s.power.sysRstN, rails := s.power.rails }
    test := { testReset with
      lc := s.test.nextLc.getD s.test.lc, keyFused := s.test.keyFused, keyHash := s.test.keyHash
      erasePending := s.test.erasePending, eraseTo := s.test.eraseTo, board := s.test.board
      badBlocks := s.test.badBlocks, jtag := s.test.jtag, cfg := s.test.cfg, seed := s.test.seed }
    regs := { regsReset with
      serialLo := s.regs.serialLo, serialHi := s.regs.serialHi, macBase := s.regs.macBase, avsFuse := s.regs.avsFuse }
    obs := { obsReset with trace := { obsReset.trace with start := s.obs.trace.start, epoch := s.obs.trace.epoch } }
    free := s.free
    pending := s.pending }

/-- COLD_RESET: SYS_RST_N goes low. The node is held in reset until it rises. -/
def execColdReset (s : State) : Host.Outcome State Fault Refusal :=
  let s1 := s.coldState
  .next { s1 with power := { s1.power with sysRstN := false } }

/-- SYS_RST_N_RISE: boot begins, if the supply is good (R414). -/
def execSysRstNRise (s : State) : Host.Outcome State Fault Refusal :=
  let p := s.power
  let go := p.pwrGood && !p.sysRstN && p.step == 0 && p.fail == 0
  .next { s with power := { p with sysRstN := true, step := if go then 1 else p.step } }

/-- The ranges of Table PK-10 in whole mV, with the range of R419 at the boot target for VDD_CORE. -/
def railRanges : List (Nat × Nat) :=
  [(1710, 1890), (1164, 1236), (725, 800), (728, 772), (728, 772), (1019, 1081), (1140, 1260)]

/-- The first rail out of its range. -/
def badRail (rails : List (Nat × Nat)) : Option Nat :=
  (List.range 7).find? fun i =>
    let v := (rails.getD i (0, 0)).1
    let r := railRanges.getD i (0, 0)
    decide (v < r.1) || decide (r.2 < v)

/-- PWR_GOOD_RISE (R414, R416): with the rails' readings. A rail out of range keeps the node in reset; boot begins when
SYS_RST_N is high as well. -/
def execPwrGoodRise (rails : List (Nat × Nat)) (s : State) : Host.Outcome State Fault Refusal :=
  .next (if s.power.pwrGood then s
    else
      let s0 := s.coldState
      let s1 := { s0 with obs := obsReset, test := { s0.test with cfg := 0, seed := 0 } }
      let p := { s1.power with pwrGood := true, rails := rails, avsRead := (rails.getD 2 (0, 0)).1 }
      match badRail rails with
      | some r => { s1 with power := { p with fail := 1, detail := r } }
      | none => { s1 with power := { p with step := if p.sysRstN then 1 else 0 } })

/-- PWR_GOOD_FALL (R415): the swath stops, erases in progress are never resumed, and all clocks stop. -/
def execPwrGoodFall (s : State) : Host.Outcome State Fault Refusal :=
  let sbs := s.flash.sbs.map fun x => if x.state = .erasing then { x with state := .unknown, suspended := true } else x
  .next (if s.power.pwrGood then
      { s with
        flash := { s.flash with sbs := sbs }
        power := { s.power with pwrGood := false, step := 0, fail := 0, detail := 0, clocksStopped := true } }
    else s)

end Sys2Proof.Machine
end

