-- ==== Sys2Proof/Machine/Compose.lean ====
section
/-! DEFINITION. The composition record: its loading and its checks (14 R359–R362, 15 R404, 19 R475). -/

namespace Sys2Proof.Machine

/-! ### The checks of Table HI-5A (R360, R362) -/

/-- ENTRIES of a record. -/
def recEntries (rec : List Byte) : Nat := field (wordAt rec 0) 0 13

/-- Function of an entry. -/
def entFn (e : List Byte) : Nat := field (wordAt e 0) 52 12

/-- Reserved bits of the node part and of the port table that are set. -/
def headReserved (rec : List Byte) : Bool :=
  field (wordAt rec 0) 13 3 != 0 || wordAt rec 0x20 != 0 || wordAt rec 0x28 != 0 || wordAt rec 0x30 != 0 ||
    field (wordAt rec 0x38) 32 32 != 0 || (List.range 8).any fun p => natAt rec (0x44 + 32 * p) 12 != 0

/-- Reserved bits of a function entry that are set. -/
def entReserved (e : List Byte) : Bool :=
  field (wordAt e 0) 45 7 != 0 || field (wordAt e 0) 11 21 != 0 || field (wordAt e 8) 0 3 != 0 ||
    field (wordAt e 16) 13 31 != 0 || field (wordAt e 24) 43 5 != 0 || field (wordAt e 24) 0 22 != 0 ||
    natAt e 32 32 != 0

/-- Reason FORMAT. -/
def recMalformed (rec : List Byte) (len : Nat) : Bool :=
  let n := recEntries rec
  field (wordAt rec 0) 32 32 != 0x434F4D50 || field (wordAt rec 0) 16 16 != 1 || n == 0 || decide (4096 < n) ||
    len != 0x140 + 64 * n || headReserved rec || (compEntries rec).any entReserved

/-- The record's CRC-32C, with its own four bytes taken as zero. -/
def recCrc (rec : List Byte) : Nat := crc32c (rec.take 0x38 ++ [0, 0, 0, 0] ++ rec.drop 0x3C)

/-- Whether a list of numbers rises strictly. -/
def rising : List Nat → Bool
  | a :: b :: r => decide (a < b) && rising (b :: r)
  | _ => true

/-- Whether two stile ranges overlap. -/
def stilesOverlap (a b : List Byte) : Bool :=
  decide (entStileFirst a < entStileFirst b + entStileCount b) && decide (entStileFirst b < entStileFirst a + entStileCount a) &&
    entStileCount a != 0 && entStileCount b != 0

/-- Whether some two ranges of a list overlap. -/
def anyOverlap : List (List Byte) → Bool
  | a :: r => r.any (stilesOverlap a) || anyOverlap r
  | [] => false

/-- The first reason of Table HI-5A that applies to a record read with a length; 0 where it is accepted. -/
def State.compReason (s : State) (rec : List Byte) (len : Nat) : Nat :=
  let es := compEntries rec
  let base := wordAt rec 0x10
  let size := wordAt rec 0x18
  if recMalformed rec len then 1
  else if recCrc rec ≠ field (wordAt rec 0x38) 0 32 then 2
  else if !rising (es.map entFn) then 3
  else if decide (2015 < (es.map entT1).sum) then 4
  else if anyOverlap es || es.any fun e => decide (16384 < entStileFirst e + entStileCount e) then 5
  else if decide (s.fabric.residents < (es.map entResident).sum + 2) || decide (s.fabric.ctxCount < (es.map entSpilled).sum) then 6
  else if decide (s.flashRoom < (es.map entFlash).sum * 2 ^ 30) then 7
  else if base % 4096 ≠ 0 || size % 4096 ≠ 0 || decide (2 ^ 64 < base + size) then 8
  else if !(es.map entFn).contains 0 then 9
  else 0

/-! ### LOAD (R359, R475) -/

/-- The longest record: 4,096 entries. -/
def recTop : Nat := 0x140 + 64 * 4096

/-- A write of LOAD to CP_CTRL: in the composition step, while no other is under way, the record is read at the address and
length held. `domains` is the routing table that comes with the composition (R404). -/
def State.compLoad (s : State) (domains : List Domain) : State :=
  let c := s.host.comp
  if s.power.step ≠ 7 || c.busy then { s with host := { s.host with comp := { c with loadIgnored := bump c.loadIgnored 1 } } }
  else
    let rec_ := memReadBytes s.hostMem c.recAddr.toNat (min c.recLen.toNat recTop)
    { s with
      host := { s.host with comp := { c with
        loading := some rec_, busy := true, done := false, accepted := false, record := none } }
      faults := { s.faults with domains := domains } }

/-- COMPOSITION_LOAD. -/
def execCompositionLoad (host : HostBytes) (domains : List DomainRec) (s : State) : Host.Outcome State Fault Refusal :=
  .next ((s.hostSets host).compLoad (domains.map fun d =>
    { shard := d.shard, node0 := d.node0, node1 := d.node1, w0 := 0, w1 := 0, solo := false }))

/-- COMPOSITION_CHECK_DONE: the shepherd reports the outcome; an accepted record is in force. -/
def execCompositionCheckDone (s : State) : Host.Outcome State Fault Refusal :=
  let c := s.host.comp
  .next (match c.loading with
    | none => s
    | some rec_ =>
      let r := s.compReason rec_ c.recLen.toNat
      let ok := r == 0
      { s with host := { s.host with comp := { c with
          loading := none, busy := false, done := true, accepted := ok, reason := r
          record := if ok then some rec_ else none } } })

end Sys2Proof.Machine
end

