-- ==== Sys2Proof/Machine/Boot.lean ====
section
/-! DEFINITION. The boot sequence and the shepherd (16 R425–R432; 02 R41; 10 R247, R270, R271, R274). -/

namespace Sys2Proof.Machine

/-! ### The outcomes of Table PW-8 -/

/-- The safe state, with a code and a detail of Table PW-7. -/
def State.safe (s : State) (fail detail : Nat) : State :=
  { s with power := { s.power with step := 0x0D, fail := fail, detail := detail } }

/-- The boot goes on with a step. -/
def State.bootStep (s : State) (step : Nat) : State := { s with power := { s.power with step := step } }

/-! ### ROM and SRAM (R431) -/

/-- The ROM step ends: both cores run again, or the one whose self-check passed. In BLANK and DEAD the node goes to the safe
state; while an erase of the life cycle is pending, the erase runs again before anything else (R442). -/
def State.bootRom (s : State) (primary twin : Bool) : State :=
  let cores : Shepherd := if primary && twin then .both else if primary then .primary else .twin
  let s1 := { s with power := { s.power with shepherd := cores } }
  if !primary && !twin then s.safe 3 0
  else if s.test.lc = .blank || s.test.lc = .dead then s1.safe 0 0
  else if s.test.erasePending then s1
  else
    let s2 := s1.bootStep 2
    if primary && twin then s2 else (s2.raise .shepherdSolo 0 (flag !primary) s.freshWord.toNat 0).tookFresh

/-- A unit that is mapped out at boot (R124): the channel that it would have served, and those after it, move to the next
good units. -/
def State.bootUnit (s : State) (stack u : Nat) : State :=
  let x := s.stack stack
  if x.failed.contains u then s
  else
    let c := x.chanOf u
    let y := { x with failed := x.failed ++ [u], bootOut := x.bootOut ++ [u], spareUsed := x.spareUsed || c.isSome }
    let s1 := s.setStack stack y
    match c with
    | some c => match y.unitOf c with
      | some v => s1.mapSpare 3 (33 * stack + v) (32 * stack + c)
      | none => s1
    | none => s1

/-- Whether two units of a stack would be out. -/
def State.unitsOut (s : State) (units : List (Nat × Nat)) : Option Nat :=
  (List.range 8).find? fun k =>
    let more := (units.filter fun u => u.1 == k && !(s.stack k).failed.contains u.2).dedup
    decide (2 ≤ (s.stack k).failed.length + more.length) && !more.isEmpty

/-- Whether three tiles of a column would be out. -/
def State.tilesOut (s : State) (tiles : List (Nat × Nat)) : Bool :=
  tiles.any fun t => decide (3 ≤ ((s.mesh.mappedOut ++ tiles).dedup.filter fun m => m.1 == t.1).length)

/-- The SRAM step ends. The number of the array is not known of a tile or unit that finds no spare: it is a free value. -/
def State.bootSram (s : State) (array : Option Nat) (tiles units : List (Nat × Nat)) : State :=
  match array with
  | some a => s.safe 4 a
  | none =>
    if s.tilesOut tiles || (s.unitsOut units).isSome then s.tookFresh.safe 4 (s.freshWord.toNat % 65536)
    else
      let s1 := tiles.foldl (fun s t => s.spareTile t.1 t.2) s
      let s2 := units.foldl (fun s u => s.bootUnit u.1 u.2) s1
      if s.power.bistPassed then s2.bootStep 4
      else { s2 with test := { s2.test with running := false, samples := 0 } }.bootStep 3

/-! ### STACKS and FLASH -/

/-- The STACKS step ends. After a warm boot a unit that fails is fenced, and the first boundary redirects its channel. -/
def State.bootStacks (s : State) (units : List (Nat × Nat)) (whole : Option Nat) : State :=
  match whole with
  | some k => s.safe 6 k
  | none =>
    match s.unitsOut units with
    | some k => s.safe 6 k
    | none =>
      let one (s : State) (u : Nat × Nat) : State :=
        if s.power.warm then s.fence (.unit u.1 u.2) else s.bootUnit u.1 u.2
      (units.foldl one s).bootStep 5

/-- A die as its identification leaves it (R247, R255): one that passes is GOOD, unless it has failed or retired; one that
does not is ABSENT, with a MEDIA event. -/
def State.identify (s : State) (found : List (Nat × Nat × Nat)) (d : Nat) : State :=
  let x := s.die d
  match found.find? fun y => y.1 == d && decide (3200 ≤ y.2.1) && decide (2048 ≤ y.2.2) && decide (y.2.2 ≤ 2176) with
  | some (_, mt, blocks) =>
    let used (p : Nat) : Nat := (s.flash.remaps.filter fun r => r.1 == d && r.2.1 == p).length
    s.setDie { x with
      state := if x.state = .absent then .good else x.state, mtS := min mt 4800
      reserve := (List.range 4).map fun p => blocks - 2048 - used p }
  | none =>
    let s1 := if s.flash.dies.any fun y => y.id == d then s.setDie { x with state := .absent } else s
    s1.raiseNamed .dieState [d, DieState.absent.code]

/-- Superblocks at boot: an erase that was cut short begins again (R270), an open superblock is closed (R271). -/
def sbBoot (x : Superblock) : Superblock :=
  match x.state with
  | .erasing | .unknown => { x with state := .unknown, suspended := false }
  | .open_ => { x with state := .full }
  | _ => x

/-- What the journal's replay leaves of flash: pages whose program was not journalled hold nothing, and log records that were
not durable are gone (R271, R274). -/
def State.replay (s : State) : State :=
  let f := s.flash
  let isOpen (w : Codeword) : Bool :=
    let x := s.sb w.set w.plane w.block
    x.state == .open_ && !x.programmed.contains w.page
  let s1 := { s with flash := { f with
    sbs := f.sbs.map sbBoot, words := f.words.filter fun w => !isOpen w, log := f.log.filter (·.durable)
    logOpen := none, segOpen := none, jPending := [] } }
  (s1.flash.sbs.filter fun x => x.state == .unknown).foldl (fun s x => s.jot 1 [x.set, x.plane, x.block]) s1

/-- With neither journal copy readable no volume is mounted, and nothing of the journal's is known (R427). -/
def State.noJournal (s : State) : State :=
  let s1 := { s with
    flash := { s.flash with
      vols := [], words := [], log := [], segs := [], journal := [], jPending := [], checkpoint := none, rootPage := none }
    tables := { s.tables with watermarks := [] }
    power := { s.power with fail := 7, detail := 0 } }
  s1.raiseNamed .mediaLost []

/-- The FLASH step ends. -/
def State.bootFlash (s : State) (dies : List (Nat × Nat × Nat)) (journal : Bool) : State :=
  let s1 := (List.range 512).foldl (fun s d => s.identify dies d) s
  (if journal then s1.replay else s1.replay.noJournal).bootStep 6

/-! ### LOCK (R41) -/

/-- The tick number that the newest checkpoint holds; 0 where the journal is blank. -/
def State.checkTick (s : State) : Nat := match s.flash.checkpoint with | some t => t.toNat | none => 0

/-- The number of the tick that runs, by the tick line: its field extended against the checkpoint; the edge of the last EDGE
frame may still be to come. -/
def State.lineStart (s : State) : Nat × Bool :=
  let l := s.tick.line
  let coming := match l.edge with | some (_, t) => decide (l.lastAt < t) | none => false
  (extend40 s.checkTick l.tick40, coming)

/-- The starting count (R41): the number taken, whether its edge is still to come, and the source. The root, which has no
source, goes on from its checkpoint. -/
def State.startCount (s : State) : Option (Nat × Bool × Source) :=
  let line := s.tick.line.locked && s.tkSrc != 3
  let beacon := if s.tkSrc = 2 then none else s.tick.beacon.edge
  if s.tkRoot then some (max s.checkTick s.tick.count.toNat, false, .none)
  else if line && (s.flash.checkpoint.isSome || s.tkSrc == 2) then
    let (n, coming) := s.lineStart
    some (n, coming, .line)
  else
    match beacon with
    | some (n, _) => some (n.toNat, true, .beacon)
    | none => none

/-- The LOCK step ends when a source is there; a number behind the checkpoint holds the node in the step. -/
def State.bootLock (s : State) : State :=
  match s.startCount with
  | none => s
  | some (n, coming, src) =>
    if n < s.checkTick then
      { s with power := { s.power with fail := 8, detail := 0 } }.raiseNamed .startBehind [n, s.checkTick]
    else
      let l := s.tick.line
      let edge := if src = .line && coming then l.edge.map fun e => (BitVec.ofNat 64 n, e.2) else none
      let fail := if s.power.fail = 8 then 0 else s.power.fail
      { s with
        tick := { s.tick with
          count := BitVec.ofNat 64 (if coming then n - 1 else n), src := src, phase := .none, line := { l with edge := edge } }
        power := { s.power with step := 7, fail := fail } }

/-! ### PLAN (R429) -/

/-- The image of a slot that held a validated one, after its revalidation. -/
def State.revalidate (s : State) (p : Option PlanSlot) : Option PlanSlot :=
  match p with
  | none => none
  | some a => if (s.validate a.image (a.image.length / 64)).1 = 0 then some { a with valid := true } else none

/-- The revalidation of a warm boot: of the active image, and of a staged one, which has VALID clear until now. -/
def State.bootPlan (s : State) : State :=
  let again (p : Option PlanSlot) : Option PlanSlot :=
    match p with
    | some a => if a.valid then some a else s.revalidate (some a)
    | none => none
  { s with plan := { s.plan with active := again s.plan.active, staging := again s.plan.staging } }

/-- BOOT_STEP_COMPLETE (Tables PW-6 and PW-8): the step in progress ends with what it found. A report of another step does
nothing, and the BIST step ends by BIST_COMPLETE. -/
def execBootStepComplete (r : BootReport) (s : State) : Host.Outcome State Fault Refusal :=
  .next (match s.power.step, r with
    | 1, .rom primary twin => s.bootRom primary twin
    | 2, .sram array tiles units => s.bootSram array tiles units
    | 4, .stacks units whole => s.bootStacks units whole
    | 5, .flash dies journal => s.bootFlash dies journal
    | 6, .done => s.bootLock
    | 7, .done => if s.host.comp.accepted then s.bootStep 8 else s
    | 8, .done => s.bootPlan
    | _, _ => s)

/-! ### The shepherd alone (R432) -/

/-- SHEPHERD_SOLO: a mismatch of which one core has detected its own error; the other, `core` 0 primary or 1 twin, goes on
alone. A lone core has no comparator, and an error of it is a NODE fault. -/
def execShepherdSolo (core kind : Nat) (s : State) : Host.Outcome State Fault Refusal :=
  .next (if s.power.step = 0 then s
    else if s.power.shepherd = .both then
      { s with power := { s.power with shepherd := if core = 0 then .primary else .twin } }.raise .shepherdSolo 0 core kind 0
    else s.faultHold 0x0A 18 18 core)

end Sys2Proof.Machine
end

