-- ==== Sys2Proof/Machine/Power.lean ====
section
/-! DEFINITION. Supply, clocks, adaptive voltage, heat, fallow and wake (16 R416–R421, R433, R434, Table PW-11; 01 R27). -/

namespace Sys2Proof.Machine

/-! ### Supply and clocks (R416, R418) -/

/-- SUPPLY_FAULT: a rail has been out of range for 10 µs or longer. -/
def execSupplyFault (rail mv us : Nat) (s : State) : Host.Outcome State Fault Refusal :=
  let amps := (s.power.rails.getD rail (0, 0)).2
  let p := { s.power with rails := s.power.rails.set rail (mv, amps), avsRead := if rail = 2 then mv else s.power.avsRead }
  let s1 := { s with power := p }
  .next (if us < 10 || s.power.step = 0 then s1
    else (s1.raise .supplyFault 0 rail mv us).faultHold 1 rail 23 rail)

/-- PLL_LOCK_TIMEOUT: a PLL that has not locked keeps the node in reset. -/
def execPllLockTimeout (pll : Nat) (s : State) : Host.Outcome State Fault Refusal :=
  .next (if s.power.step = 1 then { s with power := { s.power with step := 0, fail := 2, detail := pll } } else s)

/-- PLL_LOCK_LOSS: a NODE fault. Table FS-1 has no row for it, so that the fault's kind in its event is a free value. -/
def execPllLockLoss (pll : Nat) (s : State) : Host.Outcome State Fault Refusal :=
  .next (s.tookFresh.faultHold 2 pll s.freshWord.toNat pll)

/-! ### Adaptive voltage (R419) -/

/-- AVS_CHANGE: a new target, in a 5 mV step of 600–800 mV and at most 10 mV from the last, once logic BIST is over. -/
def execAvsChange (temp target : Nat) (s : State) : Host.Outcome State Fault Refusal :=
  let p := { s.power with dieTemp := temp }
  let old := p.avsTarget
  let ok := decide (4 ≤ p.step) && decide (p.step ≤ 0x0B) && decide (600 ≤ target) && decide (target ≤ 800) && target % 5 == 0 &&
    decide (target ≤ old + 10) && decide (old ≤ target + 10) && target != old
  .next (if ok then
      { s with power := { p with avsOld := old, avsTarget := target, avsPending := true } }.raise .avsChange 0 2 target old
    else { s with power := p })

/-- AVS_LATE: 100 ms have passed, and the monitor has not seen the change. -/
def execAvsLate (mv : Nat) (s : State) : Host.Outcome State Fault Refusal :=
  let s1 := { s with power := { s.power with avsRead := mv } }
  .next (if s.power.avsPending then s1.raise .avsLate 0 2 s.power.avsTarget mv else s1)

/-- AVS_TARGET_SEEN: the monitor reads the new target. -/
def execAvsTargetSeen (mv : Nat) (s : State) : Host.Outcome State Fault Refusal :=
  .next { s with power := { s.power with avsRead := mv, avsPending := false } }

/-! ### Heat (R421, R437) -/

/-- DIE_WARN: the hottest compute-die sensor has reached PW_THERM_WARN. -/
def execDieWarn (sensor temp : Nat) (s : State) : Host.Outcome State Fault Refusal :=
  let p := { s.power with dieTemp := temp }
  .next (if decide (s.cfg 9 0 0 ≤ temp) && !p.thermWarn then
      { s with power := { p with thermWarn := true } }.raise .dieWarn 0 sensor temp 0
    else { s with power := p })

/-- DIE_WARN_END: it has read at least 2 °C below the threshold for 100 ms. -/
def execDieWarnEnd (sensor temp : Nat) (s : State) : Host.Outcome State Fault Refusal :=
  let p := { s.power with dieTemp := temp }
  .next (if decide (temp + 2 ≤ s.cfg 9 0 0) && p.thermWarn then
      { s with power := { p with thermWarn := false } }.raise .dieWarnEnd 0 sensor temp 0
    else { s with power := p })

/-- THERMAL_TRIP: from 115 °C on the compute die, 100 °C on a stack. The fault hold, THERM_N, and then the clocks stop. -/
def execThermalTrip (onStack : Bool) (sensor temp : Nat) (s : State) : Host.Outcome State Fault Refusal :=
  let limit := if onStack then 100 else 115
  let s0 :=
    if onStack then s.setStack sensor { s.stack sensor with temp := temp }
    else { s with power := { s.power with dieTemp := temp } }
  .next (if temp < limit || !s.power.pwrGood then s0
    else
      let s1 := s0.raise (if onStack then .stackTrip else .dieTrip) 0 sensor temp 0
      let s2 := s1.faultHold 9 0 23 sensor
      { s2 with power := { s2.power with trip := true, clocksStopped := true } })

/-! ### Fallow and wake (R27, R433, R434) -/

/-- Whether all accepted work is done, carried work included; a watch may wait longer, and what stands behind it. -/
def State.workDone (s : State) : Bool :=
  (s.host.work.all fun w => w.done.isSome || w.opcode == 0x30) && s.search.front.isEmpty && s.search.shard.isEmpty &&
    s.search.outResults.isEmpty && s.tables.lookups.isEmpty

/-- FALLOW_ENTER: at a tick edge, once fallow has been asked for and the work is done. Tiles and burrows lose what they
hold. -/
def execFallowEnter (s : State) : Host.Outcome State Fault Refusal :=
  let at_ := s.tick.phase == .boundary && (s.power.step == 8 || s.power.step == 9)
  .next (if at_ && s.power.fallowAsked && s.workDone then
      let s1 := { s with
        power := { s.power with step := 0x0A, fallowSince := some s.tick.count }
        mesh := { s.mesh with tiles := [], copies := [] }
        warren := { s.warren with burrows := [] } }
      s1.raise .fallowEnter 0 0 s.tick.count.toNat 0
    else s)

/-- WAKE_COMPLETE: 2.5 ms after wake began. The micro-program stores hold the active plan again, and watches whose tick has
passed end without data (R465). The node rejoins at the next tick edge. -/
def execWakeComplete (s : State) : Host.Outcome State Fault Refusal :=
  .next (if s.power.step = 0x0B && s.power.wakeNs.isSome then
      let s1 := { s with power := { s.power with wakeNs := none } }
      let sec := secBytes s1.plan0 9
      let s2 := (List.range 256).foldl (fun s b =>
        let prog := burrowProg sec b
        if prog.isEmpty then s else s.setBurrow { s.burrow b with store := prog }) s1
      (s2.obs.watches.filter fun w => w.armed && w.atTick && w.dumping.isNone && !seqLe s2.tick.count w.target).foldl
        State.watchNone s2
    else s)

end Sys2Proof.Machine
end

