-- ==== Sys2Proof/Machine/SelfTest.lean ====
section
/-! DEFINITION. Logic BIST and the life cycle (17 R438–R451, R453). -/

namespace Sys2Proof.Machine

/-! ### The BIST step (R445, R447) -/

/-- BT_ILIMIT in A: byte 0 of the board record, 300 A where it is out of range (R439, Table MP-11). -/
def SelfTest.boardLimit (t : SelfTest) : Nat :=
  let b := (t.board.getD 0 0).toNat
  10 * (if 15 ≤ b && b ≤ 60 then b else 30)

/-- The test's registers when the BIST step begins. -/
def bistBegin (t : SelfTest) : SelfTest :=
  { t with
    code := 0, arg := 0, peak := 0, tripGroup := 15, fallback := false, uncoreFail := false, done := false
    running := true, tileFail := [], samples := 0, limit := t.boardLimit }

/-- The run that a sample falls in: ten samples of the check, then 400 to a run of 40 ms. -/
def SelfTest.run (t : SelfTest) : Nat := (t.samples - 10) / 400

/-- BIST has stopped with a code and the node is held in reset (Table BT-4). -/
def State.bistStops (s : State) (code arg : Nat) : State :=
  { s with
    test := { s.test with code := code, arg := arg, done := true, running := false }
    power := { s.power with step := 0, fail := 5, detail := code * 8192 + arg } }

/-- The safe state with a BIST code. -/
def State.bistSafe (s : State) (code arg : Nat) : State :=
  { s with test := { s.test with code := code, arg := arg } }.safe 5 (code * 8192 + arg)

/-- BIST_CURRENT_SAMPLE: a sample of the supply monitor, every 100 µs: VDD_CORE current and voltage, and the test clock. -/
def execBistCurrentSample (amps mv mhz : Nat) (s : State) : Host.Outcome State Fault Refusal :=
  let t := if s.test.running then s.test else bistBegin s.test
  let run := t.run
  let inRun := decide (10 ≤ t.samples)
  let past := inRun && decide (t.limit < amps)
  let t1 := { t with
    samples := t.samples + 1, peak := if inRun then max t.peak (min 255 (amps / 4)) else t.peak
    fallback := t.fallback || past, tripGroup := if past && !t.fallback then min run 8 else t.tripGroup }
  let s1 := { s with test := t1 }
  .next (if s.power.step ≠ 3 then s
    else if mv < 735 || 765 < mv then s1.bistStops 1 run
    else if mhz < 792 || 808 < mhz then s1.bistStops 2 run
    else if past && t.fallback then s1.bistStops 3 run
    else s1)

/-! ### Results (R449–R451) -/

/-- Whether a BIST is configured: only TEST and RETURNED have a configuration. -/
def SelfTest.configured (t : SelfTest) : Bool := (t.lc == .test || t.lc == .returned) && t.cfg != 0

/-- Duration of a BIST: 360 ms, or 720 − 40k with fallback from group k; of a configured one it is not stated. -/
def State.bistMs (s : State) : Nat :=
  let t := s.test
  if t.configured then s.freshWord.toNat
  else if t.fallback then 720 - 40 * t.tripGroup else 360

/-- The failed tiles of a report, the lower rows last. -/
def failedTiles (r : BistReport) : List (Nat × Nat) :=
  ((List.range 66).reverse.flatMap fun p => r.tiles.filter fun t => t.2 == p).dedup

/-- The lowest column that three or more failed tiles share. -/
def badColumn (tiles : List (Nat × Nat)) : Option Nat :=
  (List.range 64).find? fun x => decide (3 ≤ (tiles.filter fun t => t.1 == x).length)

/-- A PASS maps its failed tiles; the argument is the number of tiles in use that were mapped. -/
def State.bistPass (s : State) (tiles : List (Nat × Nat)) : State :=
  let s1 := tiles.foldl (fun s t => s.spareTile t.1 t.2) s
  let n := s1.faults.mapped.length - s.faults.mapped.length
  { s1 with
    test := { s1.test with code := 0, arg := n }
    power := { s1.power with step := 4, bistPassed := true } }

/-- BIST_COMPLETE: every run has ended, and the first case of Table BT-4 that applies decides. A configured BIST with another
seed compares nothing, and a configured one maps nothing. -/
def execBistComplete (r : BistReport) (s : State) : Host.Outcome State Fault Refusal :=
  let conf := s.test.configured
  let judged := !conf || s.test.seed == Config.romSeed
  let all := if judged then (failedTiles r ++ s.mesh.mappedOut).dedup else []
  let s0 := if conf then s.tookFresh else s
  let s1 := { s0 with test := { s0.test with
    done := true, running := false, timeMs := s.bistMs, tileFail := all
    uncoreFail := judged && !r.uncore.isEmpty
    groupSig := (List.range 18).map fun i => r.sigs.getD i 0 } }
  .next (if s.power.step ≠ 3 then s
    else
      match (if judged then r.uncore.head? else none), (if judged then r.routers.head? else none), badColumn all, r.unwritten with
      | some b, _, _, _ => s1.bistSafe 4 b
      | none, some x, _, _ => s1.bistSafe 5 x
      | none, none, c, w =>
        if conf then s1.bistPass []
        else
          match c, w with
          | some x, _ => s1.bistSafe 6 x
          | none, some x => s1.bistSafe 7 x
          | none, none => s1.bistPass (failedTiles r))

/-! ### The life cycle (R440–R443) -/

/-- Every outcome of a request gives a fresh nonce. -/
def State.newNonce (s : State) : State := { s.tookFresh with test := { s.test with nonce := s.freshWord } }

/-- A request or an access is refused and counted. -/
def State.lcRefuse (s : State) : State := { s with test := { s.test with refused := bump s.test.refused 1 } }

/-- The public key's coordinates and the signature that BT_LC_AUTH holds, as numbers. -/
def SelfTest.authNat (t : SelfTest) (i : Nat) : Nat := beNat (bytesAt t.auth (48 * i) 48)

/-- Whether BT_LC_AUTH holds a good signature for an OP (R441). -/
def State.lcSigned (s : State) (op : Nat) : Bool :=
  let t := s.test
  let msg := leBytes 8 s.regs.serialLo.toNat ++ leBytes 8 s.regs.serialHi.toNat ++ leBytes 8 t.nonce.toNat ++ leBytes 1 op
  t.keyFused && sha384 (t.auth.take 96) == t.keyHash &&
    ecdsaVerify (t.authNat 0) (t.authNat 1) (beNat (sha384 msg)) (t.authNat 2) (t.authNat 3)

/-- A transition that only blows a fuse. -/
def State.lcTo (s : State) (lc : LcState) : State := { s.newNonce with test := { s.newNonce.test with lc := lc } }

/-- A refused request. -/
def State.lcNo (s : State) : State := s.lcRefuse.newNonce

/-- An accepted signed request (R442): ERASE_PENDING is blown, the swath stops as in the fault hold, and the erase begins. -/
def State.lcErase (s : State) (lc : LcState) : State :=
  let s1 := s.newNonce
  { s1 with
    test := { s1.test with erasePending := true, eraseTo := some lc }
    power := { s1.power with step := if s1.inSafe then 0x0D else 0x0C } }

/-- A signed request from PROVISIONED or DEPLOYED. -/
def State.lcSignedTo (s : State) (op : Nat) (lc : LcState) : State :=
  if (s.test.lc = .provisioned || s.test.lc = .deployed) && !s.test.erasePending && s.lcSigned op then s.lcErase lc else s.lcNo

/-- A write of an OP to BT_LC_CMD (Table BT-3). -/
def State.lcRequest (s : State) (op : Nat) : State :=
  match op, s.test.lc with
  | 1, .blank =>
    if s.test.nextLc.isSome then s.lcNo else { s.newNonce with test := { s.newNonce.test with nextLc := some .test } }
  | 2, .test =>
    let s1 := s.lcTo .provisioned
    { s1 with test := { s1.test with keyFused := true, keyHash := sha384 (s1.test.auth.take 96) } }
  | 3, .provisioned => if s.test.erasePending then s.lcNo else s.lcTo .deployed
  | 4, _ => s.lcSignedTo 4 .returned
  | 5, .test => (s.lcTo .dead).safe 0 0
  | 5, .returned => (s.lcTo .dead).safe 0 0
  | 5, _ => s.lcSignedTo 5 .dead
  | _, _ => s.lcNo

/-- TO_TEST. -/
def execToTest (s : State) : Host.Outcome State Fault Refusal := .next (s.lcRequest 1)
/-- TO_PROVISIONED. -/
def execToProvisioned (s : State) : Host.Outcome State Fault Refusal := .next (s.lcRequest 2)
/-- TO_DEPLOYED. -/
def execToDeployed (s : State) : Host.Outcome State Fault Refusal := .next (s.lcRequest 3)
/-- TO_RETURNED. -/
def execToReturned (s : State) : Host.Outcome State Fault Refusal := .next (s.lcRequest 4)
/-- TO_DEAD. -/
def execToDead (s : State) : Host.Outcome State Fault Refusal := .next (s.lcRequest 5)

/-- LC_ERASE_COMPLETE (R442, R443): stacked memory holds zeros, flash holds nothing, regions, connections, stiles and the
composition are cleared, with all that T1 held of objects and plans; the new state is fused, and the node is in the safe
state. `bad` lists the blocks whose erase failed. -/
def execLcEraseComplete (bad : List (Nat × Nat × Nat)) (s : State) : Host.Outcome State Fault Refusal :=
  .next (match s.test.erasePending, s.test.eraseTo with
    | true, some lc =>
      { s with
        t1 := []
        flash := { flashReset with dies := s.flash.dies, counters := s.flash.counters }
        fabric := { s.fabric with conns := [], rma := [], mcast := [], mwrites := [], waiting := [], out := [], lru := [] }
        stiles := { stilesReset with sparesUsed := s.stiles.sparesUsed }
        plan := planReset, search := searchReset, tables := tablesReset
        tiers := { s.tiers with moves := [], bindings := [], allocs := [], retired := [] }
        host := { s.host with work := [], txns := [], commits := [], past := [], remoteQuiesce := [], comp := compositionReset }
        test := { s.test with
          lc := lc, erasePending := false, eraseTo := none, badBlocks := s.test.badBlocks ++ bad } }.safe 0 0
    | _, _ => s)

end Sys2Proof.Machine
end

