-- ==== Sys2Proof/Machine/Observe.lean ====
section
/-! DEFINITION. The count image and the trace ring (18 R457–R463). -/

namespace Sys2Proof.Machine

/-! ### The count image (R457, R458, Tables OB-1 to OB-5) -/

/-- The tables of a function in ascending TB_OBJECT. -/
def State.fnTables (s : State) (f : Nat) : List TableDef :=
  (s.tables.defs.filter fun t => t.fn == f && !t.dropped).foldl (fun l t => putBy TableDef.obj t l) []

/-- A table entry (Table OB-5). -/
def tableEntry (t : TableDef) : List Byte :=
  wordsBytes [BitVec.ofNat 64 t.obj, t.drops.getD 0 0, t.drops.getD 1 0, t.drops.getD 2 0, t.drops.getD 3 0, 0, 0, 0]

/-- Table entries that a buffer of a length takes. -/
def tablesFit (len n : Nat) : Nat := min n ((len - 8 - 0x2940) / 64)

/-- The bytes of a function's count image in a buffer of a length, with an IMAGE_SEQ. -/
def State.countImage (s : State) (f len : Nat) (since seq : Word64) : List Byte :=
  let ts := s.fnTables f
  let n := tablesFit len ts.length
  let head := wordsBytes [seq, s.tick.count, since,
    word [(52, 12, f), (32, 1, flag (decide (n < ts.length))), (16, 16, n), (0, 16, 80)],
    word [(0, 32, 0x2940 + 64 * n + 8)], 0, 0, 0]
  let node := if f = 0 then s.obs.totals ++ List.replicate 11 0 else List.replicate 32 0
  let classes := (List.range 80).flatMap fun c => wordsBytes (s.classCounts f c).words
  head ++ wordsBytes node ++ classes ++ (ts.take n).flatMap tableEntry ++ wordsBytes [seq]

/-- COUNT_IMAGE_WRITE: in the egress window of a tick whose number is a multiple of PERIOD, after the completions and the ring
status blocks. -/
def execCountImageWrite (fn : Nat) (s : State) : Host.Outcome State Fault Refusal :=
  let (addr, len, period) := s.itemVals 0 1 1 fn
  let (since, seq) := match s.obs.images.find? fun i => i.1 == fn with | some i => (i.2.1, i.2.2) | none => (s.tick.count, 0)
  let next := seq + 1
  .next (if s.tick.phase ≠ .egress || addr = 0 || period = 0 || s.tick.count.toNat % period ≠ 0 || !s.host.link.up then s
    else
      let s1 := s.hostWrite addr (s.countImage fn len since next)
      let images := (s.obs.images.filter fun i => i.1 != fn) ++ [(fn, since, next)]
      { s1 with obs := { s1.obs with images := images } })

/-! ### The trace ring (R461–R463) -/

/-- A staged record in its place: by TIME, then by the order of one TIME. -/
def traceInsert (r : Nat × Nat × Word64 × Word64) : List (Nat × Nat × Word64 × Word64) → List (Nat × Nat × Word64 × Word64)
  | [] => [r]
  | x :: l => if decide ([r.1, r.2.1] < [x.1, x.2.1]) then r :: x :: l else x :: traceInsert r l

/-- Staged records in the order of R462. -/
def traceSort (l : List (Nat × Nat × Word64 × Word64)) : List (Nat × Nat × Word64 × Word64) :=
  l.foldl (fun a r => traceInsert r a) []

/-- One record goes to the next index of the ring. -/
def State.traceWrite (s : State) (r : Nat × Nat × Word64 × Word64) : State :=
  let (base, log2, _) := s.itemVals 0 1 2 0
  let t := s.obs.trace
  let s1 := s.hostWrite (base + 16 * (t.written.toNat % 2 ^ log2)) (wordsBytes [r.2.2.1, r.2.2.2])
  ({ s1 with obs := { s1.obs with trace := { t with written := t.written + 1, sinceStatus := t.sinceStatus + 1 } } }).total 18 1

/-- TRACE_STATUS_WRITE: the staged records are written in their order, and then, when there were any, the trace status block.
Without a trace ring nothing is kept. -/
def execTraceStatusWrite (s : State) : Host.Outcome State Fault Refusal :=
  let (base, log2, at_) := s.itemVals 0 1 2 0
  let rs := traceSort s.obs.trace.staged
  let empty (s : State) : State := { s with obs := { s.obs with trace := { s.obs.trace with staged := [], sinceStatus := 0 } } }
  .next (if base = 0 then empty s
    else if rs.isEmpty || !s.host.link.up then s
    else
      let s1 := rs.foldl State.traceWrite s
      let t := s1.obs.trace
      empty (s1.hostWrite at_ (wordsBytes [t.written, BitVec.ofNat 64 (t.written.toNat % 2 ^ log2), t.epoch])))

/-- TRACE_WRAP: TIME has wrapped; the WRAP record holds the new EPOCH. -/
def execTraceWrap (s : State) : Host.Outcome State Fault Refusal :=
  let epoch := s.obs.trace.epoch + 1
  let s1 := { s with obs := { s.obs with trace := { s.obs.trace with epoch := epoch } } }
  .next (if (s.itemVals 0 1 2 0).1 = 0 || s.obs.trace.start.isNone then s1
    else s1.traceRec (epoch.toNat * 2 ^ 48) 5 0 epoch)

/-- TRACE_LOST_RECORD: space has returned; the LOST record carries the number lost, at the TIME of the first. -/
def execTraceLostRecord (s : State) : Host.Outcome State Fault Refusal :=
  let t := s.obs.trace
  .next (if t.lost = 0 || stagingCap ≤ t.staged.length then s
    else ({ s with obs := { s.obs with trace := { t with lost := 0, lostTime := 0 } } }).traceRec t.lostTime 6 0
      (BitVec.ofNat 64 t.lost))

end Sys2Proof.Machine
end

