-- ==== Sys2Proof/Machine/Windows.lean ====
section
/-! DEFINITION. The windows of a tick after its boundary: ingest with the ring fetch, the end of ingest, the egress window,
the guard phase with the beacon and the apply (02 R35, R42, R59–R61; 14 R366, R367). -/

namespace Sys2Proof.Machine

/-! ### The ring fetch (R367) -/

/-- What a fetched descriptor meets: the status that ends it at once, if any, and the slots it takes. Of administration
descriptors only ring, issuer and CLASS are judged here: the rest rests on the descriptors before them. -/
def descVerdict (s : State) (d : Desc) : Option Nat × Nat :=
  let op := d.opcode
  let with_ (check : State → Desc → Option Nat) (need : Nat) : Option Nat × Nat :=
    match formCheck d op with
    | some e => (some e, need)
    | none => (check s d, need)
  if adminOp op then (formCheck d op, 1)
  else
    match op with
    | 0x20 => with_ searchCheck 1
    | 0x21 => with_ (upCheck 0x21) 1
    | 0x22 => with_ (upCheck 0x22) 1
    | 0x23 => with_ (upCheck 0x23) 1
    | 0x24 => with_ selectCheck (selPieces s d)
    | 0x25 => with_ (lookupCheck false) 1
    | 0x26 => with_ (lookupCheck true) 1
    | 0x27 => with_ (upCheck 0x27) 1
    | 0x28 => with_ (upCheck 0x28) 1
    | 0x30 => with_ watchCheck 1
    | _ => (some stBad, 1)

/-- The descriptor that stands at a ring's next SQ index. -/
def State.nextDesc (s : State) (f r : Nat) : Desc :=
  let x := s.ring f r
  let at_ := x.sqBase.toNat + 64 * x.sqHead
  { fn := f, ring := r, idx := x.sqHead
    words := (List.range 8).map fun i => BitVec.ofNat 64 (memNat s.hostMem (at_ + 8 * i) 8) }

/-- Descriptors of a ring are fetched in order up to its sampled tail, `fuel` at most. The first that cannot be admitted
stops the ring for the tick; one out of sequence halts it (R366). -/
def State.fetchRing (s : State) (f r : Nat) : Nat → State
  | 0 => s
  | fuel + 1 =>
    let x := s.ring f r
    if !s.ringServed f r || x.sqHead = x.sampled then s
    else
      let d := s.nextDesc f r
      if d.seq ≠ x.nextSeq then s.haltRing f r 1
      else
        let (refused, need) := descVerdict s d
        match s.admitDesc d d.opcode refused need false with
        | some (s1, _) => s1.fetchRing f r fuel
        | none => s

/-- Every enabled ring's tail is sampled. -/
def State.sampleTails (s : State) : State :=
  let fns := s.host.fns.map fun g =>
    { g with rings := g.rings.map fun x => if x.state == .enabled then { x with sampled := x.tail } else x }
  { s with host := { s.host with fns := fns } }

/-- Rings 1–7 in the rotation of a tick. -/
def ringOrder (tick : Nat) : List Nat := (List.range 7).map fun k => 1 + (tick + k) % 7

/-- The fetch of one ingest: administration rings first, 16 descriptors each, then the data rings. -/
def State.fetchAll (s : State) : State :=
  let fs := s.host.fns.map (·.id)
  let s1 := fs.foldl (fun s f => s.fetchRing f 0 16) s
  fs.foldl (fun s f => (ringOrder s.tick.count.toNat).foldl (fun s r => s.fetchRing f r 65536) s) s1

/-- A read of descriptor data that failed in the last tick may be tried again (R355). -/
def State.retryReads (s : State) : State :=
  { s with host := { s.host with
      work := s.host.work.map fun w => if w.readFails = 1 then { w with readFails := 2 } else w } }

/-- INGEST_START (R367). -/
def execIngestStart (s : State) : Host.Outcome State Fault Refusal :=
  .next (if s.ticking && s.tick.phase == .boundary then
      (({ s with tick := { s.tick with phase := .ingest } }).retryReads.sampleTails).fetchAll
    else s)

/-! ### The end of ingest (R19, R137, R200, R239) -/

/-- INGEST_END (R19). -/
def execIngestEnd (s : State) : Host.Outcome State Fault Refusal :=
  .next (if s.ticking && s.tick.phase == .ingest then
      let s1 := { s with tick := { s.tick with phase := .work } }
      if s1.running then s1.checkLagging.ingestShard.frontsIngest else s1
    else s)

/-! ### The egress window (R18, R203, R239) -/

/-- EGRESS_WINDOW_START (R239): queries, results and the replication batch of the tick leave, and what is complete ends. -/
def execEgressWindowStart (s : State) : Host.Outcome State Fault Refusal :=
  .next (if s.ticking && s.tick.phase == .work then
      let s1 := ({ s with tick := { s.tick with phase := .egress } }).settleQuiesces
      if s1.running then
        let s2 := s1.sendSearches.shardEgress.selectEgress
        s2.sendResults.frontsEgress.sendReplication.endUpdates.settleWatches
      else s1
    else s)

/-! ### The guard phase (R35, R60, R61, R240) -/

/-- OVERRUN of the beacon: the last tick overran (R57); 64 snapshots are retained (R60); no swath has run since boot
(R428); the node rejoins its domain or was refused (R405). -/
def State.beaconOverrun (s : State) : Bool :=
  s.tick.overrun || s.snapshotsFull || s.power.step == 0x08 || s.faults.rejoin != .none

/-- The flags of the node's beacon (Table TK-2). A node that wakes is fallow until it rejoins. -/
def State.beaconFlags (s : State) : Nat :=
  flag s.tick.hold + 2 * flag s.tick.notAligned + 4 * flag (s.isFallow || s.power.step == 0x0B) +
    8 * flag s.tick.straggler + 16 * flag s.beaconOverrun + 32 * flag s.tkRoot

/-- The beacon of the tick: it announces the next edge, the slack of the last completed tick and the queries carried
(Table TK-2). -/
def State.beaconWords (s : State) : List Word64 :=
  let edge := s.tick.edgeNs + s.tickNs
  let (next, at_) := match s.tick.lenSched with
    | some (l, t) => (l, t)
    | none => (s.tick.lenCur, 0)
  let slack := if s.snapshotsFull then 0 else s.tick.slack
  let carried := (s.search.shard.filter (·.carried)).length
  let ws : List Word64 :=
    [word [(32, 32, s.nodeId), (8, 8, s.beaconFlags), (0, 8, 1)], s.tick.count + 1, word [(0, 48, edge / 1000000000)],
      word [(56, 8, next), (48, 8, s.tick.lenCur), (32, 16, min slack 65535), (0, 32, edge % 1000000000)], at_,
      BitVec.ofNat 64 (imgDigest0 s.plan0), word [(0, 32, carried)]]
  ws ++ [word [(0, 32, crc32c (wordsBytes ws))]]

/-- BEACON_SEND: the beacon leaves on TC6 of every port that is up; its frame is 86 bytes long (assumption 16). -/
def State.sendBeacon (s : State) : State :=
  let ws := s.beaconWords
  let f : EgFrame := { conn := none, len := 86, bytes := wordsBytes ws, endsRead := false }
  let s1 := { s with tick := { s.tick with beaconOut := ws } }
  (List.range 8).foldl (fun s p => if (s.port p).up then s.enqueue p 6 f else s) s1

/-- LOAD_APPLY: the loads whose tick this is. -/
def State.loadsDue (s : State) : State :=
  let due := s.tables.loads.filter fun j => seqLe j.arg s.tick.count
  due.foldl State.loadDue s

/-- GUARD_PHASE_START (R240): the beacon; the watches of the tick; then the apply: compacted lists, loads, updates. -/
def execGuardPhaseStart (lastEndNs : Nat) (s : State) : Host.Outcome State Fault Refusal :=
  .next (if s.ticking && s.tick.phase == .egress then
      let s1 := { s with tick := { s.tick with
        phase := .guard, slackNow := some ((s.mapNs 980 - lastEndNs) / 1000) } }
      let s2 := s1.sendBeacon
      if s2.running then s2.fireTicks.installLists.loadsDue.applyUpdates.pruneOld.catchUpDone else s2
    else s)

end Sys2Proof.Machine
end

