-- ==== Sys2Proof/Machine/RegMap.lean ====
section
/-! DEFINITION. The set-up register map as reads see it: BAR0 and its mirror, the doorbell pages (19 R469–R478, and the
register tables of the chapters that Table MP-2 names). -/

namespace Sys2Proof.Machine

/-- A register as a host read sees it: whether it is 64 bits wide, its value, and the state after a host read (R14). -/
structure RegView where
  wide : Bool
  value : Word64
  after : State

/-- A 64-bit register without a read effect. -/
def wideReg (s : State) (v : Word64) : Option RegView := some { wide := true, value := v, after := s }
/-- A 32-bit register without a read effect. -/
def narrowReg (s : State) (v : Word64) : Option RegView := some { wide := false, value := v, after := s }
/-- A 64-bit RC register: the state after the read is the one with the field cleared. -/
def rcReg (v : Word64) (after : State) : Option RegView := some { wide := true, value := v, after := after }

/-- The index of an offset in an array of registers with a base, a step and a number. -/
def slotAt (o base step n : Nat) : Option Nat :=
  if decide (base ≤ o) && (o - base) % step == 0 && decide ((o - base) / step < n) then some ((o - base) / step) else none

/-- Word `i` of a list of bytes. -/
def byteWord (bs : List Byte) (i : Nat) : Word64 := BitVec.ofNat 64 (wordAt bs (8 * i))

/-! ### Identification and the mailbox (Tables MP-3 and MP-4) -/

/-- The ID block. -/
def State.idReg (s : State) (o : Nat) : Option RegView :=
  match o with
  | 0x00 => wideReg s 0x0880B00000000000
  | 0x08 => wideReg s s.regs.serialLo
  | 0x10 => wideReg s s.regs.serialHi
  | 0x18 => wideReg s (word [(0, 48, s.regs.macBase.toNat)])
  | 0x20 => wideReg s (word [(0, 10, s.regs.avsFuse)])
  | 0x30 => rcReg s.regs.badAccess { s with regs := { s.regs with badAccess := 0 } }
  | _ => none

/-- Whether the mailbox is served: from the end of the ROM step, and not in the safe state (R474). -/
def State.mbxServed (s : State) : Bool := decide (2 ≤ s.power.step) && !s.inSafe

/-- The mailbox block, from its base. In the safe state it reads 0; while BUSY the responses do. -/
def State.mbxReg (s : State) (o : Nat) : Option RegView :=
  let r := s.regs
  let show_ (v : Word64) : Word64 := if s.mbxServed then v else 0
  match o with
  | 0x00 => wideReg s (show_ r.mbxCmd)
  | 0x08 => wideReg s (show_ r.mbxArg)
  | 0x10 => wideReg s 0
  | 0x18 => wideReg s (show_ (word [(8, 8, if r.mbxState = 3 then r.mbxError else 0), (0, 2, r.mbxState)]))
  | 0x40 => rcReg (show_ r.mbxIgnored) { s with regs := { r with mbxIgnored := 0 } }
  | _ =>
    match slotAt o 0x20 8 4 with
    | some j => wideReg s (show_ (if r.mbxState = 1 then 0 else r.mbxResp.getD j 0))
    | none => none

/-! ### Tick (Tables MP-6 to MP-8) -/

/-- TK_STATUS. -/
def State.tkStatus (s : State) : Word64 :=
  let t := s.tick
  let f := if s.ticking then s.beaconFlags else 0
  let next := match t.lenSched with
    | some (l, _) => l
    | none => if t.phase = .none then 0 else t.lenCur
  let src := match t.src with | .none => 0 | .line => 1 | .beacon => 2
  word [(24, 8, t.lenCur), (16, 8, next), (14, 2, src), (13, 1, flag s.tkRoot), (12, 1, flag t.line.locked),
    (11, 1, flag (decide (2 ≤ t.beacon.lockTicks) && t.beacon.missed == 0)), (10, 1, flag s.ptp.locked),
    (9, 1, flag (f.testBit 0)), (8, 1, flag (f.testBit 1)), (7, 1, flag (f.testBit 4)), (6, 1, flag (f.testBit 3)),
    (5, 1, flag (f.testBit 2))]

/-- STAGED: the staging slot holds a validated image. -/
def State.staged (s : State) : Bool := match s.plan.staging with | some p => p.valid | none => false

/-- TK_PLAN_STATUS. -/
def State.tkPlanStatus (s : State) : Word64 :=
  let p := s.plan
  word [(49, 1, flag s.staged), (48, 1, flag p.validating.isSome), (40, 8, p.reason), (32, 8, p.section_), (0, 32, p.record)]

/-- The least slack of the last 16 ticks. -/
def leastSlack (l : List Nat) : Nat := match l with | [] => 0 | x :: r => r.foldl min x

/-- A tick counter read and cleared. -/
def State.tkCounter (s : State) (i : Nat) : Option RegView :=
  let t := s.tick
  match i with
  | 0 => rcReg t.lineErr { s with tick := { t with lineErr := 0 } }
  | 1 => rcReg t.beaconErr { s with tick := { t with beaconErr := 0 } }
  | 2 => rcReg t.srcDiff { s with tick := { t with srcDiff := 0 } }
  | 3 => rcReg t.lenErr { s with tick := { t with lenErr := 0 } }
  | _ => none

/-- The tick block. -/
def State.tickReg (s : State) (o : Nat) : Option RegView :=
  match o with
  | 0x00 => wideReg s s.tick.count
  | 0x08 => wideReg s s.tkStatus
  | 0x10 => wideReg s s.tkPlanStatus
  | 0x18 => wideReg s (word [(16, 16, leastSlack s.tick.slackHist), (0, 16, s.tick.slack)])
  | _ =>
    match slotAt o 0x100 8 4 with
    | some i => s.tkCounter i
    | none => none

/-! ### Host (Table MP-9) -/

/-- HI_LINK_STATUS. -/
def State.linkStatus (s : State) : Word64 :=
  let l := s.host.link
  word [(17, 1, flag l.flit), (16, 1, flag l.up), (8, 8, l.width), (0, 8, l.rate)]

/-! ### Fabric (Tables FB-11, FB-12, EG-5, EG-6) -/

/-- FB_PORT_STATUS. -/
def State.portStatus (s : State) (p : Nat) : Word64 :=
  let x := s.port p
  let master := match s.ptp.master with | some (_, q) => q == p | none => false
  word [(24, 8, x.failed), (16, 8, x.paused), (8, 8, x.storm), (3, 1, flag master), (2, 1, x.half), (1, 1, flag x.degraded),
    (0, 1, flag x.up)]

/-- A byte with a bit for each of TC0–TC7. -/
def classBits (f : Nat → Bool) : Nat := ((List.range 8).map fun n => flag (f n) * 2 ^ n).sum

/-- FB_EG_STATUS. -/
def State.egStatus (s : State) (p : Nat) : Word64 :=
  let x := s.egPort p
  let held := classBits fun tc => match x.head tc with | some f => !s.shaperHolds x tc f.len | none => false
  let open_ := classBits fun tc =>
    if tc ≥ 6 then true else if tc ≤ 1 then !s.plannedOpen p else !(s.openRecs p tc).isEmpty
  word [(16, 8, held), (8, 8, open_), (0, 8, classBits fun tc => (x.head tc).isSome)]

/-- A register of a port's page. -/
def State.portReg (s : State) (p o : Nat) : Option RegView :=
  match o with
  | 0x00 => narrowReg s (s.portStatus p)
  | 0x08 => narrowReg s (s.egStatus p)
  | _ =>
    match slotAt o 0x100 8 5, slotAt o 0x200 8 32 with
    | some i, _ =>
      let x := s.port p
      rcReg (x.counters.getD i 0) (s.setPort p { x with counters := x.counters.set i 0 })
    | none, some k =>
      let x := s.egPort p
      let row := x.counters.getD (k / 4) []
      rcReg (row.getD (k % 4) 0) (s.setEgPort p { x with counters := x.counters.set (k / 4) (row.set (k % 4) 0) })
    | none, none => none

/-- The fabric block. -/
def State.fabricReg (s : State) (o : Nat) : Option RegView :=
  match slotAt o 0x8000 8 12, slotAt o 0x10000 8 4096 with
  | some i, _ =>
    rcReg (s.fabric.counters.getD i 0)
      { s with fabric := { s.fabric with counters := s.fabric.counters.set i 0 } }
  | none, some f =>
    let x := s.policer f
    rcReg x.drops (if x.drops = 0 then s else s.setPolicer { x with drops := 0 })
  | none, none => if o < 0x8000 then s.portReg (o / 0x1000) (o % 0x1000) else none

/-! ### Flash (Tables FL-10, FL-14, FL-15, MP-11) -/

/-- The format header of a mounted volume (Table FL-10). -/
def volHeader (v : Volume) : List Byte :=
  let ws : List Word64 :=
    [word [(32, 32, 0x46564C51), (16, 16, v.format), (8, 8, v.wear), (0, 8, 12)],
      word [(32, 32, v.diesets.toNat), (0, 32, v.volumeId.toNat)], v.formatTick, 0, 0, 0, 0]
  wordsBytes (ws ++ [word [(0, 32, crc32c (wordsBytes ws))]])

/-- FL_DIE_STATUS; a die that is not listed is ABSENT. -/
def State.dieStatus (s : State) (d : Nat) : Word64 :=
  match s.flash.dies.find? fun x => x.id == d with
  | none => 0
  | some x =>
    word [(29, 3, x.state.code), (28, 1, flag x.rebuild), (27, 1, x.volume), (12, 12, x.mtS / 4), (0, 12, leastSlack x.reserve)]

/-- The flash block. -/
def State.flashReg (s : State) (o : Nat) : Option RegView :=
  match slotAt o 0 8 16, slotAt o 0x100 8 12, slotAt o 0x1000 4 512 with
  | some i, _, _ => wideReg s (match s.flash.vols[i / 8]? with | some v => byteWord (volHeader v) (i % 8) | none => 0)
  | none, some i, _ =>
    rcReg (s.flash.counters.getD i 0) { s with flash := { s.flash with counters := s.flash.counters.set i 0 } }
  | none, none, some d => narrowReg s (s.dieStatus d)
  | none, none, none => none

/-! ### Warrens (R150, Table WA-12) -/

/-- The physical unit that a stack reports as mapped out; 0x3F when none. -/
def Stack.mappedOut (x : Stack) : Nat := x.failed.headD 0x3F

/-- WA_STACK_STATUS. -/
def State.stackStatus (s : State) (i : Nat) : Word64 :=
  let x := s.stack i
  word [(24, 8, x.temp), (16, 8, x.power), (10, 3, x.level), (9, 1, flag x.doubleRefresh), (8, 1, flag x.secondLoss),
    (7, 1, flag x.spareUsed), (6, 1, flag x.refill.isSome), (0, 6, x.mappedOut)]

/-- The warren block. -/
def State.warrenReg (s : State) (o : Nat) : Option RegView :=
  let i := o / 0x1000
  let x := s.stack i
  if 8 ≤ i then none
  else
    match o % 0x1000 with
    | 0x00 => narrowReg s (s.stackStatus i)
    | 0x08 => rcReg x.eccCorr (s.setStack i { x with eccCorr := 0 })
    | 0x10 => rcReg x.throttleTicks (s.setStack i { x with throttleTicks := 0 })
    | _ => none

/-! ### Stiles (Tables ST-11, MP-11) -/

/-- The stile block. -/
def State.stileReg (s : State) (o : Nat) : Option RegView :=
  match o with
  | 0x40 => wideReg s (BitVec.ofNat 64 s.stiles.sparesUsed)
  | 0x1000 => wideReg s (BitVec.ofNat 64 s.regs.stSel)
  | 0x1008 => wideReg s (s.stile s.regs.stSel).stateWord
  | _ =>
    match slotAt o 0 8 8 with
    | some i =>
      rcReg (s.stiles.counters.getD i 0) { s with stiles := { s.stiles with counters := s.stiles.counters.set i 0 } }
    | none => none

/-! ### Power and clock (Tables PW-7, MP-11, MP-12) -/

/-- PW_BOOT_STATUS. -/
def State.bootStatus (s : State) : Word64 :=
  word [(24, 8, s.power.step), (16, 8, s.power.fail), (0, 16, s.power.detail)]

/-- PW_NODE_STATUS. -/
def State.nodeStatus (s : State) : Word64 :=
  let p := s.power
  word [(24, 8, p.dieTemp), (14, 10, p.avsTarget), (4, 10, p.avsRead), (3, 1, flag p.avsPending), (2, 1, flag p.thermWarn),
    (1, 1, flag p.trip), (0, 1, flag s.isFallow)]

/-- The power block. -/
def State.powerReg (s : State) (o : Nat) : Option RegView :=
  let p := s.power
  match o with
  | 0x00 => narrowReg s s.bootStatus
  | 0x08 => narrowReg s s.nodeStatus
  | 0x10 => narrowReg s 0
  | 0x18 => rcReg (word [(32, 32, p.resetBad), (0, 32, p.restarts)]) { s with power := { p with resetBad := 0, restarts := 0 } }
  | _ =>
    match slotAt o 0x100 8 7 with
    | some i =>
      let r := p.rails.getD i (0, 0)
      wideReg s (word [(32, 16, r.2), (0, 16, r.1)])
    | none => none

/-! ### BIST, life cycle and debug (Tables BT-5 to BT-7, MP-11) -/

/-- STATE of Table BT-1. -/
def LcState.code : LcState → Nat
  | .blank => 0 | .test => 1 | .provisioned => 2 | .deployed => 3 | .returned => 4 | .dead => 5

/-- The debug block and configurable BIST are open in TEST and RETURNED (Table BT-2). -/
def State.dbOpen (s : State) : Bool := s.test.lc == .test || s.test.lc == .returned

/-- BT_LC_STATUS. -/
def State.lcStatus (s : State) : Word64 :=
  word [(4, 1, flag s.test.keyFused), (3, 1, flag s.test.erasePending), (0, 3, s.test.lc.code)]

/-- BT_BIST_STATUS. -/
def State.bistStatus (s : State) : Word64 :=
  let t := s.test
  word [(29, 3, t.code), (16, 13, t.arg), (8, 8, t.peak), (4, 4, t.tripGroup), (3, 1, flag t.fallback), (2, 1, flag t.uncoreFail),
    (1, 1, flag t.done), (0, 1, flag t.running)]

/-- BT_TILE_FAIL: word 0 or 1 of a column. -/
def State.tileFailWord (s : State) (x half : Nat) : Word64 :=
  BitVec.ofNat 64 (((s.test.tileFail.filter fun t => t.1 == x && t.2 / 64 == half).map fun t => 2 ^ (t.2 % 64)).sum)

/-- The BIST and life-cycle block. -/
def State.testReg (s : State) (o : Nat) : Option RegView :=
  let t := s.test
  let gated (v : Word64) : Option RegView := if s.dbOpen then wideReg s v else rcReg 0 s.lcRefuse
  match o with
  | 0x00 => narrowReg s s.lcStatus
  | 0x08 => narrowReg s s.bistStatus
  | 0x10 => wideReg s (BitVec.ofNat 64 t.timeMs)
  | 0x18 => rcReg t.refused { s with test := { t with refused := 0 } }
  | 0x20 => wideReg s t.nonce
  | 0x28 => wideReg s 0
  | 0x30 => gated t.cfg
  | 0x38 => gated t.seed
  | _ =>
    match slotAt o 0x100 8 18, slotAt o 0x400 8 24, slotAt o 0x600 8 8, slotAt o 0x1000 8 128 with
    | some r, _, _, _ => wideReg s (t.groupSig.getD r 0)
    | none, some _, _, _ => wideReg s 0
    | none, none, some i, _ => wideReg s (byteWord t.board i)
    | none, none, none, some k => wideReg s (s.tileFailWord (k / 2) (k % 2))
    | none, none, none, none => none

/-- The debug block; `data` is what DB_MEM_DATA reads while it is open (R476). -/
def State.debugReg (s : State) (data : Word64) (o : Nat) : Option RegView :=
  let show_ (v : Word64) : Option RegView := wideReg s (if s.dbOpen then v else 0)
  match o with
  | 0x00 => show_ 1
  | 0x08 => show_ s.regs.dbAddr
  | 0x10 => show_ data
  | _ => none

/-! ### Composition (Table MP-10) -/

/-- The composition block. -/
def State.compReg (s : State) (o : Nat) : Option RegView :=
  let c := s.host.comp
  let digest := match c.record with | some r => sha256 r | none => []
  let entry := (s.compEntry c.fnSel).getD []
  match o with
  | 0x00 => wideReg s c.recAddr
  | 0x08 => wideReg s (BitVec.ofNat 64 c.recLen.toNat)
  | 0x10 => wideReg s 0
  | 0x18 => wideReg s (word [(10, 1, flag c.accepted), (9, 1, flag c.busy), (8, 1, flag c.done), (0, 8, c.reason)])
  | 0x40 => rcReg c.loadIgnored { s with host := { s.host with comp := { c with loadIgnored := 0 } } }
  | 0x80 => wideReg s (BitVec.ofNat 64 c.fnSel)
  | _ =>
    match slotAt o 0x20 8 4, slotAt o 0xC0 8 8 with
    | some j, _ => wideReg s (byteWord digest j)
    | none, some j => wideReg s (byteWord entry j)
    | none, none => none

/-! ### BAR0 and its mirror (R469, R471, Table MP-2) -/

/-- The register at an offset of BAR0; `data` is what DB_MEM_DATA reads. -/
def State.bar0With (s : State) (data : Word64) (off : Nat) : Option RegView :=
  let o := off % 0x100000
  match off / 0x100000 with
  | 0x0 => if o < 0x10000 then s.idReg o else s.mbxReg (o - 0x10000)
  | 0x1 => s.tickReg o
  | 0x2 => if o = 0 then wideReg s s.linkStatus else none
  | 0x3 => s.fabricReg o
  | 0x4 => s.flashReg o
  | 0x5 => s.warrenReg o
  | 0x6 => s.stileReg o
  | 0x7 => s.powerReg o
  | 0x8 => s.testReg o
  | 0x9 => s.debugReg data o
  | 0xA => s.compReg o
  | _ => none

/-- A naturally aligned access of 4 or 8 bytes to a block of registers: the value and the state after it; none where R469 gives
no such access. An 8-byte access to 32-bit registers reads an absent neighbour as 0. -/
def regAccess (reg : State → Nat → Option RegView) (s : State) (off size : Nat) : Option (Word64 × State) :=
  if size ≠ 4 && size ≠ 8 || off % size ≠ 0 then none
  else
    match reg s off with
    | some v =>
      if v.wide then (if size = 8 then some (v.value, v.after) else none)
      else if size = 4 then some (v.value, v.after)
      else
        match reg v.after (off + 4) with
        | some w => some (word [(32, 32, if w.wide then 0 else w.value.toNat), (0, 32, v.value.toNat)], if w.wide then v.after else w.after)
        | none => some (v.value, v.after)
    | none =>
      if size = 8 then
        match reg s (off + 4) with
        | some w => if w.wide then none else some (word [(32, 32, w.value.toNat)], w.after)
        | none => none
      else none

/-- The aligned 8 bytes at a node address, as the debug window reads them (R476, Table TI-2). The window that reads itself
through the mirror gives a free value. -/
def State.dbWord (s : State) : Word64 :=
  let a := s.regs.dbAddr.toNat
  match regionOf a with
  | .t1 x => BitVec.ofNat 64 (memNat s.t1 x 8)
  | .scratch t o => BitVec.ofNat 64 (leNat (scratchBytes s.mesh.epoch (s.tile t) o 8))
  | .stile i o => if o = 0 then (s.stile i).stateWord else 0
  | .mirror o =>
    match regAccess (fun s => s.bar0With s.freshWord) s o 8 with
    | some (v, _) => v
    | none => 0
  | .scratchHole _ => 0
  | .unmapped => 0

/-- The register at an offset of BAR0. -/
def State.bar0 (s : State) (off : Nat) : Option RegView := s.bar0With s.dbWord off

/-- A refused BAR0 or SMBus access is counted (R469, R472). -/
def State.badAccess (s : State) : State := { s with regs := { s.regs with badAccess := bump s.regs.badAccess 1 } }

/-- What a host read returned. -/
def State.returned (s : State) (v : Word64) : State := { s with regs := { s.regs with readData := v } }

/-- A host read of BAR0. -/
def State.bar0Read (s : State) (off size : Nat) : State :=
  match regAccess State.bar0 s off size with
  | some (v, s1) => s1.returned v
  | none => s.badAccess.returned 0

/-! ### The doorbell page (Tables MP-13, HI-5, HI-7) -/

/-- STATE of a ring. -/
def RingState.code : RingState → Nat
  | .disabled => 0 | .enabled => 1 | .draining => 2 | .halted => 3

/-- A register of a ring pair. -/
def Ring.reg (x : Ring) (o : Nat) : Option Word64 :=
  match o with
  | 0x00 => some x.sqBase
  | 0x08 => some x.cqBase
  | 0x10 => some x.rsbAddr
  | 0x18 => some x.cfg
  | 0x20 => some x.resumeSeq
  | 0x28 => some (word [(48, 16, x.sqHead), (32, 8, x.haltReason), (0, 2, x.state.code)])
  | 0x30 => some 0
  | 0x38 => some 0
  | _ => none

/-- A register of the event ring or the receive ring; `bell` is the offset of its doorbell. -/
def SideRing.reg (x : SideRing) (bell o : Nat) : Option Word64 :=
  if o = bell then some 0
  else
    match o with
    | 0x00 => some x.base
    | 0x10 => some x.sbAddr
    | 0x18 => some x.cfg
    | 0x28 => some (word [(32, 8, x.haltReason), (0, 2, x.state.code)])
    | _ => none

/-- ST_FN_STATE: the selected stile's state word when the function owns it. -/
def State.fnStile (s : State) (f i : Nat) : Word64 :=
  let t := s.stile i
  if t.owner = f && (t.state == .planned || t.state == .function) then t.stateWord else 0

/-- A register of a function's doorbell page, but for the MSI-X table. -/
def State.pageReg (f : Nat) (s : State) (o : Nat) : Option RegView :=
  let g := s.fn f
  let plain (v : Option Word64) : Option RegView := match v with | some w => wideReg s w | none => none
  if o < 0x800 then plain ((s.ring f (o / 0x100)).reg (o % 0x100))
  else if o < 0x840 then plain (g.ev.reg 0x38 (o - 0x800))
  else if decide (0x880 ≤ o) && decide (o < 0x8C0) then plain (g.rx.reg 0x30 (o - 0x880))
  else
    match o with
    | 0x1000 => wideReg s 0
    | 0x1008 => wideReg s (BitVec.ofNat 64 g.stSel)
    | 0x1010 => wideReg s (s.fnStile f g.stSel)
    | 0x1018 => wideReg s (BitVec.ofNat 64 (flag g.foreign))
    | 0x3000 => wideReg s g.pba
    | _ =>
      match slotAt o 0x1100 8 9 with
      | some i => rcReg (g.counters.getD i 0) (s.setFn { g with counters := g.counters.set i 0 })
      | none => none

/-- Whether an access falls in the MSI-X table, which takes aligned accesses of 4 and 8 bytes as PCIe gives it. -/
def msixAccess (off size : Nat) : Bool :=
  decide (0x2000 ≤ off) && decide (off < 0x2400) && (size == 4 || size == 8) && off % size == 0

/-- The bytes of the MSI-X table that an access reads. -/
def Fn.msixBytes (g : Fn) (off size : Nat) : List Byte := bytesAt (g.msix.getD ((off - 0x2000) / 16) []) (off % 16) size

/-- A host read of a doorbell page. -/
def State.pageRead (s : State) (f off size : Nat) : State :=
  if msixAccess off size then s.returned (BitVec.ofNat 64 (leNat ((s.fn f).msixBytes off size)))
  else
    match regAccess (State.pageReg f) s off size with
    | some (v, s1) => s1.returned v
    | none => (s.bumpFn f 8).returned 0

end Sys2Proof.Machine
end

