-- ==== Sys2Proof/Machine/Registers.lean ====
section
/-! DEFINITION. Commands that read and write registers: the shepherd's mailbox, host reads and writes, SMBus, the debug window
and JTAG (19 R469–R478, 17 R439, 20 R499). -/

namespace Sys2Proof.Machine

/-! ### The shepherd's mailbox (R474, Tables MP-4 and MP-5) -/

/-- How a mailbox command ends: ERROR, and the four responses. -/
abbrev MbxEnd := Nat × List Word64

/-- A mailbox command that ends in ERROR. -/
def mbxFail (e : Nat) : MbxEnd := (e, List.replicate 4 0)

/-- Whether the object or stile that a function-level item names is the function's (ERROR 0x03). -/
def State.itemDefined (s : State) (f : Nat) (r : ItemRec) : Bool :=
  match r.block with
  | 6 =>
    let t := s.stile r.index
    t.state == .function && t.owner == f
  | 7 => (s.liveIndex f r.index).isSome
  | 8 => (s.liveTable f r.index).isSome
  | _ => true

/-- READ_ITEM: the values in force of an item, and the tick of the boundary that applied them; 0 for a default. -/
def State.mbxItem (s : State) (f : Nat) (arg : Word64) : MbxEnd :=
  let r := itemOf (wordsBytes [arg])
  match formOf r with
  | none => mbxFail 3
  | some form =>
    if !r.func && f ≠ 0 then mbxFail 4
    else
      let holder := if r.func then f else 0
      if r.func && !s.itemDefined f r then mbxFail 3
      else if form.top < r.index then mbxFail 2
      else
        let (a, b, c) := s.itemVals holder r.block r.number r.index
        let at_ := match s.itemAt holder r.block r.number r.index with | some i => i.tick | none => 0
        (0, [BitVec.ofNat 64 a, BitVec.ofNat 64 b, BitVec.ofNat 64 c, at_])

/-- READ_PLAN: digests and tick lengths of the active and the validated staged image, and the committed swap tick. -/
def State.mbxPlan (s : State) (arg : Word64) : MbxEnd :=
  let shown (p : Option PlanSlot) : List Byte := match p with | some x => if x.valid then x.image else [] | none => []
  let act := s.plan0
  let stg := shown s.plan.staging
  if arg ≠ 0 then mbxFail 2
  else
    (0, [BitVec.ofNat 64 (imgDigest0 act), BitVec.ofNat 64 (imgDigest0 stg), word [(8, 8, imgTickLen stg), (0, 8, imgTickLen act)],
      match s.plan.swap with | some (_, t) => t | none => 0])

/-- READ_SPARES: the mappings of the tiles of a column, the units of a stack, or the stile entries. -/
def State.mbxSpares (s : State) (arg : Word64) : MbxEnd :=
  let a := arg.toNat
  let inst := field a 8 16
  let rows (half : Nat) : Word64 :=
    BitVec.ofNat 64 (((s.mesh.mappedOut.filter fun t => t.1 == inst && t.2 / 64 == half).map fun t => 2 ^ (t.2 % 64)).sum)
  if field a 24 40 ≠ 0 then mbxFail 2
  else
    match a % 256 with
    | 1 => if inst < 64 then (0, [rows 0, rows 1, 0, 0]) else mbxFail 2
    | 3 => if inst < 8 then (0, [BitVec.ofNat 64 (s.stack inst).mappedOut, 0, 0, 0]) else mbxFail 2
    | 4 => if inst = 0 then (0, [BitVec.ofNat 64 s.stiles.sparesUsed, 0, 0, 0]) else mbxFail 2
    | _ => mbxFail 2

/-- READ_SNAPSHOTS: the snapshots retained, the oldest and the newest. -/
def State.mbxSnapshots (s : State) (arg : Word64) : MbxEnd :=
  let l := s.search.snapshots.map BitVec.toNat
  if arg ≠ 0 then mbxFail 2
  else (0, [BitVec.ofNat 64 l.length, BitVec.ofNat 64 (leastSlack l), BitVec.ofNat 64 (l.foldl max 0), 0])

/-- What the command in SH_MBX_CMD and SH_MBX_ARG answers. -/
def State.mbxAnswer (s : State) : MbxEnd :=
  let op := field s.regs.mbxCmd.toNat 56 8
  let f := field s.regs.mbxCmd.toNat 0 12
  let arg := s.regs.mbxArg
  if op = 0 || 4 < op then mbxFail 1
  else if op ≠ 1 && f ≠ 0 then mbxFail 4
  else
    match op with
    | 1 => s.mbxItem f arg
    | 2 => s.mbxPlan arg
    | 3 => s.mbxSpares arg
    | _ => s.mbxSnapshots arg

/-- A write that finds the mailbox BUSY is counted in SH_MBX_IGNORED. -/
def State.mbxIgnore (s : State) : State := { s with regs := { s.regs with mbxIgnored := bump s.regs.mbxIgnored 1 } }

/-- A write to SH_MBX_CMD; its reserved bits read 0. -/
def State.mbxPutCmd (s : State) (v : Word64) : State :=
  if !s.mbxServed then s
  else if s.regs.mbxState = 1 then s.mbxIgnore
  else { s with regs := { s.regs with mbxCmd := word [(56, 8, field v.toNat 56 8), (0, 12, field v.toNat 0 12)] } }

/-- A write to SH_MBX_ARG. -/
def State.mbxPutArg (s : State) (v : Word64) : State :=
  if !s.mbxServed then s else if s.regs.mbxState = 1 then s.mbxIgnore else { s with regs := { s.regs with mbxArg := v } }

/-- A write to SH_MBX_GO: with bit 0 set the command starts. The instant that its responses describe is that of GO. -/
def State.mbxGo (s : State) (v : Word64) : State :=
  if !s.mbxServed then s
  else if s.regs.mbxState = 1 then s.mbxIgnore
  else if v.toNat.testBit 0 then
    let (e, r) := s.mbxAnswer
    { s with regs := { s.regs with mbxState := 1, mbxError := e, mbxResp := r } }
  else s

/-- A mailbox command as the PF gives it: CMD, ARG and GO. -/
def State.mbxCommand (s : State) (op f : Nat) (arg : Word64) : State :=
  ((s.mbxPutCmd (word [(56, 8, op), (0, 12, f)])).mbxPutArg arg).mbxGo 1

/-- READ_ITEM. -/
def execReadItem (fn : Nat) (arg : Word64) (s : State) : Host.Outcome State Fault Refusal := .next (s.mbxCommand 1 fn arg)
/-- READ_PLAN. -/
def execReadPlan (arg : Word64) (s : State) : Host.Outcome State Fault Refusal := .next (s.mbxCommand 2 0 arg)
/-- READ_SPARES. -/
def execReadSpares (arg : Word64) (s : State) : Host.Outcome State Fault Refusal := .next (s.mbxCommand 3 0 arg)
/-- READ_SNAPSHOTS. -/
def execReadSnapshots (arg : Word64) (s : State) : Host.Outcome State Fault Refusal := .next (s.mbxCommand 4 0 arg)

/-- MAILBOX_COMMAND_END: a command that is BUSY ends in DONE, or in ERROR with its responses 0. -/
def execMailboxCommandEnd (s : State) : Host.Outcome State Fault Refusal :=
  .next (if s.regs.mbxState = 1 then { s with regs := { s.regs with mbxState := if s.regs.mbxError = 0 then 2 else 3 } } else s)

/-! ### Writes to BAR0 (R470, Table MP-1) -/

/-- A write to PW_RESET_CTRL (R437). -/
def State.resetCtrl (s : State) (v : Nat) : State :=
  if field v 16 16 = 0x5752 && v.testBit 0 then s.warmReset
  else { s with power := { s.power with resetBad := min 0xFFFFFFFF (s.power.resetBad + 1) } }

/-- Bytes put into a list at an offset. -/
def putBytes (l : List Byte) (off : Nat) (bs : List Byte) : List Byte := l.take off ++ bs ++ l.drop (off + bs.length)

/-- A write to a part of BT_LC_AUTH. -/
def State.putAuth (s : State) (off : Nat) (bs : List Byte) : State :=
  { s with test := { s.test with auth := putBytes s.test.auth off bs } }

/-- A write of DB_MEM_DATA while the window is open: stacked memory and the tile scratch windows only (R476). -/
def State.dbPut (s : State) (v : Word64) : State :=
  match regionOf s.regs.dbAddr.toNat with
  | .t1 a => { s with t1 := memWriteBytes s.t1 a (leBytes 8 v.toNat) }
  | .scratch t o => s.setTile { s.tile t with scratch := cellPutBytes (s.tile t).scratch o (leBytes 8 v.toNat) }
  | _ => s.badAccess

/-- A write to a register of the debug block (R476). -/
def State.debugPut (s : State) (o : Nat) (v : Word64) : State :=
  if !s.dbOpen then s.lcRefuse
  else
    match o with
    | 0x08 => { s with regs := { s.regs with dbAddr := word [(3, 37, field v.toNat 3 37)] } }
    | 0x10 => s.dbPut v
    | _ => s

/-- A write that finds the composition block BUSY is counted in CP_LOAD_IGNORED. -/
def State.compIgnore (s : State) : State :=
  { s with host := { s.host with comp := { s.host.comp with loadIgnored := bump s.host.comp.loadIgnored 1 } } }

/-- A write to a register of the composition block (R475). -/
def State.compPut (s : State) (o : Nat) (v : Word64) : State :=
  let c := s.host.comp
  match o with
  | 0x00 =>
    if c.busy then s.compIgnore
    else { s with host := { s.host with comp := { c with recAddr := word [(6, 58, field v.toNat 6 58)] } } }
  | 0x08 => if c.busy then s.compIgnore else { s with host := { s.host with comp := { c with recLen := BitVec.ofNat 32 v.toNat } } }
  | 0x10 => if v.toNat.testBit 0 then s.compLoad s.faults.domains else s
  | 0x80 => { s with host := { s.host with comp := { c with fnSel := v.toNat % 4096 } } }
  | _ => s

/-- A write to a register of the BIST and life-cycle block. -/
def State.testPut (s : State) (o : Nat) (v : Word64) : State :=
  match o with
  | 0x28 => s.lcRequest (v.toNat % 256)
  | 0x30 => if s.dbOpen then { s with test := { s.test with cfg := word [(0, 58, v.toNat)] } } else s.lcRefuse
  | 0x38 => if s.dbOpen then { s with test := { s.test with seed := v } } else s.lcRefuse
  | _ =>
    match slotAt o 0x400 8 24 with
    | some i => s.putAuth (8 * i) (leBytes 8 v.toNat)
    | none => s

/-- What a write to the register at an offset of BAR0 does; a register that accepts no writes stays as it is (R14, R470). -/
def State.bar0Put (s : State) (off : Nat) (v : Word64) : State :=
  match off / 0x100000 with
  | 0x0 =>
    if off = 0x10000 then s.mbxPutCmd v
    else if off = 0x10008 then s.mbxPutArg v
    else if off = 0x10010 then s.mbxGo v
    else s
  | 0x6 => if off = 0x601000 then { s with regs := { s.regs with stSel := v.toNat % 16384 } } else s
  | 0x7 => if off = 0x700010 then s.resetCtrl (v.toNat % 2 ^ 32) else s
  | 0x8 => s.testPut (off % 0x100000) v
  | 0x9 => s.debugPut (off % 0x100000) v
  | 0xA => s.compPut (off % 0x100000) v
  | _ => s

/-- A naturally aligned write: to a 64-bit register, to a 32-bit one, or by 8 bytes to two adjacent 32-bit ones, the lower in
bits [31:0]; none where R469 gives no such access. -/
def regWrite (reg : State → Nat → Option RegView) (put : State → Nat → Word64 → State) (s : State) (off size : Nat) (v : Word64) :
    Option State :=
  let wide (o : Nat) : Option Bool := match reg s o with | some x => some x.wide | none => none
  let low : Word64 := word [(0, 32, v.toNat)]
  let high : Word64 := word [(0, 32, field v.toNat 32 32)]
  if size ≠ 4 && size ≠ 8 || off % size ≠ 0 then none
  else
    match wide off with
    | some true => if size = 8 then some (put s off v) else none
    | some false =>
      if size = 4 then some (put s off low)
      else some (if wide (off + 4) = some false then put (put s off low) (off + 4) high else put s off low)
    | none => if size = 8 && wide (off + 4) = some false then some (put s (off + 4) high) else none

/-- A host write to BAR0. -/
def State.bar0Write (s : State) (off size : Nat) (v : Word64) : State :=
  match regWrite State.bar0 State.bar0Put s off size v with
  | some s1 => s1
  | none => s.badAccess

/-! ### Writes to a doorbell page (R363, R477, R478, Table MP-13) -/

/-- A write to an address register or to HI_RESUME_SEQ: only while DISABLED (R363). -/
def State.ringPut (s : State) (f r : Nat) (x : Ring) : State :=
  if (s.ring f r).state = .disabled then s.setRing f r x else s.bumpFn f 8

/-- A write to a register of a ring pair. -/
def State.ringWrite (s : State) (f r o : Nat) (v : Word64) : State :=
  let x := s.ring f r
  match o with
  | 0x00 => s.ringPut f r { x with sqBase := v }
  | 0x08 => s.ringPut f r { x with cqBase := v }
  | 0x10 => s.ringPut f r { x with rsbAddr := v }
  | 0x18 => s.ringCfg f (.pair r) v
  | 0x20 => s.ringPut f r { x with resumeSeq := v }
  | 0x30 => s.sqTail f r v
  | 0x38 => s.cqHead f r v
  | _ => s

/-- A write to an address register of the event ring. -/
def State.evWrite (s : State) (f o : Nat) (v : Word64) : State :=
  let g := s.fn f
  let only (x : SideRing) : State := if g.ev.state = .disabled then s.setFn { g with ev := x } else s.bumpFn f 8
  match o with
  | 0x00 => only { g.ev with base := v }
  | 0x10 => only { g.ev with sbAddr := v }
  | 0x18 => s.ringCfg f .event v
  | 0x38 => s.evHead f v
  | _ => s

/-- A write to a register of the receive ring. -/
def State.rxWrite (s : State) (f o : Nat) (v : Word64) : State :=
  let g := s.fn f
  let only (x : SideRing) : State := if g.rx.state = .disabled then s.setFn { g with rx := x } else s.bumpFn f 8
  match o with
  | 0x00 => only { g.rx with base := v }
  | 0x10 => only { g.rx with sbAddr := v }
  | 0x18 => s.ringCfg f .receive v
  | 0x30 => s.rxTail f v
  | _ => s

/-- What a write to the register at an offset of a doorbell page does. -/
def State.pagePut (f : Nat) (s : State) (o : Nat) (v : Word64) : State :=
  let g := s.fn f
  if o < 0x800 then s.ringWrite f (o / 0x100) (o % 0x100) v
  else if o < 0x840 then s.evWrite f (o - 0x800) v
  else if o < 0x8C0 then s.rxWrite f (o - 0x880) v
  else
    match o with
    | 0x1000 => s.stileOutside .doorbell f none v.toNat
    | 0x1008 => s.setFn { g with stSel := v.toNat % 16384 }
    | 0x1018 => if v.toNat.testBit 0 then s.setFn { g with foreign := false } else s
    | _ => s

/-- A write to the MSI-X table. A pending vector whose mask is lifted is sent. -/
def State.msixWrite (s : State) (f off size : Nat) (v : Word64) : State :=
  let g := s.fn f
  let n := (off - 0x2000) / 16
  let s1 := s.setFn { g with msix := g.msix.set n (putBytes (g.msix.getD n []) (off % 16) (leBytes size v.toNat)) }
  let g1 := s1.fn f
  if !((g1.msix.getD n []).getD 12 1).toNat.testBit 0 && g1.pba.toNat.testBit n then
    (s1.setFn { g1 with pba := g1.pba ^^^ BitVec.ofNat 64 (2 ^ n) }).sendVector f n
  else s1

/-- A host write to a doorbell page. -/
def State.pageWrite (s : State) (f off size : Nat) (v : Word64) : State :=
  if msixAccess off size then s.msixWrite f off size v
  else
    match regWrite (State.pageReg f) (State.pagePut f) s off size v with
    | some s1 => s1
    | none => s.bumpFn f 8

/-! ### Host reads and writes of any register -/

/-- RC_REGISTER_READ (R14): a host read of a register, of BAR0 or of a function's doorbell page. -/
def execRcRegisterRead (page : Option Nat) (off size : Nat) (s : State) : Host.Outcome State Fault Refusal :=
  .next (match page with
    | none => s.bar0Read off size
    | some f => s.pageRead f off size)

/-- REGISTER_WRITE (R470). -/
def execRegisterWrite (page : Option Nat) (off size : Nat) (value : Word64) (s : State) : Host.Outcome State Fault Refusal :=
  .next (match page with
    | none => s.bar0Write off size value
    | some f => s.pageWrite f off size value)

/-- DB_MEM_DATA_READ (R476): an 8-byte read of DB_MEM_DATA. -/
def execDbMemDataRead (s : State) : Host.Outcome State Fault Refusal := .next (s.bar0Read 0x900010 8)

/-- DB_MEM_DATA_WRITE (R476). -/
def execDbMemDataWrite (value : Word64) (s : State) : Host.Outcome State Fault Refusal := .next (s.bar0Write 0x900010 8 value)

/-! ### SMBus (R472) -/

/-- Whether SMBus reads reach a register: the ID, PW and BT blocks, TK_COUNT, TK_STATUS and WA_STACK_STATUS. -/
def smbusReads (o : Nat) : Bool :=
  decide (o < 0x10000) || o == 0x100000 || o == 0x100008 || o / 0x100000 == 7 || o / 0x100000 == 8 ||
    (o / 0x100000 == 5 && o % 0x1000 == 0)

/-- The four bytes that an SMBus read at an offset returns, and the state after it; none where it is out of reach. A read of the
high half that no read of the low half has latched gives a free value. -/
def State.smbusWord (s : State) (off : Nat) : Option (Word64 × State) :=
  let hit (o : Nat) : Option RegView := if smbusReads o then s.bar0 o else none
  if off % 4 ≠ 0 then none
  else
    match hit off with
    | some v =>
      if v.wide then
        some (word [(0, 32, v.value.toNat)],
          { v.after with regs := { v.after.regs with smbusLatch := some (off + 4, BitVec.ofNat 32 (field v.value.toNat 32 32)) } })
      else some (v.value, v.after)
    | none =>
      match (if 4 ≤ off then hit (off - 4) else none) with
      | some v =>
        if !v.wide then none
        else
          match s.regs.smbusLatch with
          | some (o, w) =>
            if o = off then some (word [(0, 32, w.toNat)], s) else some (word [(0, 32, s.freshWord.toNat)], s.tookFresh)
          | none => some (word [(0, 32, s.freshWord.toNat)], s.tookFresh)
      | none => none

/-- SMBUS_READ: command 0x10, served while power is good; a bad PEC is NACKed. -/
def execSmbusRead (off : Nat) (pec : Bool) (s : State) : Host.Outcome State Fault Refusal :=
  .next (if !s.power.pwrGood || !pec then s
    else
      match s.smbusWord off with
      | some (v, s1) => s1.returned v
      | none => s.badAccess.returned 0)

/-- A write to the board record (R439, Table MP-11): open in TEST, PROVISIONED and RETURNED; a BT_ILIMIT outside 15–60 is
refused. -/
def State.boardWrite (s : State) (i : Nat) (v : Word32) : State :=
  let open_ := s.test.lc == .test || s.test.lc == .provisioned || s.test.lc == .returned
  let b := v.toNat % 256
  if !open_ || (i = 0 && (b < 15 || 60 < b)) then s.lcRefuse
  else { s with test := { s.test with board := putBytes s.test.board i (leBytes 4 v.toNat) } }

/-- A write that SMBus reaches; none where it is out of reach. -/
def State.smbusPut (s : State) (off : Nat) (v : Word32) : Option State :=
  if off = 0x700010 then some (s.resetCtrl v.toNat)
  else if off = 0x800028 then some (s.lcRequest (v.toNat % 256))
  else if off = 0x80002C then some s
  else
    match slotAt off 0x800400 4 48, slotAt off 0x800600 4 16 with
    | some i, _ => some (s.putAuth (4 * i) (leBytes 4 v.toNat))
    | none, some i => some (s.boardWrite (4 * i) v)
    | none, none => none

/-- SMBUS_WRITE: command 0x11. -/
def execSmbusWrite (off : Nat) (value : Word32) (pec : Bool) (s : State) : Host.Outcome State Fault Refusal :=
  .next (if !s.power.pwrGood || !pec then s
    else
      match s.smbusPut off value with
      | some s1 => s1
      | none => s.badAccess)

/-! ### JTAG (R439, R499) -/

/-- The instruction that takes effect when one is loaded, and whether it is refused. -/
def State.jtagTakes (s : State) (i : JtagInstr) : JtagInstr × Bool :=
  let held := s.power.step == 0 || s.inHold || s.inSafe
  let open_ := s.test.lc == .blank || s.test.lc == .test || s.test.lc == .returned
  match i with
  | .extest => (if held then .extest else .sample, false)
  | .clamp => (if held then .clamp else .sample, false)
  | .highz => (if held then .highz else .sample, false)
  | .internalScan => if open_ then (.internalScan, false) else (.bypass, true)
  | .shepherdDebug => if open_ then (.shepherdDebug, false) else (.bypass, true)
  | .bypass => (.bypass, false)
  | .idcode => (.idcode, false)
  | .sample => (.sample, false)
  | .other => (.bypass, false)

/-- JTAG_INSTRUCTION. -/
def execJtagInstruction (i : JtagInstr) (s : State) : Host.Outcome State Fault Refusal :=
  let (j, refused) := s.jtagTakes i
  let s1 := if refused then s.lcRefuse else s
  .next { s1 with test := { s1.test with jtag := j } }

/-- JTAG_TRST: the TAP is reset, and IDCODE is in force. -/
def execJtagTrst (s : State) : Host.Outcome State Fault Refusal := .next { s with test := { s.test with jtag := .idcode } }

/-- What IDCODE reads. -/
def jtagIdcode : Word32 := 0x108800C9

end Sys2Proof.Machine
end

