-- ==== Sys2Proof/Machine/Dispatch.lean ====
section
/-! DEFINITION. The meaning of each command: one arm per row of the command table. -/
namespace Sys2Proof.Machine

def exec (i : Instr) (s : State) : Host.Outcome State Fault Refusal :=
  match i with
  | .tickEdge atNs => Sys2Proof.Machine.execTickEdge atNs s
  | .quarantineEnd stile => Sys2Proof.Machine.execQuarantineEnd stile s
  | .rmaQuarantineEnd entry => Sys2Proof.Machine.execRmaQuarantineEnd entry s
  | .ingestStart => Sys2Proof.Machine.execIngestStart s
  | .ingestEnd => Sys2Proof.Machine.execIngestEnd s
  | .guardPhaseStart lastEndNs => Sys2Proof.Machine.execGuardPhaseStart lastEndNs s
  | .egressWindowStart => Sys2Proof.Machine.execEgressWindowStart s
  | .completionWrite fn ring => Sys2Proof.Machine.execCompletionWrite fn ring s
  | .exchangeWindowBClose => Sys2Proof.Machine.execExchangeWindowBClose s
  | .tickLineFrame frame atNs => Sys2Proof.Machine.execTickLineFrame frame atNs s
  | .lineLockLost => Sys2Proof.Machine.execLineLockLost s
  | .rootEdgeAnnounce atNs => Sys2Proof.Machine.execRootEdgeAnnounce atNs s
  | .ppsPulse atNs => Sys2Proof.Machine.execPpsPulse atNs s
  | .beaconReceived port payload => Sys2Proof.Machine.execBeaconReceived port payload s
  | .beaconLost => Sys2Proof.Machine.execBeaconLost s
  | .sourceSwitchBack => Sys2Proof.Machine.execSourceSwitchBack s
  | .holdoverNotAligned => Sys2Proof.Machine.execHoldoverNotAligned s
  | .holdoverEnd => Sys2Proof.Machine.execHoldoverEnd s
  | .ptpSync port msg => Sys2Proof.Machine.execPtpSync port msg s
  | .ptpFollowUp port msg => Sys2Proof.Machine.execPtpFollowUp port msg s
  | .ptpAnnounce port ann => Sys2Proof.Machine.execPtpAnnounce port ann s
  | .ptpDelayResp port msg => Sys2Proof.Machine.execPtpDelayResp port msg s
  | .ptpLockLost => Sys2Proof.Machine.execPtpLockLost s
  | .planValidationDone => Sys2Proof.Machine.execPlanValidationDone s
  | .matmul tile r => Sys2Proof.Machine.execMatmul tile r s
  | .dist tile r => Sys2Proof.Machine.execDist tile r s
  | .lutb tile r => Sys2Proof.Machine.execLutb tile r s
  | .scan tile r => Sys2Proof.Machine.execScan tile r s
  | .filter tile r => Sys2Proof.Machine.execFilter tile r s
  | .quant tile r => Sys2Proof.Machine.execQuant tile r s
  | .dqacc tile r => Sys2Proof.Machine.execDqacc tile r s
  | .scaleRow tile r => Sys2Proof.Machine.execScaleRow tile r s
  | .scaleScalar tile r => Sys2Proof.Machine.execScaleScalar tile r s
  | .scaleNorm tile r => Sys2Proof.Machine.execScaleNorm tile r s
  | .topkArray tile r => Sys2Proof.Machine.execTopkArray tile r s
  | .topkRegister tile r => Sys2Proof.Machine.execTopkRegister tile r s
  | .merge tile r => Sys2Proof.Machine.execMerge tile r s
  | .tileGather tile r => Sys2Proof.Machine.execTileGather tile r s
  | .reduce tile r => Sys2Proof.Machine.execReduce tile r s
  | .copyLocal tile r => Sys2Proof.Machine.execCopyLocal tile r s
  | .copyRemote tile r => Sys2Proof.Machine.execCopyRemote tile r s
  | .remoteCopyLanding id => Sys2Proof.Machine.execRemoteCopyLanding id s
  | .shload tile r => Sys2Proof.Machine.execShload tile r s
  | .shstore tile r => Sys2Proof.Machine.execShstore tile r s
  | .sheafCommit num => Sys2Proof.Machine.execSheafCommit num s
  | .tileSignal tile r => Sys2Proof.Machine.execTileSignal tile r s
  | .tileConsume tile r => Sys2Proof.Machine.execTileConsume tile r s
  | .tileSet tile r => Sys2Proof.Machine.execTileSet tile r s
  | .tileWait tile r => Sys2Proof.Machine.execTileWait tile r s
  | .tileWaitConsume tile r => Sys2Proof.Machine.execTileWaitConsume tile r s
  | .stileWaitSatisfied eng cycle => Sys2Proof.Machine.execStileWaitSatisfied eng cycle s
  | .scoreboardRelease tile cycle => Sys2Proof.Machine.execScoreboardRelease tile cycle s
  | .tileFault tile kind => Sys2Proof.Machine.execTileFault tile kind s
  | .burrowSlotStart burrow slot => Sys2Proof.Machine.execBurrowSlotStart burrow slot s
  | .nextItem burrow => Sys2Proof.Machine.execNextItem burrow s
  | .lutget burrow => Sys2Proof.Machine.execLutget burrow s
  | .lutPullLanded burrow half => Sys2Proof.Machine.execLutPullLanded burrow half s
  | .lutw burrow => Sys2Proof.Machine.execLutw burrow s
  | .scanl burrow => Sys2Proof.Machine.execScanl burrow s
  | .emit burrow => Sys2Proof.Machine.execEmit burrow s
  | .gath burrow => Sys2Proof.Machine.execGath burrow s
  | .rsub burrow => Sys2Proof.Machine.execRsub burrow s
  | .sig burrow => Sys2Proof.Machine.execSig burrow s
  | .waits burrow => Sys2Proof.Machine.execWaits burrow s
  | .bcopy burrow => Sys2Proof.Machine.execBcopy burrow s
  | .jump burrow => Sys2Proof.Machine.execJump burrow s
  | .endSlot burrow => Sys2Proof.Machine.execEndSlot burrow s
  | .throttleLevelChange stack temp power cool calm => Sys2Proof.Machine.execThrottleLevelChange stack temp power cool calm s
  | .refreshRateChange stack temp => Sys2Proof.Machine.execRefreshRateChange stack temp s
  | .warrenFault stack unit kind => Sys2Proof.Machine.execWarrenFault stack unit kind s
  | .unitRefillComplete stack => Sys2Proof.Machine.execUnitRefillComplete stack s
  | .sheafMoveStart num => Sys2Proof.Machine.execSheafMoveStart num s
  | .sheafLanding m poisoned => Sys2Proof.Machine.execSheafLanding m poisoned s
  | .sheafMoveDeadline m => Sys2Proof.Machine.execSheafMoveDeadline m s
  | .search d => Sys2Proof.Machine.execSearch d s
  | .shardQuery payload => Sys2Proof.Machine.execShardQuery payload s
  | .shardResult payload => Sys2Proof.Machine.execShardResult payload s
  | .flashReadIssue id => Sys2Proof.Machine.execFlashReadIssue id s
  | .flashReadNotIssued id => Sys2Proof.Machine.execFlashReadNotIssued id s
  | .flashReadReturn id errors decoded => Sys2Proof.Machine.execFlashReadReturn id errors decoded s
  | .flashReadDeadline id => Sys2Proof.Machine.execFlashReadDeadline id s
  | .flashReconstructDone cw unreadable => Sys2Proof.Machine.execFlashReconstructDone cw unreadable s
  | .programDone cw ok => Sys2Proof.Machine.execProgramDone cw ok s
  | .eraseDone cw bad => Sys2Proof.Machine.execEraseDone cw bad s
  | .dieFailed die => Sys2Proof.Machine.execDieFailed die s
  | .dieRetired die => Sys2Proof.Machine.execDieRetired die s
  | .segmentAgeWarn fn index list => Sys2Proof.Machine.execSegmentAgeWarn fn index list s
  | .segmentPastBound fn index list => Sys2Proof.Machine.execSegmentPastBound fn index list s
  | .checkpoint => Sys2Proof.Machine.execCheckpoint s
  | .rootPageWrite => Sys2Proof.Machine.execRootPageWrite s
  | .flashReadServiceRequest fn index ids => Sys2Proof.Machine.execFlashReadServiceRequest fn index ids s
  | .refillResponse fn index rows => Sys2Proof.Machine.execRefillResponse fn index rows s
  | .select d => Sys2Proof.Machine.execSelect d s
  | .gather d => Sys2Proof.Machine.execGather d s
  | .pklookup d => Sys2Proof.Machine.execPklookup d s
  | .exchangeRequest payload atNs => Sys2Proof.Machine.execExchangeRequest payload atNs s
  | .exchangeResponse payload atNs => Sys2Proof.Machine.execExchangeResponse payload atNs s
  | .insert d => Sys2Proof.Machine.execInsert d s
  | .delete d => Sys2Proof.Machine.execDelete d s
  | .load d => Sys2Proof.Machine.execLoad d s
  | .rowwrite d => Sys2Proof.Machine.execRowwrite d s
  | .rowdelete d => Sys2Proof.Machine.execRowdelete d s
  | .replicationBatch tick logged recs => Sys2Proof.Machine.execReplicationBatch tick logged recs s
  | .format d => Sys2Proof.Machine.execFormat d s
  | .stileSignal src fn addressed w => Sys2Proof.Machine.execStileSignal src fn addressed w s
  | .stileConsume src fn addressed w => Sys2Proof.Machine.execStileConsume src fn addressed w s
  | .stileSet src fn addressed w => Sys2Proof.Machine.execStileSet src fn addressed w s
  | .stileClearFlags src fn addressed w => Sys2Proof.Machine.execStileClearFlags src fn addressed w s
  | .stileRead fn off size stile => Sys2Proof.Machine.execStileRead fn off size stile s
  | .stileEccError stile double => Sys2Proof.Machine.execStileEccError stile double s
  | .frameReceived port frame => Sys2Proof.Machine.execFrameReceived port frame s
  | .pfcPauseReceived port tc pause => Sys2Proof.Machine.execPfcPauseReceived port tc pause s
  | .pfcStorm port tc => Sys2Proof.Machine.execPfcStorm port tc s
  | .pfcStormEnd port tc => Sys2Proof.Machine.execPfcStormEnd port tc s
  | .laneFailure port lane => Sys2Proof.Machine.execLaneFailure port lane s
  | .portDown port => Sys2Proof.Machine.execPortDown port s
  | .portUp port => Sys2Proof.Machine.execPortUp port s
  | .connect port tc pkt => Sys2Proof.Machine.execConnect port tc pkt s
  | .connectAck port tc pkt => Sys2Proof.Machine.execConnectAck port tc pkt s
  | .ludomWrite port tc pkt atNs => Sys2Proof.Machine.execLudomWrite port tc pkt atNs s
  | .readReq port tc pkt => Sys2Proof.Machine.execReadReq port tc pkt s
  | .readResp port tc pkt => Sys2Proof.Machine.execReadResp port tc pkt s
  | .ludomAck port tc pkt => Sys2Proof.Machine.execLudomAck port tc pkt s
  | .ludomNak port tc pkt => Sys2Proof.Machine.execLudomNak port tc pkt s
  | .notReady port tc pkt => Sys2Proof.Machine.execNotReady port tc pkt s
  | .ludomClose port tc pkt => Sys2Proof.Machine.execLudomClose port tc pkt s
  | .ludomRtoExpiry conn psn => Sys2Proof.Machine.execLudomRtoExpiry conn psn s
  | .nrWaitExpiry conn psn => Sys2Proof.Machine.execNrWaitExpiry conn psn s
  | .batchAged conn batch => Sys2Proof.Machine.execBatchAged conn batch s
  | .roceSend conn p => Sys2Proof.Machine.execRoceSend conn p s
  | .rdmaWrite conn p => Sys2Proof.Machine.execRdmaWrite conn p s
  | .rdmaWriteWithImmediate conn p => Sys2Proof.Machine.execRdmaWriteWithImmediate conn p s
  | .rdmaRead conn p => Sys2Proof.Machine.execRdmaRead conn p s
  | .fetchAdd conn p => Sys2Proof.Machine.execFetchAdd conn p s
  | .cmpSwap conn p => Sys2Proof.Machine.execCmpSwap conn p s
  | .roceAck conn p => Sys2Proof.Machine.execRoceAck conn p s
  | .roceNak conn p code => Sys2Proof.Machine.execRoceNak conn p code s
  | .rnrNak conn p => Sys2Proof.Machine.execRnrNak conn p s
  | .udSend conn qkey payload => Sys2Proof.Machine.execUdSend conn qkey payload s
  | .ceMark conn atNs => Sys2Proof.Machine.execCeMark conn atNs s
  | .cnp conn => Sys2Proof.Machine.execCnp conn s
  | .ceRateRecovery conn => Sys2Proof.Machine.execCeRateRecovery conn s
  | .contextFetchDone conn => Sys2Proof.Machine.execContextFetchDone conn s
  | .sysconnRetry conn => Sys2Proof.Machine.execSysconnRetry conn s
  | .egressFrameStart port offPs => Sys2Proof.Machine.execEgressFrameStart port offPs s
  | .shaperRefill us => Sys2Proof.Machine.execShaperRefill us s
  | .policerRefill us => Sys2Proof.Machine.execPolicerRefill us s
  | .gateOpen index => Sys2Proof.Machine.execGateOpen index s
  | .gateClose index => Sys2Proof.Machine.execGateClose index s
  | .scanRequest payload atNs => Sys2Proof.Machine.execScanRequest payload atNs s
  | .scanResponse payload atNs => Sys2Proof.Machine.execScanResponse payload atNs s
  | .nodeFault row part => Sys2Proof.Machine.execNodeFault row part s
  | .rejoinWindowExpiry => Sys2Proof.Machine.execRejoinWindowExpiry s
  | .seedComplete seed => Sys2Proof.Machine.execSeedComplete seed s
  | .sqTailDoorbell fn ring value host => Sys2Proof.Machine.execSqTailDoorbell fn ring value host s
  | .cqHeadDoorbell fn ring value => Sys2Proof.Machine.execCqHeadDoorbell fn ring value s
  | .evHeadDoorbell fn value => Sys2Proof.Machine.execEvHeadDoorbell fn value s
  | .rxTailDoorbell fn value host => Sys2Proof.Machine.execRxTailDoorbell fn value host s
  | .ringCfgWrite fn ring value => Sys2Proof.Machine.execRingCfgWrite fn ring value s
  | .hostReadFail fn what => Sys2Proof.Machine.execHostReadFail fn what s
  | .eventRecordWrite => Sys2Proof.Machine.execEventRecordWrite s
  | .beginTxn d => Sys2Proof.Machine.execBeginTxn d s
  | .setItem d => Sys2Proof.Machine.execSetItem d s
  | .commit d => Sys2Proof.Machine.execCommit d s
  | .rollback d => Sys2Proof.Machine.execRollback d s
  | .planStage d => Sys2Proof.Machine.execPlanStage d s
  | .connOpen d => Sys2Proof.Machine.execConnOpen d s
  | .connClose d => Sys2Proof.Machine.execConnClose d s
  | .quiesceOwn d => Sys2Proof.Machine.execQuiesceOwn d s
  | .quiesceAll d => Sys2Proof.Machine.execQuiesceAll d s
  | .quiesceRemote d => Sys2Proof.Machine.execQuiesceRemote d s
  | .quiesceMessage sender func quiesce => Sys2Proof.Machine.execQuiesceMessage sender func quiesce s
  | .resume d => Sys2Proof.Machine.execResume d s
  | .watch d => Sys2Proof.Machine.execWatch d s
  | .watchDumpDone => Sys2Proof.Machine.execWatchDumpDone s
  | .compositionLoad host domains => Sys2Proof.Machine.execCompositionLoad host domains s
  | .compositionCheckDone => Sys2Proof.Machine.execCompositionCheckDone s
  | .flr fn => Sys2Proof.Machine.execFlr fn s
  | .perstN => Sys2Proof.Machine.execPerstN s
  | .pwrGoodRise rails => Sys2Proof.Machine.execPwrGoodRise rails s
  | .pwrGoodFall => Sys2Proof.Machine.execPwrGoodFall s
  | .supplyFault rail mv us => Sys2Proof.Machine.execSupplyFault rail mv us s
  | .pllLockTimeout pll => Sys2Proof.Machine.execPllLockTimeout pll s
  | .pllLockLoss pll => Sys2Proof.Machine.execPllLockLoss pll s
  | .avsChange temp target => Sys2Proof.Machine.execAvsChange temp target s
  | .avsLate mv => Sys2Proof.Machine.execAvsLate mv s
  | .dieWarn sensor temp => Sys2Proof.Machine.execDieWarn sensor temp s
  | .dieWarnEnd sensor temp => Sys2Proof.Machine.execDieWarnEnd sensor temp s
  | .thermalTrip onStack sensor temp => Sys2Proof.Machine.execThermalTrip onStack sensor temp s
  | .coldReset => Sys2Proof.Machine.execColdReset s
  | .warmReset => Sys2Proof.Machine.execWarmReset s
  | .bootStepComplete r => Sys2Proof.Machine.execBootStepComplete r s
  | .shepherdSolo core kind => Sys2Proof.Machine.execShepherdSolo core kind s
  | .fallowEnter => Sys2Proof.Machine.execFallowEnter s
  | .wakeComplete => Sys2Proof.Machine.execWakeComplete s
  | .bistCurrentSample amps mv mhz => Sys2Proof.Machine.execBistCurrentSample amps mv mhz s
  | .bistComplete r => Sys2Proof.Machine.execBistComplete r s
  | .toTest => Sys2Proof.Machine.execToTest s
  | .toProvisioned => Sys2Proof.Machine.execToProvisioned s
  | .toDeployed => Sys2Proof.Machine.execToDeployed s
  | .toReturned => Sys2Proof.Machine.execToReturned s
  | .toDead => Sys2Proof.Machine.execToDead s
  | .lcEraseComplete bad => Sys2Proof.Machine.execLcEraseComplete bad s
  | .countImageWrite fn => Sys2Proof.Machine.execCountImageWrite fn s
  | .traceWrap => Sys2Proof.Machine.execTraceWrap s
  | .traceStatusWrite => Sys2Proof.Machine.execTraceStatusWrite s
  | .traceLostRecord => Sys2Proof.Machine.execTraceLostRecord s
  | .readItem fn arg => Sys2Proof.Machine.execReadItem fn arg s
  | .readPlan arg => Sys2Proof.Machine.execReadPlan arg s
  | .readSpares arg => Sys2Proof.Machine.execReadSpares arg s
  | .readSnapshots arg => Sys2Proof.Machine.execReadSnapshots arg s
  | .mailboxCommandEnd => Sys2Proof.Machine.execMailboxCommandEnd s
  | .smbusRead off pec => Sys2Proof.Machine.execSmbusRead off pec s
  | .smbusWrite off value pec => Sys2Proof.Machine.execSmbusWrite off value pec s
  | .dbMemDataRead => Sys2Proof.Machine.execDbMemDataRead s
  | .dbMemDataWrite value => Sys2Proof.Machine.execDbMemDataWrite value s
  | .rcRegisterRead page off size => Sys2Proof.Machine.execRcRegisterRead page off size s
  | .registerWrite page off size value => Sys2Proof.Machine.execRegisterWrite page off size value s
  | .jtagInstruction code => Sys2Proof.Machine.execJtagInstruction code s
  | .jtagTrst => Sys2Proof.Machine.execJtagTrst s
  | .sysRstNRise => Sys2Proof.Machine.execSysRstNRise s
  | .perstNRelease => Sys2Proof.Machine.execPerstNRelease s
  | .hostLinkStateChange up flit width rate => Sys2Proof.Machine.execHostLinkStateChange up flit width rate s
  | .connectionNumberReuse conn => Sys2Proof.Machine.execConnectionNumberReuse conn s
  | .ptpDelayReq port txNs => Sys2Proof.Machine.execPtpDelayReq port txNs s
  | .roceRetryTimeout conn psn => Sys2Proof.Machine.execRoceRetryTimeout conn psn s
  | .avsTargetSeen mv => Sys2Proof.Machine.execAvsTargetSeen mv s

end Sys2Proof.Machine
end

