-- ==== Sys2Proof/Safety.lean ====
section
/-! DEFINITION. What counts as safe, in the terms that claims use: memories in canonical form, a life cycle that follows
Table BT-3, and the parts of the state that a command may change. -/

namespace Sys2Proof.Machine

/-- Both memories are in canonical form. -/
def State.memoryOk (s : State) : Bool := memWf s.t1 && memWf s.hostMem

/-! ### The life cycle (R440, Table BT-3) -/

/-- The transitions of Table BT-3. -/
def LcState.next : LcState → LcState → Bool
  | .blank, .test => true
  | .test, .provisioned => true
  | .test, .dead => true
  | .provisioned, .deployed => true
  | .provisioned, .returned => true
  | .provisioned, .dead => true
  | .deployed, .returned => true
  | .deployed, .dead => true
  | .returned, .dead => true
  | _, _ => false

/-- What the fuses record of a transition under way is one of Table BT-3: TEST waits for the cold boot only in BLANK, and an
erase runs only from PROVISIONED or DEPLOYED, to RETURNED or DEAD. -/
def SelfTest.sound (t : SelfTest) : Bool :=
  (match t.nextLc with
    | none => true
    | some l => t.lc == .blank && l == .test) &&
  (match t.eraseTo with
    | none => true
    | some l => (t.lc == .provisioned || t.lc == .deployed) && (l == .returned || l == .dead))

/-- The life-cycle part of the self-test state: the state, the state fused for the next cold boot, the target of an erase,
ERASE_PENDING. -/
def SelfTest.cycle (t : SelfTest) : LcState × Option LcState × Option LcState × Bool :=
  (t.lc, t.nextLc, t.eraseTo, t.erasePending)

/-! ### The parts of the state -/

/-- The parts of the state that frames name: the fields of State, with TICK and the phase of `tick`, and the life cycle of
`test`, named apart. -/
inductive Area where
  /-- the tick and its sources -/
  | tick
  /-- TICK and the phase -/
  | clock
  /-- the PTP clock -/
  | ptp
  /-- the plan slots -/
  | plan
  /-- the configuration items -/
  | items
  /-- the host interface -/
  | host
  /-- the events that wait -/
  | events
  /-- the stile engine -/
  | stiles
  /-- the tiles -/
  | mesh
  /-- the stacks and burrows -/
  | warren
  /-- moves and capacity -/
  | tiers
  /-- indexes, searches and selects -/
  | search
  /-- tables, lookups and updates -/
  | tables
  /-- the flash tier -/
  | flash
  /-- the fabric -/
  | fabric
  /-- the egress queues -/
  | egress
  /-- stacked memory -/
  | t1
  /-- host memory -/
  | hostMem
  /-- faults, redirects and membership -/
  | faults
  /-- power, reset and boot -/
  | power
  /-- self-test -/
  | test
  /-- the life cycle -/
  | cycle
  /-- the set-up registers -/
  | regs
  /-- counts, trace and watches -/
  | obs
  /-- the counter of free values -/
  | free
  deriving DecidableEq, Repr

/-- A change from `s0` to `s` that leaves every part outside `w` as it was, keeps both memories in canonical form, and does
not touch the queue. -/
structure Kept (w : Area → Bool) (s0 s : State) : Prop where
  tick : w .tick = false → s.tick = s0.tick
  clock : w .clock = false → s.tick.count = s0.tick.count ∧ s.tick.phase = s0.tick.phase
  ptp : w .ptp = false → s.ptp = s0.ptp
  plan : w .plan = false → s.plan = s0.plan
  items : w .items = false → s.items = s0.items
  host : w .host = false → s.host = s0.host
  events : w .events = false → s.events = s0.events
  stiles : w .stiles = false → s.stiles = s0.stiles
  mesh : w .mesh = false → s.mesh = s0.mesh
  warren : w .warren = false → s.warren = s0.warren
  tiers : w .tiers = false → s.tiers = s0.tiers
  search : w .search = false → s.search = s0.search
  tables : w .tables = false → s.tables = s0.tables
  flash : w .flash = false → s.flash = s0.flash
  fabric : w .fabric = false → s.fabric = s0.fabric
  egress : w .egress = false → s.egress = s0.egress
  t1 : w .t1 = false → s.t1 = s0.t1
  hostMem : w .hostMem = false → s.hostMem = s0.hostMem
  faults : w .faults = false → s.faults = s0.faults
  power : w .power = false → s.power = s0.power
  test : w .test = false → s.test = s0.test
  cycle : w .cycle = false → s.test.cycle = s0.test.cycle
  regs : w .regs = false → s.regs = s0.regs
  obs : w .obs = false → s.obs = s0.obs
  free : w .free = false → s.free = s0.free
  wfT1 : memWf s0.t1 = true → memWf s.t1 = true
  wfHost : memWf s0.hostMem = true → memWf s.hostMem = true
  pending : s.pending = s0.pending

/-- The parts of the state that a command may change, in any of its forms. -/
def touches : Instr → List Area
  | .tickEdge .. =>
    [.tick, .clock, .plan, .items, .host, .events, .stiles, .mesh, .warren, .tiers, .search, .tables, .flash, .fabric, .egress, .t1, .faults, .power, .obs, .free]
  | .quarantineEnd .. | .stileEccError .. =>
    [.stiles]
  | .rmaQuarantineEnd .. | .pfcPauseReceived .. | .connectAck .. | .notReady .. | .batchAged .. | .roceAck ..
  | .cnp .. | .ceRateRecovery .. | .connectionNumberReuse .. =>
    [.fabric]
  | .ingestStart =>
    [.tick, .clock, .host, .events, .obs]
  | .ingestEnd =>
    [.tick, .clock, .host, .events, .warren, .tiers, .search, .tables, .flash, .fabric, .egress, .t1, .obs, .free]
  | .guardPhaseStart .. =>
    [.tick, .clock, .host, .events, .tiers, .search, .tables, .flash, .egress, .t1, .faults, .obs]
  | .egressWindowStart =>
    [.tick, .clock, .host, .events, .search, .tables, .flash, .fabric, .egress, .obs]
  | .completionWrite .. | .watchDumpDone =>
    [.host, .hostMem, .obs]
  | .exchangeWindowBClose =>
    [.host, .tables, .obs, .free]
  | .tickLineFrame .. | .lineLockLost =>
    [.tick, .events]
  | .rootEdgeAnnounce .. | .ppsPulse .. | .beaconReceived .. | .beaconLost | .sourceSwitchBack
  | .holdoverNotAligned | .holdoverEnd =>
    [.tick]
  | .ptpSync .. | .ptpFollowUp .. | .ptpLockLost =>
    [.ptp, .events]
  | .ptpAnnounce .. | .ptpDelayResp .. =>
    [.ptp]
  | .planValidationDone =>
    [.plan, .host]
  | .matmul .. | .dist .. | .lutb .. | .scan .. | .filter .. | .quant .. | .dqacc .. | .scaleRow ..
  | .scaleScalar .. | .scaleNorm .. | .topkArray .. | .topkRegister .. | .merge .. | .tileGather ..
  | .reduce .. | .copyLocal .. | .copyRemote .. | .shload .. | .shstore .. | .tileSignal .. | .tileConsume ..
  | .tileSet .. | .tileWait .. | .tileWaitConsume .. | .scoreboardRelease .. =>
    [.host, .events, .stiles, .mesh, .tiers, .obs]
  | .remoteCopyLanding .. =>
    [.host, .events, .stiles, .mesh]
  | .sheafCommit .. =>
    [.host, .events, .stiles, .mesh, .tiers, .flash, .t1, .hostMem, .obs]
  | .stileWaitSatisfied .. =>
    [.host, .events, .stiles, .mesh, .warren, .tiers, .obs]
  | .tileFault .. =>
    [.events, .mesh, .faults, .power, .obs]
  | .burrowSlotStart .. | .lutget .. | .lutPullLanded .. | .lutw .. | .scanl .. | .waits .. | .jump ..
  | .refreshRateChange .. | .unitRefillComplete .. =>
    [.warren]
  | .nextItem .. | .endSlot .. =>
    [.warren, .obs]
  | .emit .. | .gath .. | .rsub .. =>
    [.host, .events, .stiles, .mesh, .warren]
  | .sig .. | .bcopy .. =>
    [.host, .events, .stiles, .warren]
  | .throttleLevelChange .. =>
    [.events, .warren]
  | .warrenFault .. =>
    [.events, .warren, .search, .tables, .flash, .faults, .power, .obs]
  | .sheafMoveStart .. =>
    [.tiers]
  | .sheafLanding .. =>
    [.host, .events, .stiles, .mesh, .warren, .tiers, .search, .tables, .flash, .t1, .hostMem, .faults, .obs]
  | .sheafMoveDeadline .. | .hostReadFail .. =>
    [.host, .events, .warren, .tiers, .search, .tables, .flash, .faults, .obs]
  | .search .. | .select .. =>
    [.host, .events, .search, .obs]
  | .shardQuery .. | .shardResult .. =>
    [.search]
  | .flashReadIssue .. | .checkpoint | .rootPageWrite | .refillResponse .. =>
    [.flash]
  | .flashReadNotIssued .. | .flashReadDeadline .. =>
    [.search, .flash]
  | .flashReadReturn .. =>
    [.events, .search, .flash]
  | .flashReconstructDone .. | .dieFailed .. | .segmentAgeWarn .. | .segmentPastBound .. =>
    [.events, .flash]
  | .programDone .. | .dieRetired .. =>
    [.events, .flash, .t1]
  | .eraseDone .. =>
    [.host, .events, .flash, .free]
  | .flashReadServiceRequest .. | .frameReceived .. | .ludomClose .. | .roceNak .. | .rnrNak .. | .ceMark ..
  | .sysconnRetry .. | .egressFrameStart .. =>
    [.fabric, .egress]
  | .gather .. | .pklookup .. | .load .. =>
    [.host, .events, .tables, .obs]
  | .exchangeRequest .. =>
    [.tables, .fabric]
  | .exchangeResponse .. =>
    [.events, .tables, .fabric]
  | .insert .. | .delete .. | .rowwrite .. | .rowdelete .. =>
    [.host, .events, .tables, .flash, .obs]
  | .replicationBatch .. =>
    [.events, .tables, .flash, .faults]
  | .format .. =>
    [.host, .events, .flash, .obs, .free]
  | .stileSignal .. | .stileConsume .. | .stileSet .. | .stileClearFlags .. =>
    [.host, .events, .stiles]
  | .stileRead .. | .readItem .. | .readPlan .. | .readSpares .. | .readSnapshots .. | .mailboxCommandEnd =>
    [.regs]
  | .pfcStorm .. | .pfcStormEnd .. =>
    [.events, .fabric]
  | .laneFailure .. | .portDown .. | .portUp .. | .connect .. | .readReq .. | .ludomAck .. | .rdmaRead .. =>
    [.events, .fabric, .egress]
  | .ludomWrite .. | .rdmaWrite .. | .rdmaWriteWithImmediate .. =>
    [.host, .events, .stiles, .mesh, .fabric, .egress, .t1]
  | .readResp .. =>
    [.mesh, .warren, .fabric, .egress, .t1]
  | .ludomNak .. | .ludomRtoExpiry .. | .nrWaitExpiry .. | .roceRetryTimeout .. =>
    [.host, .events, .fabric, .egress]
  | .roceSend .. =>
    [.host, .fabric, .egress, .hostMem]
  | .fetchAdd .. | .cmpSwap .. =>
    [.events, .mesh, .fabric, .egress, .t1]
  | .udSend .. =>
    [.host, .fabric, .hostMem]
  | .contextFetchDone .. =>
    [.host, .events, .stiles, .mesh, .warren, .fabric, .egress, .t1, .hostMem]
  | .shaperRefill .. | .policerRefill .. | .gateClose .. =>
    [.egress]
  | .gateOpen .. =>
    [.tables, .fabric, .egress, .faults]
  | .scanRequest .. =>
    [.tiers, .fabric, .faults]
  | .scanResponse .. =>
    [.events, .search, .flash, .fabric]
  | .nodeFault .. | .supplyFault .. | .avsChange .. | .avsLate .. | .dieWarn .. | .dieWarnEnd ..
  | .shepherdSolo .. =>
    [.events, .power]
  | .rejoinWindowExpiry =>
    [.faults]
  | .seedComplete .. =>
    [.tiers, .tables, .flash, .fabric, .egress, .t1, .faults]
  | .sqTailDoorbell .. | .eventRecordWrite =>
    [.host, .events, .hostMem]
  | .cqHeadDoorbell .. | .ringCfgWrite .. =>
    [.host, .events]
  | .evHeadDoorbell .. | .quiesceMessage .. | .compositionCheckDone | .perstNRelease | .hostLinkStateChange .. =>
    [.host]
  | .rxTailDoorbell .. =>
    [.host, .hostMem]
  | .beginTxn .. | .setItem .. | .rollback .. | .watch .. =>
    [.host, .events, .obs]
  | .commit .. | .planStage .. =>
    [.plan, .host, .events, .obs]
  | .connOpen .. =>
    [.host, .events, .fabric, .obs, .free]
  | .connClose .. =>
    [.host, .events, .fabric, .obs]
  | .quiesceOwn .. | .quiesceAll .. | .quiesceRemote .. | .resume .. =>
    [.host, .events, .fabric, .egress, .obs]
  | .compositionLoad .. =>
    [.host, .hostMem, .faults]
  | .flr .. | .perstN =>
    [.plan, .host, .events, .stiles, .search, .tables, .flash, .fabric, .egress, .obs]
  | .pwrGoodRise .. | .coldReset =>
    [.tick, .clock, .ptp, .plan, .items, .host, .events, .stiles, .mesh, .warren, .tiers, .search, .tables, .flash, .fabric, .egress, .t1, .faults, .power, .test, .cycle, .regs, .obs]
  | .pwrGoodFall =>
    [.flash, .power]
  | .pllLockTimeout .. | .sysRstNRise | .avsTargetSeen .. =>
    [.power]
  | .pllLockLoss .. =>
    [.events, .power, .free]
  | .thermalTrip .. =>
    [.events, .warren, .power]
  | .warmReset =>
    [.tick, .clock, .ptp, .plan, .items, .host, .events, .stiles, .mesh, .warren, .tiers, .search, .tables, .flash, .fabric, .egress, .faults, .power, .regs, .obs]
  | .bootStepComplete .. =>
    [.tick, .clock, .plan, .events, .mesh, .warren, .tables, .flash, .faults, .power, .test, .free]
  | .fallowEnter =>
    [.events, .mesh, .warren, .power]
  | .wakeComplete =>
    [.host, .warren, .power, .obs]
  | .bistCurrentSample .. =>
    [.power, .test]
  | .bistComplete .. =>
    [.events, .mesh, .faults, .power, .test, .free]
  | .toTest | .toProvisioned | .toDeployed | .toReturned | .toDead =>
    [.power, .test, .cycle, .free]
  | .lcEraseComplete .. =>
    [.plan, .host, .stiles, .tiers, .search, .tables, .flash, .fabric, .t1, .power, .test, .cycle]
  | .countImageWrite .. | .traceStatusWrite =>
    [.hostMem, .obs]
  | .traceWrap | .traceLostRecord =>
    [.obs]
  | .smbusRead .. =>
    [.tick, .host, .stiles, .warren, .flash, .fabric, .egress, .power, .test, .regs, .free]
  | .smbusWrite .. =>
    [.tick, .clock, .ptp, .plan, .items, .host, .events, .stiles, .mesh, .warren, .tiers, .search, .tables, .flash, .fabric, .egress, .faults, .power, .test, .cycle, .regs, .obs, .free]
  | .dbMemDataRead | .rcRegisterRead .. =>
    [.tick, .host, .stiles, .warren, .flash, .fabric, .egress, .power, .test, .regs]
  | .dbMemDataWrite .. | .registerWrite .. =>
    [.tick, .clock, .ptp, .plan, .items, .host, .events, .stiles, .mesh, .warren, .tiers, .search, .tables, .flash, .fabric, .egress, .t1, .faults, .power, .test, .cycle, .regs, .obs, .free]
  | .jtagInstruction .. | .jtagTrst =>
    [.test]
  | .ptpDelayReq .. =>
    [.ptp, .egress]

/-! ### When a tile's command runs at once, and what it then does -/

/-- A record that its tile can run as it arrives: the swath runs, the record passes validation's checks, nothing waits in the
tile's queue, no landing into an operand is outstanding (R96), and the tile is not fenced. -/
def State.tileReady (s : State) (tile : Nat) (r : CmdRec) : Bool :=
  s.running && decide (tile < 4096) && cmdOk r && (s.tile tile).queue.isEmpty && !(s.tile tile).fenced &&
    !landingPending (s.tile tile) r

/-- A command has run on its tile and given `o`: its writes are in scratch, the selection register and the counts are as it
left them, and it completed at its cost after its issue cycle and its predecessor (R95, R119). Every other tile is as it was,
and so is every byte of the tile's scratch that the command does not write. -/
structure TileRan (s t : State) (tile : Nat) (r : CmdRec) (o : TileOut) : Prop where
  scratch : (t.tile tile).scratch = o.writes.foldl (fun m w => cellPutBytes m w.1 w.2) (s.tile tile).scratch
  sel : (t.tile tile).sel = o.sel
  part : (t.tile tile).part = o.part
  counts : (t.tile tile).counts = o.counts
  lastDone : (t.tile tile).lastDone = max r.issue (s.tile tile).lastDone + cmdCost r
  rest : (t.tile tile).queue = [] ∧ (t.tile tile).fenced = false
  others : ∀ k, k ≠ tile → t.tile k = s.tile k
  frame : ∀ a, (∀ w ∈ o.writes, a < w.1 ∨ w.1 + w.2.length ≤ a) →
    scratchByte t.mesh.epoch (t.tile tile) a = scratchByte s.mesh.epoch (s.tile tile) a

/-! ### When a burrow's micro-op runs, and the burrow once it has been issued -/

/-- The burrow is at a micro-op of an opcode, with the word `w`: the swath runs, it runs a slot, and it waits for nothing. -/
def State.atMicro (s : State) (i op w : Nat) : Bool :=
  s.running && (s.burrow i).opWord == some w && mOp w == op && (s.burrow i).wait == .none

/-- The burrow after the issue of its micro-op: its issue cycles have passed and it is at the next one. -/
def State.issued (s : State) (i w : Nat) : Burrow :=
  { s.burrow i with cycles := (s.burrow i).cycles + s.microCost (s.burrow i) w, pc := (s.burrow i).pc + 1 }

/-! ### When a descriptor is accepted and runs at once, and what accepting it leaves -/

/-- A descriptor row can be accepted here and run (R59, R364 to R366, R375): it is not accepted yet, its ring is served and
expects its SEQ, its form, ring, issuer and content pass their checks, it is no administration descriptor that is already
complete, and its class has the slots that it needs. -/
def State.takes (s : State) (d : Desc) (op : Nat) (check : State → Desc → Option Nat) (need : Nat) : Bool :=
  (s.workAt d.fn d.ring d.seq).isNone && s.ringServed d.fn d.ring && d.seq == (s.ring d.fn d.ring).nextSeq &&
    (formCheck d op).isNone && (check s d).isNone && !s.adminDone d && s.canAdmit d.fn d.cls need

/-- A descriptor has been accepted: its ring stands after it and expects the next SEQ, and the node holds its work. -/
structure Accepted (s t : State) (d : Desc) (op : Nat) : Prop where
  ring : t.ring d.fn d.ring = { s.ring d.fn d.ring with
    sqHead := (d.idx + 1) % 2 ^ field (s.ring d.fn d.ring).cfg.toNat 16 5, nextSeq := d.seq + 1, acceptSeq := d.seq
    acceptIdx := (d.idx + 1) % 2 ^ field (s.ring d.fn d.ring).cfg.toNat 16 5, dirty := true }
  work : ∃ w, t.workAt d.fn d.ring d.seq = some w ∧ w.opcode = op ∧ w.words = d.words ∧ w.cls = d.cls ∧
    w.admitTick = s.tick.count ∧ w.started = true

/-- The work of a descriptor has ended with a status; its completion waits for the egress window. -/
def State.endedWith (t : State) (d : Desc) (status : Nat) : Prop :=
  ∃ w c, t.workAt d.fn d.ring d.seq = some w ∧ w.done = some c ∧ c.status = status

/-- The descriptor of a descriptor row, with its opcode and the check of its content. -/
def descOf : Instr → Option (Desc × Nat × (State → Desc → Option Nat))
  | .beginTxn d => some (d, 0x01, txnCheck 1)
  | .setItem d => some (d, 0x02, txnCheck 2)
  | .commit d => some (d, 0x03, txnCheck 3)
  | .rollback d => some (d, 0x04, txnCheck 4)
  | .planStage d => some (d, 0x05, planStageCheck)
  | .format d => some (d, 0x06, formatCheck)
  | .connOpen d => some (d, 0x07, connOpenCheck)
  | .connClose d => some (d, 0x08, connCloseCheck)
  | .quiesceOwn d => some (d, 0x09, quiesceCheck 0)
  | .quiesceAll d => some (d, 0x09, quiesceCheck 1)
  | .quiesceRemote d => some (d, 0x09, quiesceCheck 2)
  | .resume d => some (d, 0x0A, quiesceCheck (field (d.w 1) 32 2))
  | .search d => some (d, 0x20, searchCheck)
  | .insert d => some (d, 0x21, upCheck 0x21)
  | .delete d => some (d, 0x22, upCheck 0x22)
  | .load d => some (d, 0x23, upCheck 0x23)
  | .select d => some (d, 0x24, selectCheck)
  | .gather d => some (d, 0x25, lookupCheck false)
  | .pklookup d => some (d, 0x26, lookupCheck true)
  | .rowwrite d => some (d, 0x27, upCheck 0x27)
  | .rowdelete d => some (d, 0x28, upCheck 0x28)
  | .watch d => some (d, 0x30, watchCheck)
  | _ => none

end Sys2Proof.Machine
end

