-- ==== Sys2Proof/Certificates/Slice0/Obligations.lean ====
section
/-! DEFINITION. What this model states of the node, command by command, for the provers: a statement for each group of
commands of one shape, from the numbered rules of the spec. `exec` answers a next state in each; what else a command leaves
alone is said by the statement on the parts that each command may touch. -/

open Sys2Proof Sys2Proof.Machine

/-! ### The block: its queue, its invariants, its frames -/

/-- A step takes the command at the front of the queue and runs it on the state with the queue's rest. -/
def Obligations.StepRunsFrontCommand : Prop :=
  ∀ (c : Instr) (rest : List Instr) (s : State),
    step { s with pending := c :: rest } = exec c { s with pending := rest }

/-- With nothing in the queue a step leaves the node as it is, and a command that leaves does not come back: the queue after
a step is the queue before it without its front. -/
def Obligations.QueueIsFirstInFirstOut : Prop :=
  ∀ s : State, (s.pending = [] → step s = .next s) ∧ ∀ t, step s = .next t → t.pending = s.pending.tail

/-- Every step keeps stacked memory and host memory in canonical form: addresses strictly rising and no byte listed that an
unlisted address reads as. -/
def Obligations.StepKeepsMemoriesCanonical : Prop :=
  ∀ s t : State, s.memoryOk = true → step s = .next t → t.memoryOk = true

/-- A command changes only its own parts of the state: every register group, buffer, counter and memory of the node outside
the list that `touches` gives the command stays as it was. -/
def Obligations.CommandsChangeOnlyTheirParts : Prop :=
  ∀ (c : Instr) (s t : State), exec c s = .next t → Kept (fun a => decide (a ∈ touches c)) s t

/-- The life cycle moves only along Table BT-3: a step from a state whose fuse records are sound gives such a state again,
with the life-cycle state it had or one that Table BT-3 leads to from it. -/
def Obligations.StepFollowsTableBT3 : Prop :=
  ∀ s t : State, s.test.sound = true → step s = .next t →
    t.test.sound = true ∧ (t.test.lc = s.test.lc ∨ LcState.next s.test.lc t.test.lc = true)

/-- At reset both memories are canonical, the fuse records are sound, and no command waits. -/
def Obligations.ResetIsSound : Prop :=
  State.reset.memoryOk = true ∧ State.reset.test.sound = true ∧ State.reset.pending = []

/-- TICK changes at tick edges, in the boot sequence, at resets and by what the register writes bring about, and nowhere
else. -/
def Obligations.TickChangesAtEdgesBootAndResets : Prop :=
  ∀ (c : Instr) (s t : State), exec c s = .next t →
    match c with
    | .tickEdge .. | .pwrGoodRise .. | .coldReset | .warmReset | .bootStepComplete .. | .smbusWrite ..
    | .dbMemDataWrite .. | .registerWrite .. => True
    | _ => t.tick.count = s.tick.count

/-! ### Ticks, their sources, and the PTP clock -/

/-- The windows of a tick come in the order of Table TK-3: while the node ticks, INGEST_START after the boundary, INGEST_END
after ingest, EGRESS_WINDOW_START after the work, GUARD_PHASE_START after egress, each with the phase that it names and with
TICK as it was; the guard phase takes the slack of the tick, which the work of the tick left before 980 µs. -/
def Obligations.WindowsFollowThePhaseMap : Prop :=
  ∀ (s : State) (lastEndNs : Nat), s.ticking = true →
    (s.tick.phase = .boundary →
      ∃ t, exec .ingestStart s = .next t ∧ t.tick.phase = .ingest ∧ t.tick.count = s.tick.count) ∧
    (s.tick.phase = .ingest →
      ∃ t, exec .ingestEnd s = .next t ∧ t.tick.phase = .work ∧ t.tick.count = s.tick.count) ∧
    (s.tick.phase = .work →
      ∃ t, exec .egressWindowStart s = .next t ∧ t.tick.phase = .egress ∧ t.tick.count = s.tick.count) ∧
    (s.tick.phase = .egress →
      ∃ t, exec (.guardPhaseStart lastEndNs) s = .next t ∧ t.tick.phase = .guard ∧ t.tick.count = s.tick.count ∧
        t.tick.slackNow = some ((s.mapNs 980 - lastEndNs) / 1000))

/-- TICK_EDGE begins a tick in its boundary phase, with TICK advanced by one or, where the source of the edge announces a
number at or after that in serial order, with that number. -/
def Obligations.TickEdgeAdvancesTick : Prop :=
  ∀ (s : State) (atNs : Nat), s.power.clocksStopped = false →
    (s.ticking = true ∨ s.power.step = 0x07 ∨ s.inHold = true) →
    ∃ t, exec (.tickEdge atNs) s = .next t ∧ t.tick.phase = .boundary ∧
      (match s.sourceEdge s.nextSource with
       | some (k, _) =>
         t.tick.count = if seqLe (s.tick.count + 1) k then k else s.tick.count + 1
       | none => t.tick.count = s.tick.count + 1)

/-- The tick-line receiver (R31, R32): in lock, a good frame that follows is taken, with its TICK and, of an EDGE frame, the
edge it announces; any other is ignored and counted in TK_LINE_ERR. LINE_LOCK_LOST after four ignored frames in a row leaves lock and
raises one event. Nothing but the tick engine and the waiting events changes. -/
def Obligations.TickLineReceiver : Prop :=
  ∀ (s : State) (frame : Word64) (atNs : Nat),
    (s.tick.line.locked = true →
      frameGood (scrambled frame).toNat = true →
      frameFollows (scrambled frame).toNat s.tick.line.tick40 = true →
      ∃ t, exec (.tickLineFrame frame atNs) s = .next t ∧ t.tick.line.locked = true ∧ t.tick.line.ignored = 0 ∧
        t.tick.line.tick40 = field (scrambled frame).toNat 16 40 ∧ t.tick.lineErr = s.tick.lineErr ∧
        ((scrambled frame).toNat.testBit 15 = true →
          t.tick.line.edge = some (s.frameEdge (scrambled frame).toNat atNs)) ∧
        ((scrambled frame).toNat.testBit 15 = false → t.tick.line.edge = s.tick.line.edge)) ∧
    (s.tick.line.locked = true →
      (frameGood (scrambled frame).toNat && frameFollows (scrambled frame).toNat s.tick.line.tick40) = false →
      ∃ t, exec (.tickLineFrame frame atNs) s = .next t ∧ t.tick.line.locked = true ∧
        t.tick.line.ignored = s.tick.line.ignored + 1 ∧ t.tick.line.tick40 = s.tick.line.tick40 ∧
        t.tick.lineErr = bump s.tick.lineErr 1 ∧ t.tick.line.edge = s.tick.line.edge) ∧
    (s.tick.line.locked = true → 4 ≤ s.tick.line.ignored →
      ∃ t, exec .lineLockLost s = .next t ∧ t.tick.line.locked = false ∧ t.tick.line.edge = none ∧
        t.events.length = s.events.length + 1 ∧ t.tick.count = s.tick.count)

/-- The receiver comes into lock at the third of three good frames, each 64 bit times after the one before and following it
(R31); a number behind the count that the node keeps makes it a refused source (R41). -/
def Obligations.TickLineLocks : Prop :=
  ∀ (s : State) (f1 f2 f3 : Word64) (at1 : Nat), s.tick.line.locked = false → s.tick.line.run = 0 →
    frameGood (scrambled f1).toNat = true → frameGood (scrambled f2).toNat = true →
    frameGood (scrambled f3).toNat = true →
    frameFollows (scrambled f2).toNat (field (scrambled f1).toNat 16 40) = true →
    frameFollows (scrambled f3).toNat (field (scrambled f2).toNat 16 40) = true →
    ∃ a b t, exec (.tickLineFrame f1 at1) s = .next a ∧ a.tick.line.locked = false ∧
      exec (.tickLineFrame f2 (at1 + 512)) a = .next b ∧ b.tick.line.locked = false ∧
      exec (.tickLineFrame f3 (at1 + 1024)) b = .next t ∧ t.tick.line.locked = true ∧
      t.tick.line.tick40 = field (scrambled f3).toNat 16 40 ∧
      t.tick.line.refused = (s.counting &&
        decide (extend40 s.tick.count.toNat (field (scrambled f3).toNat 16 40) < s.tick.count.toNat))

/-- The root's time base and the choice of source (R33, R36, R38): the root announces its next edge by an EDGE frame that
carries the number TICK + 1, PPS_IN gives it a whole second, the primary is taken back after 16 ticks in lock, NOT_ALIGNED
comes with more than 5 µs of error in holdover, and a source of 16 ticks ends holdover and clears both flags. -/
def Obligations.RootAndHoldover : Prop :=
  ∀ (s : State) (atNs : Nat),
    (s.tkRoot = true → atNs + 65536 ≤ s.tick.edgeNs + s.tickNs → s.tick.edgeNs + s.tickNs < atNs + 65536 + 512 →
      ∃ t, exec (.rootEdgeAnnounce atNs) s = .next t ∧ t.tick.count = s.tick.count ∧
        t.tick.tickOut = some (lineFrame (s.tick.count.toNat + 1) true
          ((s.tick.edgeNs + s.tickNs - 65536 - atNs) / 8) s.tick.hold)) ∧
    (s.tkRoot = true →
      ∃ t p, exec (.ppsPulse atNs) s = .next t ∧ t.tick.pps = some p ∧ p % 1000000000 = 0 ∧
        p ≤ atNs + 500000000 ∧ atNs < p + 500000000 ∧ t.tick.edgeNs = s.tick.edgeNs + p - atNs) ∧
    (s.tick.hold = false → s.sourceUp s.primary = true → 16 ≤ s.sourceLock s.primary →
      ∃ t, exec .sourceSwitchBack s = .next t ∧ t.tick.src = s.primary ∧ t.tick.count = s.tick.count) ∧
    (s.tick.hold = true → 5000000 < s.tick.holdErrPs →
      ∃ t, exec .holdoverNotAligned s = .next t ∧ t.tick.notAligned = true ∧ t.tick.hold = true) ∧
    (∀ x : Source, x = s.primary ∨ x = s.secondary → s.tick.hold = true → s.sourceUp x = true → 16 ≤ s.sourceLock x →
      ∃ t, exec .holdoverEnd s = .next t ∧ t.tick.hold = false ∧ t.tick.notAligned = false ∧ t.tick.holdErrPs = 0 ∧
        t.tick.count = s.tick.count ∧ s.sourceUp t.tick.src = true ∧ 16 ≤ s.sourceLock t.tick.src)

/-- Beacons (R35, R36): on a port that is up a well-formed beacon leaves its sender's flags, tick and slack, heard in this
tick, and the edge of a root's beacon; a malformed one is counted and otherwise without effect; a source without a root beacon
for two ticks is out of lock. -/
def Obligations.BeaconsAreHeard : Prop :=
  ∀ (s : State) (port : Nat) (ws : List Word64),
    ((s.port port).up = true → beaconGood ws = true →
      ∃ t p, exec (.beaconReceived port ws) s = .next t ∧ p ∈ t.tick.peers ∧
        p.node = field (nth ws 0) 32 32 ∧ p.flags = field (nth ws 0) 8 8 ∧ p.tick = BitVec.ofNat 64 (nth ws 1) ∧
        p.slack = field (nth ws 3) 32 16 ∧ p.age = 0 ∧
        (∀ q ∈ t.tick.peers, q.node = p.node → q = p) ∧ t.tick.beaconErr = s.tick.beaconErr ∧
        (p.node = s.beaconNode → t.tick.beacon.seen = true ∧ t.tick.beacon.edge =
          some (BitVec.ofNat 64 (nth ws 1), field (nth ws 2) 0 48 * 1000000000 + field (nth ws 3) 0 32)) ∧
        (p.node ≠ s.beaconNode → t.tick.beacon = s.tick.beacon)) ∧
    ((s.port port).up = true → beaconGood ws = false →
      ∃ t, exec (.beaconReceived port ws) s = .next t ∧ t.tick.beaconErr = bump s.tick.beaconErr 1 ∧
        t.tick.peers = s.tick.peers ∧ t.tick.beacon = s.tick.beacon) ∧
    (2 ≤ s.tick.beacon.missed →
      ∃ t, exec .beaconLost s = .next t ∧ t.sourceUp .beacon = false ∧ t.tick.beacon.edge = none ∧
        t.tick.count = s.tick.count)

/-- The PTP clock (R308): a Sync of the master gives the offset, at once or by its Follow_Up; sixteen offsets in a row below
100 ns give lock; a Delay_Resp gives the mean path delay of its Delay_Req; loss of the master takes lock away. No PTP message
changes the tick. -/
def Obligations.PtpClock : Prop :=
  ∀ (s : State) (port tx : Nat) (m f : PtpMsg) (a : PtpAnnounce),
    (s.fromMaster port m = true → m.twoStep = false →
      ∃ t, exec (.ptpSync port m) s = .next t ∧ t.tick = s.tick ∧
        t.ptp.offset = (m.rxNs : Int) - m.stampNs - s.ptp.delay ∧
        (t.ptp.offset.natAbs < 100 → 15 ≤ s.ptp.good → t.ptp.locked = true) ∧
        (100 ≤ t.ptp.offset.natAbs → t.ptp.good = 0 ∧ t.ptp.locked = s.ptp.locked)) ∧
    (s.fromMaster port m = true → m.twoStep = true →
      ∃ t, exec (.ptpSync port m) s = .next t ∧ t.tick = s.tick ∧ t.ptp.pendingSync = some (port, m) ∧
        t.ptp.offset = s.ptp.offset ∧ t.ptp.locked = s.ptp.locked) ∧
    (s.ptp.pendingSync = some (port, m) → m.identity = f.identity → m.seqId = f.seqId → s.fromMaster port f = true →
      ∃ t, exec (.ptpFollowUp port f) s = .next t ∧ t.tick = s.tick ∧ t.ptp.pendingSync = none ∧
        t.ptp.offset = (m.rxNs : Int) - f.stampNs - s.ptp.delay) ∧
    ((s.port port).up = true → a.domain = s.cfg 5 5 0 → s.ptp.master = none →
      ∃ t, exec (.ptpAnnounce port a) s = .next t ∧ t.tick = s.tick ∧ t.ptp.master = some (a, port)) ∧
    (∀ (b : PtpAnnounce) (q : Nat), s.ptp.master = some (b, port) → (s.port port).up = true →
      ∃ t, exec (.ptpDelayReq port q) s = .next t ∧ t.tick = s.tick ∧ t.ptp.delayReq = some (port, q)) ∧
    (∀ stamp rx : Nat, s.ptp.delayReq = some (port, tx) → s.ptp.lastSync = some (stamp, rx) → s.fromMaster port m = true →
      ∃ t, exec (.ptpDelayResp port m) s = .next t ∧ t.tick = s.tick ∧ t.ptp.delayReq = none ∧
        t.ptp.delay = ((((rx : Int) - stamp) + ((m.stampNs : Int) - tx)) / 2).toNat) ∧
    ∃ t, exec .ptpLockLost s = .next t ∧ t.tick = s.tick ∧ t.ptp.locked = false ∧ t.ptp.master = none ∧
      t.events.length = s.events.length + (if s.ptp.locked then 1 else 0)

/-! ### Tiles -/

/-- Every computing command of the catalogue runs on a tile that is ready for it: the tile ends with the command's results
in its destination, its selection register and its five counts, and nothing else of the mesh changes. -/
def Obligations.TileComputeCommandsRun : Prop :=
  ∀ (s : State) (tile : Nat) (r : CmdRec),
    let run (c : Instr) (q : CmdRec) (o : TileIn → TileOut) : Prop :=
      s.tileReady tile q = true →
      ∃ t, exec c s = .next t ∧ TileRan s t tile q (o { epoch := s.mesh.epoch, tile := s.tile tile }) ∧
        t.mesh.copies = s.mesh.copies ∧ (q.sigdone = false → t.stiles = s.stiles)
    run (.matmul tile r) { r with opcode := 0x01 } (effMatmul · { r with opcode := 0x01 }) ∧
    run (.dist tile r) { r with opcode := 0x02 } (effDist · { r with opcode := 0x02 }) ∧
    run (.lutb tile r) { r with opcode := 0x03 } (effLutb · { r with opcode := 0x03 }) ∧
    run (.scan tile r) { r with opcode := 0x04 } (effScan · { r with opcode := 0x04 }) ∧
    run (.filter tile r) { r with opcode := 0x05 } (effFilter · { r with opcode := 0x05 }) ∧
    run (.quant tile r) { r with opcode := 0x06 } (effQuant · { r with opcode := 0x06 }) ∧
    run (.dqacc tile r) { r with opcode := 0x07 } (effDqacc · { r with opcode := 0x07 }) ∧
    run (.scaleRow tile r) { r with opcode := 0x08, ext := extMode r.ext 0 }
      (effScale · { r with opcode := 0x08, ext := extMode r.ext 0 }) ∧
    run (.scaleScalar tile r) { r with opcode := 0x08, ext := extMode r.ext 1 }
      (effScale · { r with opcode := 0x08, ext := extMode r.ext 1 }) ∧
    run (.scaleNorm tile r) { r with opcode := 0x08, ext := extMode r.ext 2 }
      (effScale · { r with opcode := 0x08, ext := extMode r.ext 2 }) ∧
    run (.topkArray tile r) { r with opcode := 0x09, flags := withSelreg r.flags false }
      (effTopkArray · { r with opcode := 0x09, flags := withSelreg r.flags false }) ∧
    run (.topkRegister tile r) { r with opcode := 0x09, flags := withSelreg r.flags true }
      (effTopkRegister · { r with opcode := 0x09, flags := withSelreg r.flags true }) ∧
    run (.merge tile r) { r with opcode := 0x0A } (effMerge · { r with opcode := 0x0A }) ∧
    run (.tileGather tile r) { r with opcode := 0x0B } (effGather · { r with opcode := 0x0B }) ∧
    run (.reduce tile r) { r with opcode := 0x0C } (effReduce · { r with opcode := 0x0C }) ∧
    run (.copyLocal tile r) { r with opcode := 0x0D, ext := withRemote r.ext false }
      (effCopyLocal · { r with opcode := 0x0D, ext := withRemote r.ext false })

/-- Copies between tiles and sheaf commands (R116, R118): a remote COPY takes its bytes at issue and enters the
scoreboard of its destination; its landing puts exactly those bytes there, unless they are poisoned, and marks the entry;
SHLOAD starts a move with its two landings; SHSTORE stages header and payload as they stand at issue. None changes a byte of
scratch at issue. -/
def Obligations.TileCopiesAndSheafCommands : Prop :=
  ∀ (s : State) (tile : Nat) (r : CmdRec),
    (∀ q : CmdRec, q = { r with opcode := 0x0D, ext := withRemote r.ext true } → s.tileReady tile q = true →
      ∃ t c, exec (.copyRemote tile r) s = .next t ∧ t.mesh.copies = s.mesh.copies ++ [c] ∧ c.id = s.mesh.nextId ∧
        c.dst = 64 * field q.ext 6 6 + field q.ext 0 6 ∧ c.addr = r.dst ∧ c.poisoned = false ∧
        c.bytes = scratchBytes s.mesh.epoch (s.tile tile) r.src0 (64 * r.cn) ∧
        c.signal = (if q.sigdone then some (r.stile, r.value) else none) ∧
        { id := c.id, base := r.dst, len := 64 * r.cn, landed := false : Landing } ∈ (t.tile c.dst).board ∧
        ∀ k, (t.tile k).scratch = (s.tile k).scratch) ∧
    (∀ q : CmdRec, q = { r with opcode := 0x0E } → s.tileReady tile q = true →
      ∃ t m, exec (.shload tile r) s = .next t ∧ t.tiers.moves = s.tiers.moves ++ [m] ∧ m.num = r.ext ∧
        m.tile = some tile ∧ m.dst = r.dst ∧ m.aux = r.aux ∧ m.staged = none ∧ m.stile = r.stile ∧ m.value = r.value ∧
        ∀ k, (t.tile k).scratch = (s.tile k).scratch) ∧
    (∀ q : CmdRec, q = { r with opcode := 0x0F } → s.tileReady tile q = true →
      ∃ t m, exec (.shstore tile r) s = .next t ∧ t.tiers.moves = s.tiers.moves ++ [m] ∧ m.num = r.ext ∧
        m.tile = some tile ∧ m.stile = r.stile ∧ m.value = r.value ∧
        m.staged = some (scratchBytes s.mesh.epoch (s.tile tile) r.aux 64,
          scratchBytes s.mesh.epoch (s.tile tile) r.src0 (64 * r.cn)) ∧
        t.t1 = s.t1 ∧ ∀ k, (t.tile k).scratch = (s.tile k).scratch) ∧
    ∀ (id : Nat) (c : RemoteCopy), (s.mesh.copies.find? fun x => x.id == id) = some c →
      ∃ t, exec (.remoteCopyLanding id) s = .next t ∧ (∀ x ∈ t.mesh.copies, x.id ≠ id) ∧
        (t.tile c.dst).scratch = (if c.poisoned then (s.tile c.dst).scratch
          else cellPutBytes (s.tile c.dst).scratch c.addr c.bytes) ∧
        (∀ l ∈ (t.tile c.dst).board, l.id = id → l.landed = true) ∧ ∀ k, k ≠ c.dst → t.tile k = s.tile k

/-- SIGNAL, CONSUME and SET of a tile act on their stile as one stile-engine cycle (R117); WAIT and WAIT_CONSUME complete when
the stile holds the amount, the second taking it, and wait at the head of the queue otherwise (R290). -/
def Obligations.TileStileCommands : Prop :=
  ∀ (s : State) (tile : Nat) (r : CmdRec),
    (s.tileReady tile { r with opcode := 0x10, ext := extMode r.ext 0 } = true →
      ∃ t, exec (.tileSignal tile r) s = .next t ∧ (t.stile r.stile).count = min ((s.stile r.stile).count + r.value) stileMax ∧
        (t.tile tile).scratch = (s.tile tile).scratch ∧ ∀ k, k ≠ r.stile → t.stile k = s.stile k) ∧
    (s.tileReady tile { r with opcode := 0x10, ext := extMode r.ext 1 } = true →
      ∃ t, exec (.tileConsume tile r) s = .next t ∧
        (t.stile r.stile).count = min (s.stile r.stile).count stileMax - r.value ∧
        (t.tile tile).scratch = (s.tile tile).scratch ∧ ∀ k, k ≠ r.stile → t.stile k = s.stile k) ∧
    (s.tileReady tile { r with opcode := 0x10, ext := extMode r.ext 2 } = true →
      ∃ t, exec (.tileSet tile r) s = .next t ∧ (t.stile r.stile).count = min r.value stileMax ∧
        (t.tile tile).scratch = (s.tile tile).scratch ∧ ∀ k, k ≠ r.stile → t.stile k = s.stile k) ∧
    (∀ q : CmdRec, q = { r with opcode := 0x11, ext := r.ext / 2 * 2 } → s.tileReady tile q = true →
      ∃ t, exec (.tileWait tile r) s = .next t ∧ t.stiles = s.stiles ∧
        (t.tile tile).scratch = (s.tile tile).scratch ∧
        (s.waitHolds tile q = true → (t.tile tile).queue = [] ∧
          (t.tile tile).lastDone = max r.issue (s.tile tile).lastDone + 3) ∧
        (s.waitHolds tile q = false → (t.tile tile).queue = [q] ∧ (t.tile tile).lastDone = (s.tile tile).lastDone)) ∧
    ∀ q : CmdRec, q = { r with opcode := 0x11, ext := r.ext / 2 * 2 + 1 } → s.tileReady tile q = true →
      ∃ t, exec (.tileWaitConsume tile r) s = .next t ∧ (t.tile tile).scratch = (s.tile tile).scratch ∧
        (s.waitHolds tile q = true → (t.tile tile).queue = [] ∧
          (t.stile r.stile).count = (if r.value = 0 then (s.stile r.stile).count
            else min (s.stile r.stile).count stileMax - r.value)) ∧
        (s.waitHolds tile q = false → (t.tile tile).queue = [q] ∧ t.stiles = s.stiles)

/-- What releases a tile or a burrow that waits (R96, R289): a satisfied WAIT leaves the queue and completes no earlier than the cycle
at which its stile gave way; the scoreboard lets go of landings that have completed, and the command it held then runs. -/
def Obligations.WaitsAreReleased : Prop :=
  ∀ (s : State) (tile cycle : Nat) (r : CmdRec),
    (s.running = true → (s.tile tile).queue = [r] → r.opcode = 0x11 → r.ext.testBit 0 = false →
      (s.setTile { s.tile tile with queue := [], held := false }).waitHolds tile r = true →
      ∃ t, exec (.stileWaitSatisfied (.tile tile) cycle) s = .next t ∧ (t.tile tile).queue = [] ∧
        (t.tile tile).lastDone = max (max r.issue (s.tile tile).lastDone) cycle + 3) ∧
    (∀ b k n : Nat, s.running = true → (s.burrow b).wait = .stile k n → s.stileHolds k n = true →
      ∃ t, exec (.stileWaitSatisfied (.burrow b) cycle) s = .next t ∧ (t.burrow b).wait = .none ∧
        (t.burrow b).pc = (s.burrow b).pc ∧ ∀ i, i ≠ b → t.burrow i = s.burrow i) ∧
    ((s.tile tile).queue = [] →
      ∃ t, exec (.scoreboardRelease tile cycle) s = .next t ∧
        (t.tile tile).board = (s.tile tile).board.filter (fun l => !l.landed) ∧
        (t.tile tile).scratch = (s.tile tile).scratch) ∧
    (s.running = true → (s.tile tile).queue = [r] → (s.tile tile).held = true → r.opcode ≠ 0x11 →
      (∀ l ∈ (s.tile tile).board, l.landed = true) → (s.tile tile).fenced = false →
      ∃ t, exec (.scoreboardRelease tile cycle) s = .next t ∧ (t.tile tile).queue = [] ∧ (t.tile tile).hold = true ∧
        (t.tile tile).lastDone = max (max r.issue (s.tile tile).lastDone) cycle + cmdCost r)

/-- Faults of a tile (Table TL-9): a corrected error is counted and nothing else; an uncorrected one fences the tile until the next boundary and
raises one event; a wire of a link is fenced for its spare. -/
def Obligations.TileFaultsFence : Prop :=
  ∀ (s : State) (tile : Nat), tile < 4096 →
    (∃ t, exec (.tileFault tile (.corrected false)) s = .next t ∧
      (t.tile tile).counts = addCounts (s.tile tile).counts { Counts0 with ecc := 1 } ∧
      (t.tile tile).scratch = (s.tile tile).scratch ∧ t.events = s.events ∧ t.faults = s.faults) ∧
    (∃ t, exec (.tileFault tile (.corrected true)) s = .next t ∧ t.mesh.flitEcc = bump s.mesh.flitEcc 1 ∧
      t.mesh.tiles = s.mesh.tiles ∧ t.events = s.events) ∧
    (∀ k : TileFaultKind, k = .double ∨ k = .parity ∨ k = .residue →
      ∃ t, exec (.tileFault tile k) s = .next t ∧ (t.tile tile).fenced = true ∧
        Part.tile (s.physTile tile).1 (s.physTile tile).2 ∈ t.faults.fenced ∧
        t.events.length = s.events.length + 1 ∧ ∀ i, i ≠ tile → t.tile i = s.tile i) ∧
    ∀ x p d : Nat, s.mesh.spareWires.contains (x, p, d) = false →
      ∃ t, exec (.tileFault tile (.wire x p d none)) s = .next t ∧ Part.wire x p d ∈ t.faults.fenced ∧
        t.mesh.tiles = s.mesh.tiles ∧ t.events.length = s.events.length + 1

/-! ### Warrens -/

/-- The micro-ops that drive a burrow's program (R130, R135): a slot starts at its ENTRY with nothing of an earlier slot; NEXT loads
the slot's next bound item, or jumps when there is none; JUMP goes to its target, or, when it asks for more entries and there
are none, on; END ends the slot. -/
def Obligations.BurrowProgramControl : Prop :=
  ∀ (s : State) (i w : Nat),
    (∀ (slot : Nat) (k : BSlot), s.bslot i slot = some k → s.running = true → (s.burrow i).running = none →
      (s.burrow i).store ≠ [] →
      ∃ t, exec (.burrowSlotStart i slot) s = .next t ∧ (t.burrow i).running = some slot ∧ (t.burrow i).pc = k.entry ∧
        (t.burrow i).item = none ∧ (t.burrow i).cycles = 0 ∧ (t.burrow i).counts = Counts0 ∧
        (t.burrow i).bound = (s.burrow i).bound ∧ ∀ j, j ≠ i → t.burrow j = s.burrow j) ∧
    (∀ (k : Nat) (it : BurrowItem), s.atMicro i 0x01 w = true → (s.burrow i).running = some k →
      (s.burrow i).nextItem = some it →
      ∃ t, exec (.nextItem i) s = .next t ∧ (t.burrow i).item = some it ∧
        (t.burrow i).bound = dropFirst k (s.burrow i).bound ∧ (t.burrow i).cursor = 0 ∧
        (t.burrow i).pc = (s.burrow i).pc + 1 ∧ ∀ j, j ≠ i → t.burrow j = s.burrow j) ∧
    (s.atMicro i 0x01 w = true → (s.burrow i).nextItem = none →
      ∃ t, exec (.nextItem i) s = .next t ∧ (t.burrow i).item = none ∧ (t.burrow i).pc = mTarget w ∧
        (t.burrow i).running = (s.burrow i).running ∧ ∀ j, j ≠ i → t.burrow j = s.burrow j) ∧
    (s.atMicro i 0x0B w = true → mFlag w 3 = false →
      ∃ t, exec (.jump i) s = .next t ∧ t.burrow i = { s.issued i w with pc := mTarget w } ∧
        ∀ j, j ≠ i → t.burrow j = s.burrow j) ∧
    (∀ it : BurrowItem, s.atMicro i 0x0B w = true → mFlag w 3 = true → (s.burrow i).item = some it →
      ∃ t, exec (.jump i) s = .next t ∧
        (t.burrow i).pc = (if (s.burrow i).cursor < it.entries.length then mTarget w else (s.burrow i).pc + 1) ∧
        ∀ j, j ≠ i → t.burrow j = s.burrow j) ∧
    (s.atMicro i 0x0C w = true →
      ∃ t, exec (.endSlot i) s = .next t ∧ (t.burrow i).running = none ∧ (t.burrow i).item = none ∧
        (t.burrow i).store = (s.burrow i).store ∧ ∀ j, j ≠ i → t.burrow j = s.burrow j)

/-- LUTs of a burrow (R127, R130): LUTGET starts a pull for the next item into a half; the pull lands the item's delivery block
in that half; LUTW takes up a half that holds its item's block, and waits for it otherwise. -/
def Obligations.BurrowLutPulls : Prop :=
  ∀ (s : State) (i w : Nat) (it : BurrowItem),
    (s.atMicro i 0x02 w = true → (s.burrow i).nextItem = some it →
      ∃ t, exec (.lutget i) s = .next t ∧
        (t.burrow i).pulls = (s.burrow i).pulls ++ [(flag (mFlag w 0), it)] ∧
        (t.burrow i).ready (flag (mFlag w 0)) = none ∧ (t.burrow i).item = (s.burrow i).item ∧
        (t.burrow i).pc = (s.burrow i).pc + 1) ∧
    (∀ h : Nat, (s.burrow i).pulls.find? (fun p => p.1 == h) = some (h, it) →
      ∃ t, exec (.lutPullLanded i h) s = .next t ∧ (t.burrow i).lut h = s.delivery it ∧
        (t.burrow i).ready h = some it.slot ∧ (t.burrow i).pulls = (s.burrow i).pulls.erase (h, it) ∧
        (t.burrow i).item = (s.burrow i).item ∧ ∀ j, j ≠ i → t.burrow j = s.burrow j) ∧
    (s.atMicro i 0x03 w = true → (s.burrow i).item = some it →
      (s.burrow i).ready (flag (mFlag w 0)) = some it.slot →
      ∃ t, exec (.lutw i) s = .next t ∧ (t.burrow i).wait = .none ∧ (t.burrow i).half = flag (mFlag w 0) ∧
        (t.burrow i).basePairs = bytesAt ((s.burrow i).lut (flag (mFlag w 0))) 0 128 ∧
        (t.burrow i).filter = bytesAt ((s.burrow i).lut (flag (mFlag w 0))) 128 128) ∧
    (s.atMicro i 0x03 w = true → (s.burrow i).item = some it →
      (s.burrow i).ready (flag (mFlag w 0)) ≠ some it.slot →
      ∃ t, exec (.lutw i) s = .next t ∧ (t.burrow i).wait = .lut (flag (mFlag w 0)) ∧
        (t.burrow i).basePairs = (s.burrow i).basePairs)

/-- SCANL and EMIT (R131): the entry at the cursor is scanned, its best CAP candidates in the order of R209 kept and all of its
candidates counted; EMIT writes CAP key entries, filled with empty ones, at the entry's place on the item's tile and adds 1 to
its stile. -/
def Obligations.BurrowScanAndEmit : Prop :=
  ∀ (s : State) (i w : Nat) (it : BurrowItem),
    (∀ (e : Word64) (x : Index), s.atMicro i 0x04 w = true → (s.burrow i).item = some it →
      it.entries[(s.burrow i).cursor]? = some e → s.index it.fn it.object = some x →
      ∃ t, exec (.scanl i) s = .next t ∧ (t.burrow i).cursor = (s.burrow i).cursor + 1 ∧
        (t.burrow i).last = (s.burrow i).cursor ∧ (t.burrow i).topk.length ≤ it.cap ∧
        (t.burrow i).scanned = (s.burrow i).scanned + ((s.entryHdr (s.burrow i) e.toNat).len +
          (if mFlag w 1 then (s.entryHdr (s.burrow i) e.toNat).dlen else 0)) ∧
        (t.burrow i).pc = (s.burrow i).pc + 1 ∧ t.t1 = s.t1 ∧ t.mesh = s.mesh) ∧
    (s.atMicro i 0x05 w = true → (s.burrow i).item = some it → (s.burrow i).fenced = false →
      ∃ t, exec (.emit i) s = .next t ∧
        (t.tile it.dstTile).scratch = cellPutBytes (s.tile it.dstTile).scratch
          (it.dstAddr + entPlace (it.entries.getD (s.burrow i).last 0).toNat * it.cap * 8)
          (entryBytes (padEntries it.cap (s.burrow i).topk)) ∧
        (t.stile it.stile).count = min ((s.stile it.stile).count + 1) stileMax ∧
        (∀ k, k ≠ it.dstTile → t.tile k = s.tile k) ∧ ∀ k, k ≠ it.stile → t.stile k = s.stile k)

/-- GATH and RSUB (R132): GATH writes each entry's row in entry order at the stride of a row, nothing for an entry without a
row; RSUB of a single leaf writes that row as stored, and with it its scale. Neither changes stacked memory or another tile. -/
def Obligations.BurrowRows : Prop :=
  ∀ (s : State) (i w : Nat) (it : BurrowItem),
    (s.atMicro i 0x06 w = true → (s.burrow i).item = some it → (s.burrow i).fenced = false →
      ∃ t, exec (.gath i) s = .next t ∧
        (t.tile it.dstTile).scratch = it.entries.zipIdx.foldl (fun m e =>
          if entNone e.1.toNat then m
          else cellPutBytes m (it.dstAddr + e.2 * stride64 (s.itemRow it).1)
            (memReadBytes s.t1 (chanAddr i (entOffset e.1.toNat)) (s.itemRow it).1)) (s.tile it.dstTile).scratch ∧
        t.t1 = s.t1 ∧ (∀ k, k ≠ it.dstTile → t.tile k = s.tile k) ∧ (mFlag w 2 = false → t.stiles = s.stiles)) ∧
    (∀ t0 : TableDef, s.atMicro i 0x07 w = true → (s.burrow i).item = some it → (s.burrow i).fenced = false →
      s.tableDef it.fn it.object = some t0 →
      ∃ t, exec (.rsub i) s = .next t ∧ t.t1 = s.t1 ∧ (t.burrow i).pc = (s.burrow i).pc + 1 ∧
        (∀ k, k ≠ it.dstTile → t.tile k = s.tile k) ∧ (mFlag w 2 = false → t.stiles = s.stiles) ∧
        ∀ e : Word64, it.entries = [e] → it.leaves = 1 → entNone e.toNat = false → entLeaf e.toNat = 0 →
          (t.tile it.dstTile).scratch = cellPutBytes (s.tile it.dstTile).scratch it.dstAddr
            (bytesAt (memReadBytes s.t1 (chanAddr i (entOffset e.toNat)) (rowBytes t0.fmt t0.elems)) 0 (4 * t0.elems) ++
              leBytes 4 (s.rowScale t0 (localOfAddr t0 (chanAddr i (entOffset e.toNat)))).toNat))

/-- SIG, WAITS and BCOPY (R130, R141): SIG signals its stile; WAITS goes on when the stile holds the amount and waits for it
otherwise; BCOPY copies words of the landing area to another burrow of the stack. -/
def Obligations.BurrowSignalsAndCopies : Prop :=
  ∀ (s : State) (i w : Nat),
    (s.atMicro i 0x08 w = true →
      ∃ t, exec (.sig i) s = .next t ∧ t.burrow i = s.issued i w ∧
        (t.stile (mStile w)).count = min ((s.stile (mStile w)).count + mValue w) stileMax ∧
        ∀ k, k ≠ mStile w → t.stile k = s.stile k) ∧
    (s.atMicro i 0x09 w = true →
      ∃ t, exec (.waits i) s = .next t ∧ t.stiles = s.stiles ∧
        (s.stileHolds (mStile w) (mValue w) = true → t.burrow i = s.issued i w) ∧
        (s.stileHolds (mStile w) (mValue w) = false →
          t.burrow i = { s.issued i w with wait := .stile (mStile w) (mValue w) })) ∧
    (∀ d : Nat, d = i / 32 * 32 + field (mValue w) 8 5 → d ≠ i → s.atMicro i 0x0A w = true →
      (s.burrow i).fenced = false →
      ∃ t, exec (.bcopy i) s = .next t ∧
        (t.burrow d).landing = (s.burrow i).landing.take (field (mValue w) 0 4 + 1) ++
          (s.burrow d).landing.drop (field (mValue w) 0 4 + 1) ∧
        t.burrow i = s.issued i w ∧ ∀ j, j ≠ i → j ≠ d → t.burrow j = s.burrow j)

/-- Throttling, refresh and faults of a stack (R142 to R147): the level is the larger of the thermal and the power level, and
level 5 raises an event once in a tick; from 85 °C refresh runs at twice the rate; corrected symbols are counted, and a failed
unit is fenced with its burrow and one event; a refill that is complete leaves none under way. -/
def Obligations.StackConditions : Prop :=
  ∀ (s : State) (stack : Nat), stack < 8 → s.warren.dram.length = 8 →
    (∀ (temp power : Nat) (cool calm : Bool),
      ∃ t, exec (.throttleLevelChange stack temp power cool calm) s = .next t ∧
        (t.stack stack).level = max (t.stack stack).thermal (t.stack stack).powerLevel ∧
        (t.stack stack).temp = temp ∧ (t.stack stack).power = power ∧
        (thermalBand temp > (s.stack stack).thermal → (t.stack stack).thermal = thermalBand temp) ∧
        (thermalBand temp ≤ (s.stack stack).thermal → cool = false → (t.stack stack).thermal = (s.stack stack).thermal) ∧
        (power > s.cfg 3 0 stack → (t.stack stack).powerLevel = min 4 ((s.stack stack).powerLevel + 1)) ∧
        t.events.length = s.events.length +
          (if (t.stack stack).level = 5 ∧ (s.stack stack).level5Tick ≠ some s.tick.count then 1 else 0) ∧
        ∀ j, j ≠ stack → t.stack j = s.stack j) ∧
    (∀ temp : Nat, ∃ t, exec (.refreshRateChange stack temp) s = .next t ∧
      t.stack stack = { s.stack stack with temp := temp, doubleRefresh := decide (85 ≤ temp) } ∧
      ∀ j, j ≠ stack → t.stack j = s.stack j) ∧
    (∀ unit n : Nat, unit ≤ 32 →
      ∃ t, exec (.warrenFault stack unit (.corrected n)) s = .next t ∧
        t.stack stack = { s.stack stack with eccCorr := bump (s.stack stack).eccCorr n } ∧ t.events = s.events ∧
        t.faults = s.faults) ∧
    (∀ (unit c : Nat) (k : WarrenKind), unit ≤ 32 → k = .channel ∨ k = .parity ∨ k = .residue →
      (s.stack stack).chanOf unit = some c →
      ∃ t, exec (.warrenFault stack unit k) s = .next t ∧ Part.unit stack unit ∈ t.faults.fenced ∧
        (t.burrow (32 * stack + c)).fenced = true ∧ t.events.length = s.events.length + 1) ∧
    ∃ t, exec (.unitRefillComplete stack) s = .next t ∧ t.stack stack = { s.stack stack with refill := none } ∧
      ∀ j, j ≠ stack → t.stack j = s.stack j

/-! ### Stiles -/

/-- Operation words that pass the checks of Table ST-7 act as Table ST-6 says (R285): SIGNAL adds and saturates at 16,777,215 with
OVERFLOW, CONSUME subtracts and clamps at 0 with UNDERFLOW, SET replaces COUNT, CLEAR_FLAGS clears the flags of its mask. No
other stile changes, and of this one neither owner, state nor GEN. -/
def Obligations.StileOperationsApply : Prop :=
  ∀ (s : State) (src : StileSource) (fn : Nat) (addr : Option Nat) (w : Word64) (i n : Nat),
    i = addr.getD (field w.toNat 44 14) →
    let same (t : State) : Prop :=
      (t.stile i).owner = (s.stile i).owner ∧ (t.stile i).state = (s.stile i).state ∧ (t.stile i).gen = (s.stile i).gen ∧
        ∀ k, k ≠ i → t.stile k = s.stile k
    (stileCheck s src fn addr (withOp w 1) = .apply (.signal n) →
      ∃ t, exec (.stileSignal src fn addr w) s = .next t ∧ same t ∧
        (t.stile i).count = min ((s.stile i).count + n) 16777215 ∧
        (t.stile i).overflow = ((s.stile i).overflow || decide ((s.stile i).count + n > 16777215)) ∧
        (t.stile i).underflow = (s.stile i).underflow) ∧
    (stileCheck s src fn addr (withOp w 2) = .apply (.consume n) → (s.stile i).count ≤ 16777215 →
      ∃ t, exec (.stileConsume src fn addr w) s = .next t ∧ same t ∧
        (t.stile i).count = (s.stile i).count - n ∧
        (t.stile i).underflow = ((s.stile i).underflow || decide (n > (s.stile i).count)) ∧
        (t.stile i).overflow = (s.stile i).overflow) ∧
    (stileCheck s src fn addr (withOp w 3) = .apply (.set n) → n ≤ 16777215 →
      ∃ t, exec (.stileSet src fn addr w) s = .next t ∧ same t ∧ (t.stile i).count = n ∧
        (t.stile i).overflow = (s.stile i).overflow ∧ (t.stile i).underflow = (s.stile i).underflow) ∧
    (stileCheck s src fn addr (withOp w 4) = .apply (.clear n) → (s.stile i).count ≤ 16777215 →
      ∃ t, exec (.stileClearFlags src fn addr w) s = .next t ∧ same t ∧ (t.stile i).count = (s.stile i).count ∧
        (t.stile i).overflow = ((s.stile i).overflow && !n.testBit 0) ∧
        (t.stile i).underflow = ((s.stile i).underflow && !n.testBit 1) ∧
        (t.stile i).misuse = ((s.stile i).misuse && !n.testBit 2))

/-- An operation word that fails a check of Table ST-7 changes no COUNT: a foreign one changes no stile and marks the
function's page, a misuse, stale or future one sets MISUSE, and a late one changes no stile; each is counted for the node. The
same holds for all four operations. -/
def Obligations.StileChecksRefuse : Prop :=
  ∀ (s : State) (src : StileSource) (fn : Nat) (addr : Option Nat) (w : Word64) (i k : Nat) (c : Instr),
    i = addr.getD (field w.toNat 44 14) →
    (c = .stileSignal src fn addr w ∧ k = 1) ∨ (c = .stileConsume src fn addr w ∧ k = 2) ∨
      (c = .stileSet src fn addr w ∧ k = 3) ∨ (c = .stileClearFlags src fn addr w ∧ k = 4) →
    ∃ t, exec c s = .next t ∧
      (stileCheck s src fn addr (withOp w k) = .foreign →
        (∀ j, t.stile j = s.stile j) ∧ (t.fn fn).foreign = true ∧ t.stiles.counters = bumpAt s.stiles.counters 5 1 ∧
          t.events.length = s.events.length + (if (s.fn fn).foreign then 0 else 1)) ∧
      (∀ v m, (v, m) ∈ [(StileVerdict.misuse, 2), (.stale, 3), (.future, 4)] → stileCheck s src fn addr (withOp w k) = v →
        t.stile i = { s.stile i with misuse := true } ∧ (∀ j, j ≠ i → t.stile j = s.stile j) ∧
          t.stiles.counters = bumpAt s.stiles.counters m 1) ∧
      (stileCheck s src fn addr (withOp w k) = .late →
        (∀ j, t.stile j = s.stile j) ∧ t.stiles.counters = bumpAt s.stiles.counters 6 1 ∧ t.events = s.events)

/-- Reading a stile and its upkeep (R279, R282, R300): an aligned 8-byte read of its first word by the owner or function 0 gives
the state word and any other read 0, with no stile changed; a quarantine that has lasted its boundaries leaves the stile FREE with its GEN;
a single-bit error is counted; after a double-bit error the stile is marked for the next boundary. -/
def Obligations.StileReadAndUpkeep : Prop :=
  ∀ (s : State) (fn off size i : Nat),
    (∃ t, exec (.stileRead fn off size i) s = .next t ∧ t.stiles = s.stiles ∧
      (off = 0 → size = 8 → fn = 0 ∨ ((s.stile i).owner = fn ∧ ((s.stile i).state = .planned ∨ (s.stile i).state = .function)) →
        t.regs.readData = (s.stile i).stateWord) ∧
      (off ≠ 0 ∨ size ≠ 8 → t.regs.readData = 0)) ∧
    ((s.stile i).state = .quarantine → (s.stile i).quarEnd ≤ s.tick.count →
      ∃ t, exec (.quarantineEnd i) s = .next t ∧ t.stile i = { s.stile i with state := .free } ∧
        ∀ k, k ≠ i → t.stile k = s.stile k) ∧
    ((s.stile i).state = .quarantine → ¬ (s.stile i).quarEnd ≤ s.tick.count →
      exec (.quarantineEnd i) s = .next s) ∧
    (∃ t, exec (.stileEccError i false) s = .next t ∧ t.stiles.counters = bumpAt s.stiles.counters 7 1 ∧
      t.stiles.table = s.stiles.table ∧ t.stiles.broken = s.stiles.broken) ∧
    ∃ t, exec (.stileEccError i true) s = .next t ∧ i ∈ t.stiles.broken ∧ t.stiles.table = s.stiles.table ∧
      t.stiles.counters = s.stiles.counters

/-! ### Descriptors of searches, selections, lookups, watches, plans and flash -/

/-- Searches and selections (R194, R201, R220, R222): an accepted SEARCH begins as a query of this node with the fields of its
descriptor and nothing sent; an accepted SELECT begins with its input still to be read. Neither writes host memory. -/
def Obligations.SearchAndSelectBegin : Prop :=
  ∀ (s : State) (d : Desc),
    (∀ x : Index, s.takes d 0x20 searchCheck 1 = true → s.index d.fn (field (d.w 1) 32 16) = some x →
      ∃ t q, exec (.search d) s = .next t ∧ Accepted s t d 0x20 ∧ t.search.front = s.search.front ++ [q] ∧
        q.ring = d.ring ∧ q.ask.fn = d.fn ∧ q.ask.seq = d.seq ∧ q.ask.cls = d.cls ∧ q.ask.index = field (d.w 1) 32 16 ∧
        q.ask.k = field (d.w 1) 21 11 + 1 ∧ (d.cls ≠ 0x1F → q.ask.nprobe = field (d.w 1) 13 8 + 1 ∧ q.ask.exDepth = 0) ∧
        (d.cls = 0x1F → q.ask.exDepth = if field (d.w 6) 0 16 = 0 then 1024 else field (d.w 6) 0 16) ∧
        q.ask.rerank = field (d.w 1) 4 5 ∧ q.ask.tick = s.tick.count ∧ q.raddr = d.w 4 ∧ q.sent = false ∧
        q.ask.query = memReadBytes s.hostMem (d.w 2) (rowBytes (field (d.w 1) 0 4) x.dims) ∧ t.hostMem = s.hostMem) ∧
    (s.takes d 0x24 selectCheck (selPieces s d) = true →
      ∃ t j, exec (.select d) s = .next t ∧ Accepted s t d 0x24 ∧ t.search.selects = s.search.selects ++ [j] ∧
        j.fn = d.fn ∧ j.ring = d.ring ∧ j.seq = d.seq ∧ j.k = field (d.w 1) 36 12 + 1 ∧ j.len = field (d.w 1) 0 24 + 1 ∧
        j.rows = field (d.w 2) 0 16 + 1 ∧ j.desc = (d.w 1).testBit 35 ∧ j.fmt = field (d.w 1) 24 8 ∧ j.iaddr = d.w 3 ∧
        j.raddr = d.w 4 ∧ j.landed = false ∧ j.input = [] ∧ t.hostMem = s.hostMem)

/-- Lookups (R229, R234): an accepted GATHER holds a row for each of its indices, with its weight or 1.0; an accepted
PKLOOKUP holds the rows that its search selects. A row that the table drops is marked so. -/
def Obligations.LookupsBegin : Prop :=
  ∀ (s : State) (d : Desc) (t0 : TableDef), s.tableDef d.fn (lkTable d) = some t0 →
    (s.takes d 0x25 (lookupCheck false) 1 = true →
      ∃ t, ∃ l ∈ t.tables.lookups, exec (.gather d) s = .next t ∧ Accepted s t d 0x25 ∧ l.fn = d.fn ∧ l.ring = d.ring ∧
        l.seq = d.seq ∧ l.table = lkTable d ∧ l.tick = s.tick.count ∧ l.pk = false ∧
        l.rows = (List.range (lkN d)).map (fun i => lookRow t0 (memNat s.hostMem (d.w 2 + 8 * i) 8)
          (if lkWmode d = 1 then BitVec.ofNat 32 (memNat s.hostMem (d.w 3 + 4 * i) 4) else 0x3F800000#32)) ∧
        l.dropped = (l.rows.filter fun r => r.st == .dropped).length ∧ t.hostMem = s.hostMem ∧ t.t1 = s.t1) ∧
    (s.takes d 0x26 (lookupCheck true) 1 = true →
      ∃ t, ∃ l ∈ t.tables.lookups, exec (.pklookup d) s = .next t ∧ Accepted s t d 0x26 ∧ l.fn = d.fn ∧ l.ring = d.ring ∧
        l.seq = d.seq ∧ l.table = lkTable d ∧ l.tick = s.tick.count ∧ l.pk = true ∧
        l.rows = (pkSearch t0 (lkQfmt d) (lkK d)
          (memReadBytes s.hostMem (d.w 2) (rowBytes (lkQfmt d) (2 * t0.dims)))).1.map (fun x => lookRow t0 x.1 x.2) ∧
        l.dropped = (l.rows.filter fun r => r.st == .dropped).length ∧ t.t1 = s.t1)

/-- WATCH, PLAN_STAGE, LOAD and FORMAT (R464, R49, R240, R266): an accepted WATCH stands unarmed until the next boundary; an
accepted PLAN_STAGE copies its image for validation and leaves the active plan; an accepted LOAD begins with no sheaf landed;
an accepted FORMAT discards what its die sets hold. -/
def Obligations.WatchPlanLoadFormatBegin : Prop :=
  ∀ (s : State) (d : Desc),
    (s.takes d 0x30 watchCheck 1 = true →
      ∃ t w, exec (.watch d) s = .next t ∧ Accepted s t d 0x30 ∧ t.obs.watches = s.obs.watches ++ [w] ∧ w.fn = d.fn ∧
        w.ring = d.ring ∧ w.seq = d.seq ∧ w.armed = false ∧ w.dump = (field (d.w 1) 46 2 == 1) ∧
        w.atTick = (d.w 1).testBit 45 ∧ w.tensor = field (d.w 1) 32 8 ∧ w.object = field (d.w 1) 16 16 ∧
        w.target = BitVec.ofNat 64 (d.w 2) ∧ w.raddr = d.w 4 ∧ w.daddr = d.w 5 ∧ t.hostMem = s.hostMem) ∧
    (s.takes d 0x05 planStageCheck 1 = true →
      ∃ t, exec (.planStage d) s = .next t ∧ Accepted s t d 0x05 ∧
        t.plan.validating = some (⟨d.fn, d.ring, d.seq, memReadBytes s.hostMem (d.w 2) (64 * field (d.w 3) 32 32)⟩) ∧
        t.plan.staging = none ∧ t.plan.active = s.plan.active) ∧
    (s.takes d 0x23 (upCheck 0x23) 1 = true → s.applied s.replica d.fn d.ring d.seq = false →
      ∃ t j, exec (.load d) s = .next t ∧ Accepted s t d 0x23 ∧ t.tables.loads = s.tables.loads ++ [j] ∧ j.fn = d.fn ∧
        j.ring = d.ring ∧ j.seq = d.seq ∧ j.obj = upObject d ∧ j.count = upCount d ∧ j.next = d.w 2 ∧ j.raddr = d.w 4 ∧
        j.landed = [] ∧ t.tables.queue = s.tables.queue ∧ t.t1 = s.t1) ∧
    (s.takes d 0x06 formatCheck 1 = true →
      ∃ t, exec (.format d) s = .next t ∧ Accepted s t d 0x06 ∧
        t.flash.words = (s.flash.words.filter fun w => !(s.formatMask d).testBit w.set) ∧
        t.t1 = s.t1 ∧ t.hostMem = s.hostMem)

/-! ### Descriptors of updates, transactions, connections and quiesces -/

/-- Updates (R238, R239, R244): an accepted INSERT, DELETE, ROWWRITE or ROWDELETE that is new and fits its function's flash
appends an item for each of its vectors or rows, in order, to those that the next tick applies, each with its record in the
log. An item names its target as its list in host memory gives it. No index, table or stacked memory changes yet. -/
def Obligations.UpdatesAreLogged : Prop :=
  ∀ (s : State) (d : Desc) (op : Nat) (c : Instr),
    (op, c) ∈ [(0x21, Instr.insert d), (0x22, .delete d), (0x27, .rowwrite d), (0x28, .rowdelete d)] →
    s.takes d op (upCheck op) 1 = true → s.applied s.replica d.fn d.ring d.seq = false →
    (∀ u ∈ s.tables.queue, ¬ (u.origin = s.replica ∧ u.fn = d.fn ∧ u.ring = d.ring ∧ u.seq = d.seq)) →
    (op = 0x21 → (s.index d.fn (upObject d)).isSome = true ∧ s.flashFits (((s.upItems d op).1.map recCost).sum) = true) →
    (op = 0x27 → (s.tableDef d.fn (upObject d)).isSome = true) →
    s.flashOf d.fn + ((s.upItems d op).1.map recCost).sum ≤ s.flashGrant d.fn →
    ∃ t us, exec c s = .next t ∧ Accepted s t d op ∧ t.tables.queue = s.tables.queue ++ us ∧ us.length = upCount d ∧
      t.flash.log.map (·.bytes) = s.flash.log.map (·.bytes) ++ us.map recBytes ∧
      t.t1 = s.t1 ∧ t.search = s.search ∧ t.hostMem = s.hostMem ∧
      ∀ i u, us[i]? = some u → u.op = op ∧ u.fn = d.fn ∧ u.ring = d.ring ∧ u.seq = d.seq ∧ u.item = i ∧
        u.obj = upObject d ∧ u.tick = s.tick.count + 1 ∧
        (op = 0x21 → u.attr = BitVec.ofNat 64 (memNat s.hostMem (d.w 3 + 8 * i) 8)) ∧
        (op = 0x27 → u.target = BitVec.ofNat 64 (memNat s.hostMem (d.w 3 + 8 * i) 8)) ∧
        (op = 0x22 ∨ op = 0x28 → u.target = BitVec.ofNat 64 (memNat s.hostMem (d.w 2 + 8 * i) 8))

/-- Transactions (R382, R383, R386): BEGIN opens an empty one; SET records ADDR and COUNT while no more than 4,096 items come
together and rolls back otherwise; ROLLBACK closes it with no effect; COMMIT closes it, and lists it for its boundary when
every record passes, or ends rejected. Until that boundary no item of the node changes. -/
def Obligations.TransactionsFollowTheirDescriptors : Prop :=
  ∀ (s : State) (d : Desc),
    (s.takes d 0x01 (txnCheck 1) 1 = true →
      ∃ t x, exec (.beginTxn d) s = .next t ∧ Accepted s t d 0x01 ∧ t.endedWith d stOk ∧ t.txn d.fn = some x ∧
        x.beginSeq = d.seq ∧ x.sets = [] ∧ t.items = s.items) ∧
    (∀ x : Txn, s.takes d 0x02 (txnCheck 2) 1 = true → s.txn d.fn = some x →
      ∃ t, exec (.setItem d) s = .next t ∧ Accepted s t d 0x02 ∧ t.items = s.items ∧
        ((x.sets.map (·.2)).sum + (field (d.w 1) 0 9 + 1) ≤ 4096 → t.endedWith d stOk ∧
          t.txn d.fn = some { x with sets := x.sets ++ [(d.w 2, field (d.w 1) 0 9 + 1)] }) ∧
        ((x.sets.map (·.2)).sum + (field (d.w 1) 0 9 + 1) > 4096 → t.endedWith d stRejected ∧ t.txn d.fn = none)) ∧
    (s.takes d 0x04 (txnCheck 4) 1 = true →
      ∃ t, exec (.rollback d) s = .next t ∧ Accepted s t d 0x04 ∧ t.endedWith d stOk ∧ t.txn d.fn = none ∧
        t.items = s.items ∧ t.host.commits = s.host.commits) ∧
    (∀ (x : Txn) (a : State), a = s.acceptWork d 0x03 0 true none → s.takes d 0x03 (txnCheck 3) 1 = true →
      s.txn d.fn = some x → s.isFallow = false →
      ∃ t, exec (.commit d) s = .next t ∧ Accepted s t d 0x03 ∧ t.txn d.fn = none ∧ t.items = s.items ∧
        (firstFault a (a.afterCommits a.applyTick) d.fn (a.txnItems x) (a.afterCommits a.applyTick) [] (a.txnItems x) = none →
          ∃ c, t.host.commits = s.host.commits ++ [c] ∧ c.fn = d.fn ∧ c.seq = d.seq ∧ c.items = (a.txnItems x).map (·.1) ∧
            c.apply = s.tick.count + (if s.tick.phase = .guard then 2 else 1) ∧ c.result = d.w 2) ∧
        (∀ i k, firstFault a (a.afterCommits a.applyTick) d.fn (a.txnItems x) (a.afterCommits a.applyTick) []
            (a.txnItems x) = some (i, k) →
          t.host.commits = s.host.commits ∧ t.endedWith d (if k = 3 then stNotPermitted else stRejected)))

/-- Connections (R380): CONN_OPEN takes the lowest free number of its range for a connection that opens at the next boundary,
with the peer, class, kind and keys of its descriptor; CONN_CLOSE closes the connection it names at the next boundary. -/
def Obligations.ConnectionsOpenAndClose : Prop :=
  ∀ (s : State) (d : Desc) (n : Nat),
    (s.takes d 0x07 connOpenCheck 1 = true →
      s.lowestNum ((d.w 1).testBit 36) (field (d.w 1) 34 2 == 0 || field (d.w 1) 34 2 == 3) = some n →
      ∃ t c, exec (.connOpen d) s = .next t ∧ Accepted s t d 0x07 ∧ t.endedWith d stOk ∧ t.conn n = some c ∧
        c.fn = d.fn ∧ c.tc = field (d.w 1) 37 3 ∧ c.kind = connKind (field (d.w 1) 34 2) ∧ c.state = .opening ∧
        c.peerHi = BitVec.ofNat 64 (d.w 2) ∧ c.peerLo = BitVec.ofNat 64 (d.w 3) ∧ c.peerMac = field (d.w 4) 0 48 ∧
        c.peerConn = field (d.w 5) 0 21 ∧ c.mtu = 1024 * 2 ^ field (d.w 1) 32 2 ∧ c.expPsn = field (d.w 1) 0 24 ∧
        ∀ k, k ≠ n → t.conn k = s.conn k) ∧
    (∀ c : Conn, s.takes d 0x08 connCloseCheck 1 = true → field (d.w 2) 0 21 = n → s.conn n = some c → c.num = n →
      ∃ t, exec (.connClose d) s = .next t ∧ Accepted s t d 0x08 ∧ t.endedWith d stOk ∧
        t.conn n = some { c with state := .closing } ∧ ∀ k, k ≠ n → t.conn k = s.conn k)

/-- QUIESCE and RESUME (R379): TARGET 0 acts on the issuing function, TARGET 1 on every function of the composition, TARGET 2
sends to the peer and completes when the peer has acknowledged; a peer's message acts on the function that it names. Each
acts at the next boundary. -/
def Obligations.QuiescesAndResumes : Prop :=
  ∀ (s : State) (d : Desc),
    (s.takes d 0x09 (quiesceCheck 0) 1 = true →
      ∃ t, exec (.quiesceOwn d) s = .next t ∧ Accepted s t d 0x09 ∧ t.endedWith d stOk ∧
        (t.fn d.fn).quiesceNext = some true ∧ ∀ f, f ≠ d.fn → t.fn f = s.fn f) ∧
    (s.takes d 0x09 (quiesceCheck 1) 1 = true →
      ∃ t, exec (.quiesceAll d) s = .next t ∧ Accepted s t d 0x09 ∧ t.endedWith d stOk ∧
        (∀ f ∈ s.functions, (t.fn f).quiesceNext = some true) ∧
        ∀ f, f ∉ s.functions → (t.fn f).quiesceNext = (s.fn f).quiesceNext) ∧
    (s.takes d 0x09 (quiesceCheck 2) 1 = true →
      ∃ t q, exec (.quiesceRemote d) s = .next t ∧ Accepted s t d 0x09 ∧
        t.host.remoteQuiesce = s.host.remoteQuiesce ++ [q] ∧ q.fn = d.fn ∧ q.ring = d.ring ∧ q.seq = d.seq ∧
        q.peer = field (d.w 3) 0 32 ∧ q.func = field (d.w 1) 0 12 ∧ q.quiesce = true ∧
        ∀ f, (t.fn f).quiesceNext = (s.fn f).quiesceNext) ∧
    (∀ k : Nat, k = field (d.w 1) 32 2 → k < 2 → s.takes d 0x0A (quiesceCheck k) 1 = true →
      ∃ t, exec (.resume d) s = .next t ∧ Accepted s t d 0x0A ∧ t.endedWith d stOk ∧
        (k = 0 → (t.fn d.fn).quiesceNext = some false) ∧
        (k = 1 → ∀ f ∈ s.functions, (t.fn f).quiesceNext = some false)) ∧
    (∀ (peer func : Nat) (q : Bool), s.fabricOn = true →
      ∃ t, exec (.quiesceMessage peer func q) s = .next t ∧ (t.fn func).quiesceNext = some q ∧
        t.host.quiesceAcks = s.host.quiesceAcks ++ [peer] ∧ ∀ f, f ≠ func → t.fn f = s.fn f)

/-! ### Plans and sheaf moves -/

/-- The end of a validation and the start of a move (R49, R51, R168): TK_PLAN_STATUS takes the outcome of Table TK-8, a sound
image stands in the staging slot and any other does not, and its PLAN_STAGE ends with OK or PLAN_MISMATCH; the active plan
stays. A move of the active plan that is due is then under way, and nothing of it has landed. -/
def Obligations.PlanValidationEndsAndMovesStart : Prop :=
  ∀ s : State,
    (∀ v : Staging, s.plan.validating = some v →
      ∃ t, exec .planValidationDone s = .next t ∧ t.plan.validating = none ∧ t.plan.active = s.plan.active ∧
        (t.plan.reason, t.plan.section_, t.plan.record) = s.validate v.image (v.image.length / 64) ∧
        (t.plan.reason = 0 → t.plan.staging = some { image := v.image, valid := true }) ∧
        (t.plan.reason ≠ 0 → t.plan.staging = none) ∧
        ∀ w, s.workAt v.fn v.ring v.seq = some w → w.done = none →
          ∃ w' c, t.workAt v.fn v.ring v.seq = some w' ∧ w'.done = some c ∧
            c.status = if t.plan.reason = 0 then stOk else stPlanMismatch) ∧
    (∀ (num : Nat) (r : MoveRec), s.running = true → s.moveRec num = some r → s.moveAt num = none →
      r.issue ≠ 0xFFFFFFFF → r.srcTier ≠ 0 → r.dstTier ≠ 0 →
      ¬ (r.fn = 0 ∧ r.cls = 0xFE ∧ 2 ∈ s.tiers.shed) →
      ∃ t m, exec (.sheafMoveStart num) s = .next t ∧ t.tiers.moves = s.tiers.moves ++ [m] ∧ m.num = num ∧
        m.tile = none ∧ m.stile = r.stile ∧ m.value = r.value ∧ m.tick = s.tick.count ∧ m.retried = false ∧
        t.t1 = s.t1 ∧ t.stiles = s.stiles)

/-- How a move ends (R156, R162, R170, Table TI-6): a payload that passes its check is written to stacked memory behind its
new header, and only then is its stile signalled; a failed or late move from flash ends and its class counts it; one from the
shared tier is tried once more, and then ends with an event. A staged sheaf of a fenced tile commits nothing. A SELECT's
input lands whole. -/
def Obligations.SheavesLand : Prop :=
  ∀ (s : State) (num : Nat) (m : Move) (r : MoveRec), s.moveAt num = some m → s.moveRec num = some r →
    (∀ (hb sp p : List Byte) (b : Binding), m.staged = none → m.tile = none → m.tick.toNat ≤ s.tick.count.toNat →
      s.moveSource r = some (hb, sp, b, true) → sheafCheck hb sp r.srcTier b = .ok p → r.dstTier = 1 →
      ∃ t, exec (.sheafLanding (.plan num) false) s = .next t ∧
        t.t1 = memWriteBytes s.t1 r.dst (shBytes (committed (shOf hb) p s.tick.count) ++ p) ∧
        (∀ x ∈ t.tiers.moves, x.num ≠ num) ∧
        (m.value ≠ 0 → (t.stile m.stile).count = min ((s.stile m.stile).count + m.value) stileMax) ∧
        (∀ k, k ≠ m.stile → t.stile k = s.stile k) ∧ (m.value = 0 → t.stiles = s.stiles)) ∧
    (∀ c : Instr, c = .sheafLanding (.plan num) true ∨ c = .sheafMoveDeadline (.plan num) →
      m.staged = none → m.tick.toNat ≤ s.tick.count.toNat →
      ∃ t, exec c s = .next t ∧
        (r.srcTier = 2 ∨ r.srcTier = 3 → t.t1 = s.t1 ∧ t.stiles = s.stiles ∧ t.mesh = s.mesh) ∧
        (r.srcTier = 2 → (∀ x ∈ t.tiers.moves, x.num ≠ num) ∧ t.obs = ((s.dropMove num).classBump r.fn r.cls 10 1).obs) ∧
        (r.srcTier = 3 → m.retried = false → t.events = s.events ∧
          { m with retried := true, tick := s.tick.count + 1 } ∈ t.tiers.moves) ∧
        (r.srcTier = 3 → m.retried = true → (∀ x ∈ t.tiers.moves, x.num ≠ m.num) ∧
          t.events.length = s.events.length + 1)) ∧
    (∀ (hb p : List Byte) (i : Nat), m.staged = some (hb, p) → m.tile = some i →
      ∃ t, exec (.sheafCommit num) s = .next t ∧ (∀ x ∈ t.tiers.moves, x.num ≠ num) ∧
        ((s.tile i).fenced = true → t.t1 = s.t1 ∧ t.stiles = s.stiles ∧ t.flash = s.flash ∧ t.mesh = s.mesh) ∧
        ((s.tile i).fenced = false → stagedOk hb p = false →
          t.t1 = s.t1 ∧ t.stiles = s.stiles ∧ t.events.length = s.events.length + 1) ∧
        ((s.tile i).fenced = false → stagedOk hb p = true → r.dstTier = 1 →
          t.t1 = memWriteBytes s.t1 r.dst (shBytes (committed (shOf hb) p s.tick.count) ++ p) ∧
          (m.value ≠ 0 → (t.stile m.stile).count = min ((s.stile m.stile).count + m.value) stileMax))) ∧
    (∀ (f g : Nat) (q : Word64) (j : SelectJob), s.selectAt f g q = some j → j.landed = false → j.retried = false →
      ∃ t x, exec (.sheafLanding (.select f g q) false) s = .next t ∧ x ∈ t.search.selects ∧ x.landed = true ∧
        x.tick = s.tick.count ∧ x.input = memReadBytes s.hostMem j.iaddr (j.rows * j.stride) ∧ x.k = j.k ∧ x.rows = j.rows)

/-! ### Search at shards, and flash reads -/

/-- SHARD_QUERY and SHARD_RESULT (R200, R203, R218): a query whose digest is the index's joins the shard's queries, and any
other is answered at once; a result joins its front query in the place of its shard, the first that comes, and a result that
no query waits for changes nothing. -/
def Obligations.ShardQueriesAndResults : Prop :=
  ∀ (s : State) (payload : List Byte),
    (∀ x : Index, s.index (askOf 0 payload).fn (askOf 0 payload).index = some x →
      ∃ t, exec (.shardQuery payload) s = .next t ∧
        (x.digest = some (askOf x.dims payload).digest → t.search.outResults = s.search.outResults ∧
          ∃ j, t.search.shard = s.search.shard ++ [j] ∧ j.ask = askOf x.dims payload ∧ j.own = false ∧
            j.id = s.search.nextJob ∧ j.scanned = false) ∧
        (x.digest ≠ some (askOf x.dims payload).digest → t.search.shard = s.search.shard ∧
          t.search.outResults = s.search.outResults ++
            [(askOf x.dims payload, none, emptyRes x.shard 0x20 s.tick.count)])) ∧
    (s.index (askOf 0 payload).fn (askOf 0 payload).index = none →
      ∃ t r, exec (.shardQuery payload) s = .next t ∧ t.search.shard = s.search.shard ∧
        t.search.outResults = s.search.outResults ++ [(askOf 0 payload, none, r)] ∧ r.status = 0x20) ∧
    (∀ (q : Word64) (f : Nat) (r : ShardRes), shardResOf payload = (q, f, r) →
      let wants (p : FrontQuery) : Bool := p.ask.fn == f && p.ask.seq == q && p.sent &&
        p.shards.any fun e => e.1 == r.shard && e.2.2.2.isNone
      (∀ p : FrontQuery, s.search.front.find? wants = some p →
        ∃ t, exec (.shardResult payload) s = .next t ∧
          { p with shards := p.shards.map fun e =>
              if e.1 == r.shard && e.2.2.2.isNone then (e.1, e.2.1, e.2.2.1, some r) else e } ∈ t.search.front ∧
          t.search.front.length = s.search.front.length) ∧
      (s.search.front.find? wants = none → exec (.shardResult payload) s = .next s))

/-- Flash reads (R55, R253, R254, R259, R261): a read goes out when its class may issue it; one that is not issued in time, or
is late, is counted, is no longer planned, and its candidate is gleaned or, under STRICT, waits on; a good piece is kept for
its candidate; a read that cannot be decoded is tried again, three times; a reconstruction gives its codeword back, or the
codeword is lost with an event. -/
def Obligations.FlashReadsComeBack : Prop :=
  ∀ (s : State) (id : Nat) (r : FlashRead), s.readAt id = some r →
    (r.issued = false → s.mayIssue r = true →
      ∃ t, exec (.flashReadIssue id) s = .next t ∧ { r with issued := true } ∈ t.flash.reads ∧
        t.flash.counters = bumpAt s.flash.counters 11 1 ∧ t.search = s.search ∧ t.flash.words = s.flash.words) ∧
    (∀ (c : Instr) (k : Nat), (c = .flashReadNotIssued id ∧ k = 7 ∧ r.issued = false) ∨
        (c = .flashReadDeadline id ∧ k = 6 ∧ r.issued = true ∧ r.returned = false) →
      ∃ t, exec c s = .next t ∧ t.flash.counters = bumpAt s.flash.counters k 1 ∧ r ∉ t.flash.reads ∧
        t.flash.words = s.flash.words ∧
        ∀ j : ShardJob, s.job r.job = some j → ∃ x ∈ t.search.shard, x.id = j.id ∧
          (s.strict r.fn r.cls = false → x.gleaned = j.gleaned + 1 ∧ ∀ w ∈ x.waits, w.cand ≠ r.cand) ∧
          (s.strict r.fn r.cls = true → x.gleaned = j.gleaned ∧ ∀ w ∈ x.waits, w.cand = r.cand → w.failed = true)) ∧
    (∀ (errors : Nat) (decoded : Bool) (cw : Codeword) (j : ShardJob) (w : RerankWait), r.issued = true →
      r.returned = false → s.flash.rebuilt.contains r.at_ = false → s.placeReads r.at_ = true →
      errors ≤ 96 ∨ decoded = true → s.cwAt r.at_ = some cw → cw.tag = s.readTag r →
      ((s.logAt r.at_).isSome = true → crc32c cw.user = cw.crc.toNat) → s.job r.job = some j →
      (j.waits.find? fun y => y.cand == r.cand) = some w → w.got.length + 1 ≠ w.readIds.length →
      ∃ t, ∃ x ∈ t.search.shard, exec (.flashReadReturn id errors decoded) s = .next t ∧ x.id = j.id ∧
        (∀ y ∈ x.waits, y.cand = r.cand → y.got = w.got ++ [(r.piece, cw.user)]) ∧
        t.flash.counters = (if 0 < errors then bumpAt s.flash.counters 0 1 else s.flash.counters) ∧
        { r with returned := true } ∈ t.flash.reads ∧ t.flash.words = s.flash.words) ∧
    (∀ errors : Nat, r.issued = true → r.returned = false → s.flash.rebuilt.contains r.at_ = false →
      s.placeReads r.at_ = true → 96 < errors → r.retries < 3 →
      ∃ t, exec (.flashReadReturn id errors false) s = .next t ∧ { r with retries := r.retries + 1 } ∈ t.flash.reads ∧
        t.flash.counters = bumpAt (bumpAt s.flash.counters 1 1) 11 1 ∧ t.search = s.search) ∧
    (∀ (p : FlashPlace) (cw : Codeword), s.cwAt p = some cw →
      (∃ t, exec (.flashReconstructDone p []) s = .next t ∧ p ∈ t.flash.rebuilt ∧
        t.flash.counters = bumpAt s.flash.counters 2 1 ∧ t.flash.lost = s.flash.lost ∧ t.events = s.events) ∧
      (∀ k ks, ∃ t, exec (.flashReconstructDone p (k :: ks)) s = .next t ∧ (∃ e ∈ t.events, e.cause = .mediaLost) ∧
        t.flash.rebuilt = s.flash.rebuilt ∧ t.flash.words = s.flash.words))

/-! ### Flash media -/

/-- Programs, erases and dies (R255, R262, R265, R268, R270, R272): a page that has been programmed is recorded with its
superblock and journalled; a program that fails counts a bad block; an erase counts, frees its superblock and is journalled; a
good die that fails is FAILED, with one event; a failed die whose set has been rebuilt is RETIRED. -/
def Obligations.FlashProgramsErasesAndDies : Prop :=
  ∀ (s : State) (p : FlashPlace) (x : Superblock), x = s.sb p.set p.plane p.block →
    (x.state = .open_ ∨ x.state = .full → p.page ≤ x.page → p.page < streamPages → p.page ∉ x.programmed →
      (∃ t, exec (.programDone p true) s = .next t ∧ { x with programmed := x.programmed ++ [p.page] } ∈ t.flash.sbs ∧
        (∃ j, t.flash.jPending = s.flash.jPending ++ [j] ∧ j.type = 3 ∧
          j.args = [p.set, p.plane, p.block, p.page].map (BitVec.ofNat 64)) ∧ t.flash.words = s.flash.words ∧
        (∀ e ∈ s.flash.log, e.durable = true → ∃ k ∈ t.flash.log, k.lsn = e.lsn ∧ k.durable = true)) ∧
      ∃ t, exec (.programDone p false) s = .next t ∧ t.flash.counters = bumpAt s.flash.counters 8 1) ∧
    (x.state = .erasing ∨ x.state = .unknown →
      ∃ t, exec (.eraseDone p []) s = .next t ∧
        { x with erases := x.erases + 1, state := .free, page := 0, off := 0, programmed := [], suspended := false } ∈
          t.flash.sbs ∧
        t.flash.counters = (if x.state = .unknown then bumpAt s.flash.counters 9 1 else s.flash.counters) ∧
        (∃ j, t.flash.jPending = s.flash.jPending ++ [j] ∧ j.type = 2 ∧
          j.args = [p.set, p.plane, p.block].map (BitVec.ofNat 64)) ∧ t.flash.words = s.flash.words) ∧
    ∀ d : Nat,
      ((s.die d).state = .good →
        ∃ t, exec (.dieFailed d) s = .next t ∧ t.die d = { s.die d with state := .failed } ∧
          (∃ e, t.events = s.events ++ [e] ∧ e.cause = .dieState) ∧ ∀ k, k ≠ d → t.die k = s.die k) ∧
      ((s.die d).state = .failed → (s.die d).rebuild = true →
        ∃ t, exec (.dieRetired d) s = .next t ∧ (t.die d).state = .retired ∧ (t.die d).rebuild = false ∧
          (∃ e ∈ t.events, e.cause = .dieState))

/-- Upkeep of flash (R263, R273, R275): a segment that passes 90 % of the rotation bound raises one event, and one past the
bound an event a day; checkpoints and root pages are written when they are due; the read service sends the partner a row for
each id; a returned row that matches the CRC kept for a lost vector is logged and recorded, and any other leaves it lost. -/
def Obligations.FlashUpkeep : Prop :=
  ∀ (s : State) (fn index list : Nat),
    (∀ g : Segment, s.segOf fn index list = some g →
      (g.warned = false → s.segAge g * 10 > 9 * s.ticksOfDays (s.cfg 4 0 0) →
        ∃ t, exec (.segmentAgeWarn fn index list) s = .next t ∧ { g with warned := true } ∈ t.flash.segs ∧
          (∃ e, t.events = s.events ++ [e] ∧ e.cause = .segmentWarn) ∧ t.flash.counters = s.flash.counters) ∧
      (g.warned = true → exec (.segmentAgeWarn fn index list) s = .next s) ∧
      (s.segAge g > s.ticksOfDays (s.cfg 4 0 0) →
        (∀ k, g.pastTick = some k → k.toNat + s.ticksOfDays 1 ≤ s.tick.count.toNat) →
        ∃ t, exec (.segmentPastBound fn index list) s = .next t ∧
          { g with pastTick := some s.tick.count } ∈ t.flash.segs ∧
          (∃ e, t.events = s.events ++ [e] ∧ e.cause = .segmentPast) ∧
          t.flash.counters = bumpAt s.flash.counters 10 1)) ∧
    (s.everyTicks s.flash.checkpoint 256 = true →
      ∃ t j, exec .checkpoint s = .next t ∧ t.flash.checkpoint = some s.tick.count ∧
        t.flash.jPending = s.flash.jPending ++ [j] ∧ j.type = 0x0B ∧ t.flash.rootPage = s.flash.rootPage) ∧
    (s.everyTicks s.flash.checkpoint 256 = false → exec .checkpoint s = .next s) ∧
    (s.everyTicks s.flash.rootPage 65536 = true →
      ∃ t, exec .rootPageWrite s = .next t ∧
        t.flash = { s.flash with rootPage := some s.tick.count }) ∧
    (∀ (ids : List Word64) (x : Index) (p : Nat), s.index fn index = some x → s.partner = some p →
      ∃ t, exec (.flashReadServiceRequest fn index ids) s = .next t ∧ t.flash = s.flash ∧
        (⟨1, p, refillBytes fn index (vecStride x) (ids.map (s.serviceRow x))⟩ : OutMsg) ∈ t.fabric.out) ∧
    (∀ (x : Index) (r : RefillRow) (w : LostWord) (k : Word64), s.index fn index = some x →
      s.lostOf x.fn x.obj r.vid = some w → w.refill = .asked k →
      (r.lost = false →
        crc32c (bytesAt (r.row.take (rowBytes x.vfmt x.dims)) 0 (vecStride x)) = w.crc.toNat →
        ∃ t, exec (.refillResponse fn index [r]) s = .next t ∧ t.flash.counters = bumpAt s.flash.counters 4 1 ∧
          { w with refill := .refilled s.flash.nextLsn (s.tick.count + 2) } ∈ t.flash.lost ∧
          t.flash.log.length = s.flash.log.length + 1) ∧
      (r.lost = true →
        ∃ t, exec (.refillResponse fn index [r]) s = .next t ∧ t.flash.counters = bumpAt s.flash.counters 5 1 ∧
          { w with refill := .gaveUp } ∈ t.flash.lost ∧ t.flash.log = s.flash.log))

/-! ### Exchange of rows, and replication -/

/-- Exchange and replication (R26, R236, R239, R245): a good request of this tick joins those to be served, and any other is
counted and dropped, as is a response that does not fit; a response's row is placed in the lookup that asked for it. At the
close of window B a lookup that has all of its rows ends, and one without is carried (STRICT) or ends (BOUNDED). A partner's
record that is new joins the updates and the log, and one that is known is counted. -/
def Obligations.ExchangeAndReplication : Prop :=
  ∀ (s : State) (payload : List Byte) (atNs : Nat),
    (∀ (sender : Nat) (tick : Word64) (n : Nat) (body : List Byte), exchParse 1 payload = some (sender, tick, n, body) →
      s.inWindow 4 atNs = true → tick = s.tick.count → body.length = 16 * n →
      ∃ t r, exec (.exchangeRequest payload atNs) s = .next t ∧ t.tables.requests = s.tables.requests ++ [r] ∧
        r.sender = sender ∧ r.tick = s.tick.count ∧ r.entries.length = n ∧ t.fabric = s.fabric) ∧
    (exchParse 1 payload = none →
      ∃ t, exec (.exchangeRequest payload atNs) s = .next t ∧ t.fabric.counters = bumpAt s.fabric.counters 11 1 ∧
        t.tables = s.tables) ∧
    (exchParse 2 payload = none →
      ∃ t, exec (.exchangeResponse payload atNs) s = .next t ∧ t.fabric.counters = bumpAt s.fabric.counters 11 1 ∧
        t.tables = s.tables) ∧
    (∀ (sender : Nat) (body : List Byte) (w : Want) (l : Lookup) (td : TableDef),
      exchParse 2 payload = some (sender, s.tick.count, 1, body) → s.inWindow 6 atNs = true → 16 ≤ body.length →
      ((s.wantsBy fun l _ o => match l.asked.find? fun a => a.1 == o with | some a => a.2 | none => 0).filter
        fun w => w.node == sender) = [w] → w.node = sender →
      (s.tables.lookups.find? fun l => l.fn == w.fn && l.ring == w.ring && l.seq == w.seq) = some l →
      s.tableDef (field w.entry.1.toNat 52 12) (field w.entry.1.toNat 36 16) = some td → field (wordAt body 0) 60 4 = 0 →
      let st : RowState := .placed (bytesAt body 16 (rowBytes td.fmt td.elems)) (answerScale (wordAt body 0))
        (BitVec.ofNat 32 (field (wordAt body 8) 0 32))
      ∃ t, exec (.exchangeResponse payload atNs) s = .next t ∧ t.fabric = s.fabric ∧
        { l with rows := l.rows.modify w.idx fun r => { r with st := st } } ∈ t.tables.lookups) ∧
    (∀ (l : Lookup) (td : TableDef), s.tables.lookups = [l] → s.tableDef l.fn l.table = some td →
      (∀ r ∈ l.rows, r.st = .wanted → r.owner ≠ td.self) →
      ∃ t, exec .exchangeWindowBClose s = .next t ∧
        (l.spilled = true → t.tables.lookups = [{ l with late := true }]) ∧
        (l.spilled = false → (∀ r ∈ l.rows, r.st ≠ .wanted) → t.tables.lookups = []) ∧
        (l.spilled = false → (∃ r ∈ l.rows, r.st = .wanted) → s.strict l.fn l.cls = true →
          t.tables.lookups = [{ l with late := true }]) ∧
        (l.spilled = false → (∃ r ∈ l.rows, r.st = .wanted) → s.strict l.fn l.cls = false → t.tables.lookups = [])) ∧
    (∀ (tick : Word64) (logged : Option Word64) (r : LogRec) (u : UpItem), s.faults.rejoin = .none → recItem r = some u →
      (s.applied u.origin u.fn u.ring u.seq = false →
        (∀ v ∈ s.tables.queue, ¬ (v.origin = u.origin ∧ v.fn = u.fn ∧ v.ring = u.ring ∧ v.seq = u.seq ∧ v.item = u.item)) →
        ∃ t, exec (.replicationBatch tick logged [r]) s = .next t ∧ t.tables.queue = s.tables.queue ++ [u] ∧
          t.flash.log.map (·.bytes) = s.flash.log.map (·.bytes) ++ [r.bytes] ∧
          t.tables.duplicates = s.tables.duplicates ∧
          (s.tables.partnerTick = none → t.tables.partnerTick = some tick)) ∧
      (s.applied u.origin u.fn u.ring u.seq = true →
        ∃ t, exec (.replicationBatch tick logged [r]) s = .next t ∧ t.tables.queue = s.tables.queue ∧
          t.flash = s.flash ∧ t.tables.duplicates = bump s.tables.duplicates 1))

/-! ### Descriptors that do not run, and forms of data -/

/-- A descriptor out of sequence is not accepted and halts its ring with reason SEQ (R366); one whose form or content fails
its checks is accepted and ends at once with its status, and it does nothing else (R59, R366). -/
def Obligations.DescriptorsRefused : Prop :=
  ∀ (c : Instr) (d : Desc) (op : Nat) (check : State → Desc → Option Nat) (s : State), descOf c = some (d, op, check) →
    s.workAt d.fn d.ring d.seq = none → s.ringServed d.fn d.ring = true →
    (d.seq ≠ (s.ring d.fn d.ring).nextSeq →
      ∃ t e, exec c s = .next t ∧
        t.ring d.fn d.ring = { s.ring d.fn d.ring with state := .halted, haltReason := 1 } ∧
        t.host.work = s.host.work ∧ t.events = s.events ++ [e] ∧ e.cause = .ringHalt) ∧
    (∀ status, d.seq = (s.ring d.fn d.ring).nextSeq → s.adminDone d = false →
      formCheck d op = some status ∨ formCheck d op = none ∧ check s d = some status →
      ∃ t, exec c s = .next t ∧ Accepted s t d op ∧ t.endedWith d status ∧ t.search = s.search ∧ t.tables = s.tables ∧
        t.flash = s.flash ∧ t.plan = s.plan ∧ t.items = s.items ∧ t.fabric = s.fabric ∧ t.events = s.events ∧ t.t1 = s.t1 ∧
        t.hostMem = s.hostMem)

/-- R22, for a WATCH in sequence on a served ring whose form is right and whose function is under its quota of watches: as a
DUMP, from a function composed with fewer than 1,024 tiles (none, for a function without an entry), it completes with 0x11
NOT_PERMITTED and no watch is made; as a DIGEST of a step's tensor it is accepted, and its watch made, from any function. -/
def Obligations.DumpNeedsTiles : Prop :=
  ∀ (s : State) (d : Desc), s.workAt d.fn d.ring d.seq = none → s.ringServed d.fn d.ring = true →
    d.seq = (s.ring d.fn d.ring).nextSeq → s.adminDone d = false → formCheck d 0x30 = none → watchForm s d = true →
    (s.obs.watches.filter fun w => w.fn == d.fn).length < 64 → s.obs.watches.length < 1024 → s.canAdmit d.fn d.cls 1 = true →
    (field (d.w 1) 46 2 = 1 → (match s.compEntry d.fn with | some e => entTiles e | none => 0) < 1024 →
      ∃ t, exec (.watch d) s = .next t ∧ Accepted s t d 0x30 ∧ t.endedWith d 0x11 ∧ t.obs.watches = s.obs.watches) ∧
    (field (d.w 1) 46 2 = 0 → (d.w 1).testBit 45 = false →
      ∃ t w, exec (.watch d) s = .next t ∧ Accepted s t d 0x30 ∧ t.obs.watches = s.obs.watches ++ [w] ∧ w.fn = d.fn ∧
        w.dump = false)

/-- R67: INT4 elements are packed two to a byte, the element of even place in bits 3 to 0; the high nibble that ends a row
of odd length is written 0, and what stands there is ignored when the row is read. A row is whole bytes. -/
def Obligations.Int4RowsArePacked : Prop :=
  (∀ codes : List Nat, (∀ c ∈ codes, c < 16) →
    (packRow 2 codes).length = rowBytes 2 codes.length ∧
    (∀ i, 2 * i < codes.length → ((packRow 2 codes).getD i 0).toNat % 16 = codes.getD (2 * i) 0) ∧
    (∀ i, 2 * i + 1 < codes.length → ((packRow 2 codes).getD i 0).toNat / 16 = codes.getD (2 * i + 1) 0) ∧
    (∀ i, codes.length = 2 * i + 1 → ((packRow 2 codes).getD i 0).toNat / 16 = 0)) ∧
  ∀ (n : Nat) (bs : List Byte), rowBytes 2 n ≤ bs.length →
    (∀ i < n, (rowCodes 2 n bs)[i]? = some (if i % 2 = 0 then ((bs.getD (i / 2) 0).toNat % 16) else (bs.getD (i / 2) 0).toNat / 16)) ∧
    ∀ b : Byte, n % 2 = 1 → b.toNat % 16 = (bs.getD (n / 2) 0).toNat % 16 → rowCodes 2 n (bs.set (n / 2) b) = rowCodes 2 n bs

/-- R157: the CRC-32C of sheaves is the CRC of the Castagnoli polynomial 0x1EDC6F41 in reflected form (each byte's bits from
the lowest up, the remainder's bits reversed), with initial value and final inversion of all ones; its check value over the
nine bytes of "123456789" is 0xE3069283. -/
def Obligations.Crc32cIsCastagnoli : Prop :=
  (∀ bs : List Byte,
    crc32c bs = ((List.range 32).map fun i => if ((bs.flatMap fun b => (List.range 8).map fun k => b.toNat.testBit k).foldl
      (crcBit 32 0x1EDC6F41) 0xFFFFFFFF).testBit i then 2 ^ (31 - i) else 0).sum ^^^ 0xFFFFFFFF) ∧
  crc32c [0x31, 0x32, 0x33, 0x34, 0x35, 0x36, 0x37, 0x38, 0x39] = 0xE3069283
end

