-- ==== Sys2Proof/Laws/Memory.lean ====
section
/-! SUPPORT. What every operation on a sparse memory does: it keeps the canonical form, it changes the bytes it is given
and no others, and equal memories are equal lists. -/

namespace Sys2Proof.Machine

/-- Every address of a memory is above a bound. -/
def memAbove (n : Nat) (m : List Host.Cell) : Prop := ∀ c ∈ m, n < c.1

theorem memWf_cons (k : Nat) (b : Byte) (r : List Host.Cell) :
    memWf ((k, b) :: r) = true ↔ b ≠ memDefault ∧ memAbove k r ∧ memWf r = true := by
  induction r generalizing k b with
  | nil => simp [memWf, memAbove]
  | cons c r ih =>
    obtain ⟨k2, b2⟩ := c
    have h2 := ih k2 b2
    simp only [memWf, Bool.and_eq_true, bne_iff_ne, decide_eq_true_eq]
    constructor
    · rintro ⟨⟨hb, hk⟩, hr⟩
      refine ⟨hb, ?_, hr⟩
      intro c hc
      rcases List.mem_cons.1 hc with rfl | hc
      · exact hk
      · exact lt_trans hk ((h2.1 hr).2.1 c hc)
    · rintro ⟨hb, ha, hr⟩
      exact ⟨⟨hb, ha (k2, b2) (by simp)⟩, hr⟩

theorem memAbove_write {n a : Nat} (h : n < a) (b : Byte) {m : List Host.Cell} (hm : memAbove n m) :
    memAbove n (memWrite m a b) := by
  induction m with
  | nil =>
    simp only [memWrite]
    split
    · exact hm
    · intro c hc; simp only [List.mem_singleton] at hc; subst hc; exact h
  | cons c r ih =>
    obtain ⟨k, v⟩ := c
    have hk : n < k := hm (k, v) (by simp)
    have hr : memAbove n r := fun c hc => hm c (by simp [hc])
    simp only [memWrite]
    split
    · split
      · exact hm
      · intro c hc
        rcases List.mem_cons.1 hc with rfl | hc
        · exact h
        · exact hm c hc
    · split
      · split
        · exact hr
        · intro c hc
          rcases List.mem_cons.1 hc with rfl | hc
          · exact h
          · exact hr c hc
      · intro c hc
        rcases List.mem_cons.1 hc with rfl | hc
        · exact hk
        · exact ih hr c hc

/-- Writing a byte keeps the canonical form. -/
theorem memWrite_wf {m : List Host.Cell} (h : memWf m = true) (a : Nat) (b : Byte) : memWf (memWrite m a b) = true := by
  induction m with
  | nil =>
    simp only [memWrite]
    split
    · rfl
    · simp [memWf, *]
  | cons c r ih =>
    obtain ⟨k, v⟩ := c
    have hc := (memWf_cons k v r).1 h
    simp only [memWrite]
    split
    · rename_i hlt
      split
      · exact h
      · rename_i hb
        refine (memWf_cons a b _).2 ⟨hb, ?_, h⟩
        intro c hm
        rcases List.mem_cons.1 hm with rfl | hm
        · exact hlt
        · exact lt_trans hlt (hc.2.1 c hm)
    · split
      · rename_i he
        subst he
        split
        · exact hc.2.2
        · rename_i hb
          exact (memWf_cons _ _ _).2 ⟨hb, hc.2.1, hc.2.2⟩
      · rename_i h1 h2
        exact (memWf_cons _ _ _).2 ⟨hc.1, memAbove_write (by omega) b hc.2.1, ih hc.2.2⟩

/-- Writing bytes keeps the canonical form. -/
theorem memWriteBytes_wf {m : List Host.Cell} (h : memWf m = true) (a : Nat) (bs : List Byte) :
    memWf (memWriteBytes m a bs) = true := by
  induction bs generalizing m a with
  | nil => exact h
  | cons b r ih => exact ih (memWrite_wf h a b) (a + 1)

/-- Writing single bytes keeps the canonical form. -/
theorem memWriteCells_wf {m : List Host.Cell} (h : memWf m = true) (cs : List Host.Cell) :
    memWf (memWriteCells m cs) = true := by
  induction cs generalizing m with
  | nil => exact h
  | cons c r ih => exact ih (memWrite_wf h c.1 c.2)

/-- Leaving cells out keeps the canonical form. -/
theorem memWf_filter {m : List Host.Cell} (p : Host.Cell → Bool) (h : memWf m = true) : memWf (m.filter p) = true := by
  induction m with
  | nil => rfl
  | cons c r ih =>
    obtain ⟨k, v⟩ := c
    have hc := (memWf_cons k v r).1 h
    simp only [List.filter_cons]
    split
    · exact (memWf_cons _ _ _).2 ⟨hc.1, fun c hm => hc.2.1 c (List.mem_of_mem_filter hm), ih hc.2.2⟩
    · exact ih hc.2.2

/-- So does any run of operations that each keep it. -/
theorem memWf_foldl {α : Type} {l : List α} {g : List Host.Cell → α → List Host.Cell} {m : List Host.Cell}
    (hg : ∀ m x, memWf m = true → memWf (g m x) = true) (h : memWf m = true) : memWf (l.foldl g m) = true := by
  induction l generalizing m with
  | nil => exact h
  | cons x r ih => exact ih (hg m x h)

theorem memRead_above {n : Nat} {m : List Host.Cell} (h : memAbove n m) : memRead m n = memDefault := by
  cases m with
  | nil => rfl
  | cons c r =>
    obtain ⟨k, v⟩ := c
    have : n < k := h (k, v) (by simp)
    simp only [memRead]
    rw [if_neg (by omega), if_pos this]

/-- A byte that was written reads back. -/
theorem memRead_write_same {m : List Host.Cell} (h : memWf m = true) (a : Nat) (b : Byte) :
    memRead (memWrite m a b) a = b := by
  induction m with
  | nil =>
    simp only [memWrite]
    split
    · rename_i hb; simp [memRead, hb]
    · simp [memRead]
  | cons c r ih =>
    obtain ⟨k, v⟩ := c
    have hc := (memWf_cons k v r).1 h
    simp only [memWrite]
    split
    · rename_i hlt
      split
      · rename_i hb; simp only [memRead]; rw [if_neg (by omega), if_pos hlt, hb]
      · simp [memRead]
    · split
      · rename_i he
        subst he
        split
        · rename_i hb; rw [memRead_above hc.2.1, hb]
        · simp [memRead]
      · rename_i h1 h2
        simp only [memRead]
        rw [if_neg h2, if_neg h1, ih hc.2.2]

/-- Every other byte reads as before. -/
theorem memRead_write_ne {m : List Host.Cell} (h : memWf m = true) {a x : Nat} (hx : x ≠ a) (b : Byte) :
    memRead (memWrite m a b) x = memRead m x := by
  induction m with
  | nil =>
    simp only [memWrite]
    split
    · rfl
    · simp only [memRead]; rw [if_neg hx]; split <;> rfl
  | cons c r ih =>
    obtain ⟨k, v⟩ := c
    have hc := (memWf_cons k v r).1 h
    simp only [memWrite]
    split
    · rename_i hlt
      split
      · rfl
      · simp only [memRead]
        rw [if_neg hx]
        split
        · rw [if_neg (by omega), if_pos (by omega)]
        · rfl
    · split
      · rename_i he
        subst he
        have hr : memRead ((a, v) :: r) x = memRead r x := by
          simp only [memRead]
          rw [if_neg hx]
          split
          · rename_i hl
            exact (memRead_above fun c hm => lt_trans hl (hc.2.1 c hm)).symm
          · rfl
        split
        · exact hr.symm
        · rw [hr]
          simp only [memRead]
          rw [if_neg hx]
          split
          · rename_i hl
            exact (memRead_above fun c hm => lt_trans hl (hc.2.1 c hm)).symm
          · rfl
      · simp only [memRead]
        split
        · rfl
        · split
          · rfl
          · exact ih hc.2.2

/-- Outside the bytes written, memory reads as before. -/
theorem memRead_writeBytes_out {m : List Host.Cell} (h : memWf m = true) (a : Nat) (bs : List Byte) {x : Nat}
    (hx : x < a ∨ a + bs.length ≤ x) : memRead (memWriteBytes m a bs) x = memRead m x := by
  induction bs generalizing m a with
  | nil => rfl
  | cons b r ih =>
    simp only [List.length_cons] at hx
    rw [memWriteBytes, ih (memWrite_wf h a b) (a + 1) (by omega), memRead_write_ne h (by omega)]

/-- Inside them, it reads as what was written. -/
theorem memRead_writeBytes_in {m : List Host.Cell} (h : memWf m = true) (a : Nat) (bs : List Byte) {i : Nat}
    (hi : i < bs.length) : memRead (memWriteBytes m a bs) (a + i) = bs[i] := by
  induction bs generalizing m a i with
  | nil => simp at hi
  | cons b r ih =>
    rw [memWriteBytes]
    cases i with
    | zero =>
      rw [memRead_writeBytes_out (memWrite_wf h a b) (a + 1) r (by omega)]
      simpa using memRead_write_same h a b
    | succ j =>
      have := ih (memWrite_wf h a b) (a + 1) (i := j) (by simpa using hi)
      simpa [Nat.add_assoc, Nat.add_comm 1 j] using this

end Sys2Proof.Machine
end

