-- ==== Sys2Proof/Laws/KeptBase.lean ====
section
/-! SUPPORT. How Kept (Safety.lean) goes through the forms that meanings are built of: a field update of the state, an if, a
fold, a result that is an option or a pair. There is one lemma for each form, and the lemmas about operations use no other. -/

namespace Sys2Proof.Machine

namespace Kept
variable {w : Area → Bool} {s0 s' : State}
theorem refl (s : State) : Kept w s s := by constructor <;> first | exact id | exact fun _ => rfl | exact fun _ => ⟨rfl, rfl⟩ | rfl
theorem no {p : Area} {Q : Prop} (h : w p = true) (k : w p = false) : Q := by rw [h] at k; cases k
theorem mk_same (h : Kept w s0 s') : Kept w s0 ⟨s'.tick, s'.ptp, s'.plan, s'.items, s'.host, s'.events, s'.stiles, s'.mesh, s'.warren, s'.tiers, s'.search, s'.tables, s'.flash, s'.fabric, s'.egress, s'.t1, s'.hostMem, s'.faults, s'.power, s'.test, s'.regs, s'.obs, s'.free, s'.pending⟩ := h
theorem mk_tick {a0 : TickState} (h : Kept w s0 s') (hw : w .tick = true) (hc : a0.count = s'.tick.count ∧ a0.phase = s'.tick.phase) : Kept w s0 { s' with tick := a0 } :=
  { h with tick := no hw, clock := fun e => ⟨hc.1.trans (h.clock e).1, hc.2.trans (h.clock e).2⟩ }
theorem mk_clock {a0 : TickState} (h : Kept w s0 s') (hw : w .tick = true) (hc : w .clock = true) : Kept w s0 { s' with tick := a0 } :=
  { h with tick := no hw, clock := no hc }
theorem mk_ptp {a1} (h : Kept w s0 s') (hw : w .ptp = true) : Kept w s0 { s' with ptp := a1 } :=
  { h with ptp := no hw }
theorem mk_plan {a2} (h : Kept w s0 s') (hw : w .plan = true) : Kept w s0 { s' with plan := a2 } :=
  { h with plan := no hw }
theorem mk_items {a3} (h : Kept w s0 s') (hw : w .items = true) : Kept w s0 { s' with items := a3 } :=
  { h with items := no hw }
theorem mk_host {a4} (h : Kept w s0 s') (hw : w .host = true) : Kept w s0 { s' with host := a4 } :=
  { h with host := no hw }
theorem mk_events {a5} (h : Kept w s0 s') (hw : w .events = true) : Kept w s0 { s' with events := a5 } :=
  { h with events := no hw }
theorem mk_stiles {a6} (h : Kept w s0 s') (hw : w .stiles = true) : Kept w s0 { s' with stiles := a6 } :=
  { h with stiles := no hw }
theorem mk_mesh {a7} (h : Kept w s0 s') (hw : w .mesh = true) : Kept w s0 { s' with mesh := a7 } :=
  { h with mesh := no hw }
theorem mk_warren {a8} (h : Kept w s0 s') (hw : w .warren = true) : Kept w s0 { s' with warren := a8 } :=
  { h with warren := no hw }
theorem mk_tiers {a9} (h : Kept w s0 s') (hw : w .tiers = true) : Kept w s0 { s' with tiers := a9 } :=
  { h with tiers := no hw }
theorem mk_search {a10} (h : Kept w s0 s') (hw : w .search = true) : Kept w s0 { s' with search := a10 } :=
  { h with search := no hw }
theorem mk_tables {a11} (h : Kept w s0 s') (hw : w .tables = true) : Kept w s0 { s' with tables := a11 } :=
  { h with tables := no hw }
theorem mk_flash {a12} (h : Kept w s0 s') (hw : w .flash = true) : Kept w s0 { s' with flash := a12 } :=
  { h with flash := no hw }
theorem mk_fabric {a13} (h : Kept w s0 s') (hw : w .fabric = true) : Kept w s0 { s' with fabric := a13 } :=
  { h with fabric := no hw }
theorem mk_egress {a14} (h : Kept w s0 s') (hw : w .egress = true) : Kept w s0 { s' with egress := a14 } :=
  { h with egress := no hw }
theorem mk_t1 {a15 : List Host.Cell} (h : Kept w s0 s') (hw : w .t1 = true) (hm : memWf s'.t1 = true → memWf a15 = true) : Kept w s0 { s' with t1 := a15 } :=
  { h with t1 := no hw, wfT1 := fun e => hm (h.wfT1 e) }
theorem mk_hostMem {a16 : List Host.Cell} (h : Kept w s0 s') (hw : w .hostMem = true) (hm : memWf s'.hostMem = true → memWf a16 = true) : Kept w s0 { s' with hostMem := a16 } :=
  { h with hostMem := no hw, wfHost := fun e => hm (h.wfHost e) }
theorem mk_faults {a17} (h : Kept w s0 s') (hw : w .faults = true) : Kept w s0 { s' with faults := a17 } :=
  { h with faults := no hw }
theorem mk_power {a18} (h : Kept w s0 s') (hw : w .power = true) : Kept w s0 { s' with power := a18 } :=
  { h with power := no hw }
theorem mk_test {a19 : SelfTest} (h : Kept w s0 s') (hw : w .test = true) (hc : a19.cycle = s'.test.cycle) : Kept w s0 { s' with test := a19 } :=
  { h with test := no hw, cycle := fun e => hc.trans (h.cycle e) }
theorem mk_cycle {a19 : SelfTest} (h : Kept w s0 s') (hw : w .test = true) (hc : w .cycle = true) : Kept w s0 { s' with test := a19 } :=
  { h with test := no hw, cycle := no hc }
theorem mk_regs {a20} (h : Kept w s0 s') (hw : w .regs = true) : Kept w s0 { s' with regs := a20 } :=
  { h with regs := no hw }
theorem mk_obs {a21} (h : Kept w s0 s') (hw : w .obs = true) : Kept w s0 { s' with obs := a21 } :=
  { h with obs := no hw }
theorem mk_free {a22} (h : Kept w s0 s') (hw : w .free = true) : Kept w s0 { s' with free := a22 } :=
  { h with free := no hw }
theorem mk_all {a0 a1 a2 a3 a4 a5 a6 a7 a8 a9 a10 a11 a12 a13 a14 a15 a16 a17 a18 a19 a20 a21 a22} (h : Kept w s0 s') (e_tick : w .tick = false → a0 = s'.tick) (e_clock : w .clock = false → a0.count = s'.tick.count ∧ a0.phase = s'.tick.phase) (e_ptp : w .ptp = false → a1 = s'.ptp) (e_plan : w .plan = false → a2 = s'.plan) (e_items : w .items = false → a3 = s'.items) (e_host : w .host = false → a4 = s'.host) (e_events : w .events = false → a5 = s'.events) (e_stiles : w .stiles = false → a6 = s'.stiles) (e_mesh : w .mesh = false → a7 = s'.mesh) (e_warren : w .warren = false → a8 = s'.warren) (e_tiers : w .tiers = false → a9 = s'.tiers) (e_search : w .search = false → a10 = s'.search) (e_tables : w .tables = false → a11 = s'.tables) (e_flash : w .flash = false → a12 = s'.flash) (e_fabric : w .fabric = false → a13 = s'.fabric) (e_egress : w .egress = false → a14 = s'.egress) (e_t1 : w .t1 = false → a15 = s'.t1) (e_hostMem : w .hostMem = false → a16 = s'.hostMem) (e_faults : w .faults = false → a17 = s'.faults) (e_power : w .power = false → a18 = s'.power) (e_test : w .test = false → a19 = s'.test) (e_cycle : w .cycle = false → a19.cycle = s'.test.cycle) (e_regs : w .regs = false → a20 = s'.regs) (e_obs : w .obs = false → a21 = s'.obs) (e_free : w .free = false → a22 = s'.free) (m1 : memWf s'.t1 = true → memWf a15 = true) (m2 : memWf s'.hostMem = true → memWf a16 = true) : Kept w s0 ⟨a0, a1, a2, a3, a4, a5, a6, a7, a8, a9, a10, a11, a12, a13, a14, a15, a16, a17, a18, a19, a20, a21, a22, s'.pending⟩ where
  tick e := (e_tick e).trans (h.tick e)
  clock e := ⟨(e_clock e).1.trans (h.clock e).1, (e_clock e).2.trans (h.clock e).2⟩
  ptp e := (e_ptp e).trans (h.ptp e)
  plan e := (e_plan e).trans (h.plan e)
  items e := (e_items e).trans (h.items e)
  host e := (e_host e).trans (h.host e)
  events e := (e_events e).trans (h.events e)
  stiles e := (e_stiles e).trans (h.stiles e)
  mesh e := (e_mesh e).trans (h.mesh e)
  warren e := (e_warren e).trans (h.warren e)
  tiers e := (e_tiers e).trans (h.tiers e)
  search e := (e_search e).trans (h.search e)
  tables e := (e_tables e).trans (h.tables e)
  flash e := (e_flash e).trans (h.flash e)
  fabric e := (e_fabric e).trans (h.fabric e)
  egress e := (e_egress e).trans (h.egress e)
  t1 e := (e_t1 e).trans (h.t1 e)
  hostMem e := (e_hostMem e).trans (h.hostMem e)
  faults e := (e_faults e).trans (h.faults e)
  power e := (e_power e).trans (h.power e)
  test e := (e_test e).trans (h.test e)
  cycle e := (e_cycle e).trans (h.cycle e)
  regs e := (e_regs e).trans (h.regs e)
  obs e := (e_obs e).trans (h.obs e)
  free e := (e_free e).trans (h.free e)
  wfT1 e := m1 (h.wfT1 e)
  wfHost e := m2 (h.wfHost e)
  pending := h.pending
theorem ite {c : Prop} [Decidable c] {a b : State} (ha : Kept w s0 a) (hb : Kept w s0 b) : Kept w s0 (if c then a else b) := by
  split <;> assumption

theorem fst {α : Type} {p : State × α} {t : State} {x : α} (e : p = (t, x)) (h : Kept w s0 p.1) : Kept w s0 t := by
  subst e; exact h

theorem foldl {α : Type} {l : List α} {g : State → α → State} {a : State} (ha : Kept w s0 a)
    (hg : ∀ s x, Kept w s0 s → Kept w s0 (g s x)) : Kept w s0 (l.foldl g a) := by
  induction l generalizing a with
  | nil => exact ha
  | cons x r ih => exact ih (hg _ _ ha)

theorem foldl_fst {α β : Type} {l : List α} {g : State × β → α → State × β} {a : State × β} (ha : Kept w s0 a.1)
    (hg : ∀ s x, Kept w s0 s.1 → Kept w s0 (g s x).1) : Kept w s0 (l.foldl g a).1 := by
  induction l generalizing a with
  | nil => exact ha
  | cons x r ih => exact ih (hg _ _ ha)

end Kept
variable {w : Area → Bool}
/-- Kept of a result that may be absent. -/
def KeptO (w : Area → Bool) (s0 : State) : Option State → Prop | none => True | some t => Kept w s0 t
def KeptP {α : Type} (w : Area → Bool) (s0 : State) : Option (State × α) → Prop | none => True | some t => Kept w s0 t.1
def KeptQ {α : Type} (w : Area → Bool) (s0 : State) : Option (α × State) → Prop | none => True | some t => Kept w s0 t.2
def KeptR (w : Area → Bool) (s0 : State) : Host.Outcome State Fault Refusal → Prop | .next t => Kept w s0 t | _ => True
def KeptS {α : Type} (w : Area → Bool) (s0 : State) : State ⊕ α → Prop | .inl t => Kept w s0 t | _ => True

theorem KeptO.of {s0 t : State} {o : Option State} (e : o = some t) (h : KeptO w s0 o) : Kept w s0 t := by subst e; exact h
theorem KeptP.of {α : Type} {s0 t : State} {x : α} {o : Option (State × α)} (e : o = some (t, x)) (h : KeptP w s0 o) : Kept w s0 t := by subst e; exact h
theorem KeptP.of1 {α : Type} {s0 : State} {p : State × α} {o : Option (State × α)} (e : o = some p) (h : KeptP w s0 o) : Kept w s0 p.1 := by subst e; exact h
theorem KeptQ.of {α : Type} {s0 t : State} {x : α} {o : Option (α × State)} (e : o = some (x, t)) (h : KeptQ w s0 o) : Kept w s0 t := by subst e; exact h
theorem KeptS.of {α : Type} {s0 t : State} {o : State ⊕ α} (e : o = .inl t) (h : KeptS w s0 o) : Kept w s0 t := by subst e; exact h
theorem KeptR.ite {c : Prop} [Decidable c] {s0 : State} {a b : Host.Outcome State Fault Refusal} (ha : KeptR w s0 a) (hb : KeptR w s0 b) : KeptR w s0 (if c then a else b) := by
  split <;> assumption
theorem KeptO.ite {c : Prop} [Decidable c] {s0 : State} {a b : Option State} (ha : KeptO w s0 a) (hb : KeptO w s0 b) : KeptO w s0 (if c then a else b) := by
  split <;> assumption
theorem KeptP.ite {α : Type} {c : Prop} [Decidable c] {s0 : State} {a b : Option (State × α)} (ha : KeptP w s0 a) (hb : KeptP w s0 b) : KeptP w s0 (if c then a else b) := by
  split <;> assumption
theorem KeptO.none {s0 : State} : KeptO w s0 none := trivial
theorem KeptP.none {α : Type} {s0 : State} : KeptP (α := α) w s0 none := trivial
theorem KeptQ.none {α : Type} {s0 : State} : KeptQ (α := α) w s0 none := trivial
theorem KeptS.inr {α : Type} {s0 : State} {x : α} : KeptS w s0 (.inr x) := trivial
theorem KeptO.some {s0 s : State} (h : Kept w s0 s) : KeptO w s0 (some s) := h
theorem KeptP.some {α : Type} {x : α} {s0 s : State} (h : Kept w s0 s) : KeptP w s0 (some (s, x)) := h
theorem KeptP.some' {α : Type} {s0 : State} {p : State × α} (h : Kept w s0 p.1) : KeptP w s0 (Option.some p) := h
theorem KeptQ.some {α : Type} {x : α} {s0 s : State} (h : Kept w s0 s) : KeptQ w s0 (some (x, s)) := h
theorem KeptS.inl {α : Type} {s0 s : State} (h : Kept w s0 s) : KeptS (α := α) w s0 (.inl s) := h
theorem KeptR.next {s0 s : State} (h : Kept w s0 s) : KeptR w s0 (.next s) := h
theorem Kept.ite_fst {α : Type} {c : Prop} [Decidable c] {s0 : State} {a b : State × α} (ha : Kept w s0 a.1) (hb : Kept w s0 b.1) : Kept w s0 (if c then a else b).1 := by
  split <;> assumption
theorem Kept.pair {α : Type} {x : α} {s0 s : State} (h : Kept w s0 s) : Kept w s0 (s, x).1 := h
def KeptV (w : Area → Bool) (s0 : State) : Option RegView → Prop | none => True | some t => Kept w s0 t.after
def KeptT (w : Area → Bool) (s0 : State) : Took → Prop | .dropped t => Kept w s0 t | _ => True
theorem KeptV.none {s0 : State} : KeptV w s0 none := trivial
theorem KeptV.some {s0 : State} {v : RegView} (h : Kept w s0 v.after) : KeptV w s0 (Option.some v) := h
theorem KeptV.ite {c : Prop} [Decidable c] {s0 : State} {a b : Option RegView} (ha : KeptV w s0 a) (hb : KeptV w s0 b) : KeptV w s0 (if c then a else b) := by
  split <;> assumption
theorem KeptV.of {s0 : State} {v : RegView} {o : Option RegView} (e : o = Option.some v) (h : KeptV w s0 o) : Kept w s0 v.after := by subst e; exact h
theorem KeptT.dropped {s0 s : State} (h : Kept w s0 s) : KeptT w s0 (.dropped s) := h
theorem KeptT.ok {s0 : State} {c : Conn} {p : LPkt} : KeptT w s0 (.ok c p) := trivial
theorem KeptT.ite {c : Prop} [Decidable c] {s0 : State} {a b : Took} (ha : KeptT w s0 a) (hb : KeptT w s0 b) : KeptT w s0 (if c then a else b) := by
  split <;> assumption
theorem KeptT.of {s0 s : State} {o : Took} (e : o = .dropped s) (h : KeptT w s0 o) : Kept w s0 s := by subst e; exact h
theorem Kept.foldl_A {s0 : State} {α : Type} {l : List α} {g : Applying → α → Applying} {a : Applying} (ha : Kept w s0 a.s)
    (hg : ∀ b x, Kept w s0 b.s → Kept w s0 (g b x).s) : Kept w s0 (l.foldl g a).s := by
  induction l generalizing a with
  | nil => exact ha
  | cons x r ih => exact ih (hg _ _ ha)
theorem Kept.foldl_L {s0 : State} {α : Type} {l : List α} {g : Split → α → Split} {a : Split} (ha : Kept w s0 a.s)
    (hg : ∀ b x, Kept w s0 b.s → Kept w s0 (g b x).s) : Kept w s0 (l.foldl g a).s := by
  induction l generalizing a with
  | nil => exact ha
  | cons x r ih => exact ih (hg _ _ ha)
theorem Kept.foldl_G {s0 : State} {α β : Type} {l : List α} {g : Split × β → α → Split × β} {a : Split × β} (ha : Kept w s0 a.1.s)
    (hg : ∀ b x, Kept w s0 b.1.s → Kept w s0 (g b x).1.s) : Kept w s0 (l.foldl g a).1.s := by
  induction l generalizing a with
  | nil => exact ha
  | cons x r ih => exact ih (hg _ _ ha)
theorem Kept.ite_A {c : Prop} [Decidable c] {s0 : State} {a b : Applying} (ha : Kept w s0 a.s) (hb : Kept w s0 b.s) : Kept w s0 (if c then a else b).s := by
  split <;> assumption
theorem Kept.ite_L {c : Prop} [Decidable c] {s0 : State} {a b : Split} (ha : Kept w s0 a.s) (hb : Kept w s0 b.s) : Kept w s0 (if c then a else b).s := by
  split <;> assumption

theorem KeptP.map {s0 : State} {α β : Type} {o : Option (State × α)} {g : State × α → State × β} (ho : KeptP w s0 o)
    (hg : ∀ p, Kept w s0 p.1 → Kept w s0 (g p).1) : KeptP w s0 (o.map g) := by
  cases o with
  | none => trivial
  | some p => exact hg p ho

end Sys2Proof.Machine
end

