-- ==== Sys2Proof/Laws/KeptShared1.lean ====
section
/-! SUPPORT. One lemma for each shared operation that gives a state: it keeps what Kept (Safety.lean) says, for the parts that it
writes. Operations stand in the order in which they call one another. -/

set_option linter.unusedTactic false
set_option linter.unusedVariables false

namespace Sys2Proof.Machine

variable {w : Area → Bool}

theorem kept_mapResult {s0 : State} {s : State} {origin : ℕ} {f : ℕ} {r : ℕ} {q : Word64} {g : UpResult → UpResult} (hk : Kept w s0 s) (w_tables : w .tables = true) :
    Kept w s0 (State.mapResult s origin f r q g) := by
  unfold State.mapResult
  try dsimp only
  repeat' first | intro _ | (with_reducible first | assumption | apply Kept.ite | apply Kept.foldl | apply Kept.foldl_fst | ((fail_if_success apply Kept.mk_same); first | apply Kept.mk_tables))

theorem kept_Applying_hold {s0 : State} {a : Applying} {u : UpItem} (hk : Kept w s0 a.s) (w_tables : w .tables = true) :
    Kept w s0 (Applying.hold a u).s := by
  unfold Applying.hold
  try dsimp only
  repeat' first | intro _ | (with_reducible first | assumption | apply kept_mapResult)

theorem kept_Applying_take {s0 : State} {a : Applying} {f : ℕ} {c : ℕ} (hk : Kept w s0 a.s) :
    Kept w s0 (Applying.take a f c).s := by
  unfold Applying.take
  try dsimp only
  repeat' first | intro _ | (with_reducible first | assumption)

theorem kept_writeItems {s0 : State} {s : State} {ch : ℕ} {its : List BurrowItem} (hk : Kept w s0 s) (w_t1 : w .t1 = true) :
    Kept w s0 (State.writeItems s ch its) := by
  unfold State.writeItems
  try dsimp only
  repeat' first | intro _ | (with_reducible first | assumption | apply Kept.ite | apply Kept.foldl | apply Kept.foldl_fst | ((fail_if_success apply Kept.mk_same); first | refine Kept.mk_t1 ?_ ?_ ?_) | exact ⟨rfl, rfl⟩ | exact id | apply memWrite_wf | apply memWriteBytes_wf)

theorem kept_setBurrow {s0 : State} {s : State} {b : Burrow} (hk : Kept w s0 s) (w_warren : w .warren = true) :
    Kept w s0 (State.setBurrow s b) := by
  unfold State.setBurrow
  try dsimp only
  repeat' first | intro _ | (with_reducible first | assumption | apply Kept.ite | apply Kept.foldl | apply Kept.foldl_fst | ((fail_if_success apply Kept.mk_same); first | apply Kept.mk_warren))

theorem kept_bindBurrow {s0 : State} {s : State} {ch : ℕ} {items : List BurrowItem} (hk : Kept w s0 s) (w_warren : w .warren = true) (w_t1 : w .t1 = true) :
    Kept w s0 (State.bindBurrow s ch items).1 := by
  unfold State.bindBurrow
  try dsimp only
  repeat' first | intro _ | (with_reducible first | assumption | apply kept_writeItems | apply kept_setBurrow | apply Kept.ite | apply Kept.ite_fst)

theorem kept_Split_bindChannel {s0 : State} {js : List ShardJob} {d : Split × List (ℕ × BurrowItem)} {ch : ℕ} (hk : Kept w s0 d.1.s) (w_warren : w .warren = true) (w_t1 : w .t1 = true) :
    Kept w s0 (Split.bindChannel js d ch).1.s := by
  unfold Split.bindChannel
  try dsimp only
  repeat' first | intro _ | (with_reducible first | assumption | apply kept_bindBurrow)

theorem kept_Split_setShare {s0 : State} {d : Split} {t : TileShare} (hk : Kept w s0 d.s) :
    Kept w s0 (Split.setShare d t).s := by
  unfold Split.setShare
  try dsimp only
  repeat' first | intro _ | (with_reducible first | assumption)

theorem kept_total {s0 : State} {s : State} {i : ℕ} {n : ℕ} (hk : Kept w s0 s) (w_obs : w .obs = true) :
    Kept w s0 (State.total s i n) := by
  unfold State.total
  try dsimp only
  repeat' first | intro _ | (with_reducible first | assumption | apply Kept.ite | apply Kept.foldl | apply Kept.foldl_fst | ((fail_if_success apply Kept.mk_same); first | apply Kept.mk_obs))

theorem kept_Split_spill {s0 : State} {js : List ShardJob} {d : Split} {it : ℕ × BurrowItem} (hk : Kept w s0 d.s) (w_obs : w .obs = true) :
    Kept w s0 (Split.spill js d it).s := by
  unfold Split.spill
  try dsimp only
  repeat' first | intro _ | (with_reducible first | assumption | apply kept_total | apply kept_Split_setShare | apply Kept.ite | apply Kept.ite_L | apply Kept.foldl | apply Kept.foldl_fst | apply Kept.foldl_L | apply Kept.foldl_G) | split

theorem kept_traceRec {s0 : State} {s : State} {time : ℕ} {kind : ℕ} {engine : ℕ} {w1 : Word64} (hk : Kept w s0 s) (w_obs : w .obs = true) :
    Kept w s0 (State.traceRec s time kind engine w1) := by
  unfold State.traceRec
  try dsimp only
  repeat' first | intro _ | (with_reducible first | assumption | apply kept_total | apply Kept.ite | apply Kept.foldl | apply Kept.foldl_fst | ((fail_if_success apply Kept.mk_same); first | apply Kept.mk_obs))

theorem kept_traceAbandon {s0 : State} {s : State} {engine : ℕ} {opcode : ℕ} {phase : ℕ} {cycle : ℕ} {ran : ℕ} (hk : Kept w s0 s) (w_obs : w .obs = true) :
    Kept w s0 (State.traceAbandon s engine opcode phase cycle ran) := by
  unfold State.traceAbandon
  try dsimp only
  repeat' first | intro _ | (with_reducible first | assumption | apply kept_traceRec)

theorem kept_classBump {s0 : State} {s : State} {f : ℕ} {c : ℕ} {i : ℕ} {n : ℕ} (hk : Kept w s0 s) (w_obs : w .obs = true) :
    Kept w s0 (State.classBump s f c i n) := by
  unfold State.classBump
  try dsimp only
  repeat' first | intro _ | (with_reducible first | assumption | apply Kept.ite | apply Kept.foldl | apply Kept.foldl_fst | ((fail_if_success apply Kept.mk_same); first | apply Kept.mk_obs))

theorem kept_poisonItems {s0 : State} {s : State} {ch : ℕ} {its : List BurrowItem} (hk : Kept w s0 s) (w_search : w .search = true) (w_tables : w .tables = true) (w_flash : w .flash = true) (w_obs : w .obs = true) :
    Kept w s0 (State.poisonItems s ch its) := by
  unfold State.poisonItems
  try dsimp only
  repeat' first | (with_reducible first | exact fun _ => rfl | exact Kept.no (by assumption) | exact id | exact fun _ => ⟨rfl, rfl⟩) | intro _ | (with_reducible first | assumption | apply kept_classBump | apply kept_total | apply Kept.ite | apply Kept.foldl | apply Kept.foldl_fst | ((fail_if_success apply Kept.mk_same); first | apply Kept.mk_all))

theorem kept_raise {s0 : State} {s : State} {c : Cause} {fn : ℕ} {source : ℕ} {d0 : ℕ} {d1 : ℕ} (hk : Kept w s0 s) (w_events : w .events = true) :
    Kept w s0 (State.raise s c fn source d0 d1) := by
  unfold State.raise
  try dsimp only
  repeat' first | intro _ | (with_reducible first | assumption | apply Kept.ite | apply Kept.foldl | apply Kept.foldl_fst | ((fail_if_success apply Kept.mk_same); first | apply Kept.mk_events))

theorem kept_raiseNamed {s0 : State} {s : State} {c : Cause} {names : List ℕ} (hk : Kept w s0 s) (w_events : w .events = true) :
    Kept w s0 (State.raiseNamed s c names) := by
  unfold State.raiseNamed
  try dsimp only
  repeat' first | intro _ | (with_reducible first | assumption | apply kept_raise)

theorem kept_abandon {s0 : State} {s : State} {cyc : ℕ} (hk : Kept w s0 s) (w_tick : w .tick = true) (w_events : w .events = true) (w_search : w .search = true) (w_tables : w .tables = true) (w_flash : w .flash = true) (w_obs : w .obs = true) :
    Kept w s0 (State.abandon s cyc) := by
  unfold State.abandon
  try dsimp only
  repeat' first | intro _ | (with_reducible first | assumption | apply kept_traceAbandon | apply kept_poisonItems | apply kept_raiseNamed | apply kept_total | apply Kept.ite | apply Kept.foldl | apply Kept.foldl_fst | ((fail_if_success apply Kept.mk_same); first | refine Kept.mk_tick ?_ ?_ ?_) | exact ⟨rfl, rfl⟩) | split

theorem kept_abandonWork {s0 : State} {s : State} {f : ℕ} (hk : Kept w s0 s) (w_plan : w .plan = true) (w_host : w .host = true) (w_search : w .search = true) (w_tables : w .tables = true) (w_flash : w .flash = true) (w_obs : w .obs = true) :
    Kept w s0 (State.abandonWork s f) := by
  unfold State.abandonWork
  try dsimp only
  repeat' first | (with_reducible first | exact fun _ => rfl | exact Kept.no (by assumption) | exact id | exact fun _ => ⟨rfl, rfl⟩) | intro _ | (with_reducible first | assumption | apply Kept.ite | apply Kept.foldl | apply Kept.foldl_fst | ((fail_if_success apply Kept.mk_same); first | apply Kept.mk_all))

theorem kept_abortTxn {s0 : State} {s : State} {f : ℕ} {cause : ℕ} (hk : Kept w s0 s) (w_host : w .host = true) (w_events : w .events = true) :
    Kept w s0 (State.abortTxn s f cause) := by
  unfold State.abortTxn
  try dsimp only
  repeat' first | intro _ | (with_reducible first | assumption | apply kept_raise | apply Kept.ite | apply Kept.foldl | apply Kept.foldl_fst | ((fail_if_success apply Kept.mk_same); first | apply Kept.mk_host) | exact ⟨rfl, rfl⟩) | split

theorem kept_regenerate {s0 : State} {s : State} {f : Word64} (hk : Kept w s0 s) (w_tick : w .tick = true) :
    Kept w s0 (State.regenerate s f) := by
  unfold State.regenerate
  try dsimp only
  repeat' first | intro _ | (with_reducible first | assumption | apply Kept.ite | apply Kept.foldl | apply Kept.foldl_fst | ((fail_if_success apply Kept.mk_same); first | refine Kept.mk_tick ?_ ?_ ?_) | exact ⟨rfl, rfl⟩)

theorem kept_setLine {s0 : State} {s : State} {l : Line} (hk : Kept w s0 s) (w_tick : w .tick = true) :
    Kept w s0 (State.setLine s l) := by
  unfold State.setLine
  try dsimp only
  repeat' first | intro _ | (with_reducible first | assumption | apply Kept.ite | apply Kept.foldl | apply Kept.foldl_fst | ((fail_if_success apply Kept.mk_same); first | refine Kept.mk_tick ?_ ?_ ?_) | exact ⟨rfl, rfl⟩)

theorem kept_acceptFrame {s0 : State} {s : State} {f : ℕ} {atNs : ℕ} {raw : Word64} (hk : Kept w s0 s) (w_tick : w .tick = true) :
    Kept w s0 (State.acceptFrame s f atNs raw) := by
  unfold State.acceptFrame
  try dsimp only
  repeat' first | intro _ | (with_reducible first | assumption | apply kept_regenerate | apply kept_setLine)

theorem kept_setFn {s0 : State} {s : State} {x : Fn} (hk : Kept w s0 s) (w_host : w .host = true) :
    Kept w s0 (State.setFn s x) := by
  unfold State.setFn
  try dsimp only
  repeat' first | intro _ | (with_reducible first | assumption | apply Kept.ite | apply Kept.foldl | apply Kept.foldl_fst | ((fail_if_success apply Kept.mk_same); first | apply Kept.mk_host))

theorem kept_setRing {s0 : State} {s : State} {f : ℕ} {r : ℕ} {x : Ring} (hk : Kept w s0 s) (w_host : w .host = true) :
    Kept w s0 (State.setRing s f r x) := by
  unfold State.setRing
  try dsimp only
  repeat' first | intro _ | (with_reducible first | assumption | apply kept_setFn)

theorem kept_ringAccepts {s0 : State} {s : State} {d : Desc} (hk : Kept w s0 s) (w_host : w .host = true) :
    Kept w s0 (State.ringAccepts s d) := by
  unfold State.ringAccepts
  try dsimp only
  repeat' first | intro _ | (with_reducible first | assumption | apply kept_setRing)

theorem kept_acceptWork {s0 : State} {s : State} {d : Desc} {op : ℕ} {slots : ℕ} {started : Bool} {ended : Option Comp} (hk : Kept w s0 s) (w_host : w .host = true) (w_obs : w .obs = true) :
    Kept w s0 (State.acceptWork s d op slots started ended) := by
  unfold State.acceptWork
  try dsimp only
  repeat' first | intro _ | (with_reducible first | assumption | apply kept_classBump | apply kept_ringAccepts | apply Kept.ite | apply Kept.foldl | apply Kept.foldl_fst | ((fail_if_success apply Kept.mk_same); first | apply Kept.mk_host))

theorem kept_setConn {s0 : State} {s : State} {c : Conn} (hk : Kept w s0 s) (w_fabric : w .fabric = true) :
    Kept w s0 (State.setConn s c) := by
  unfold State.setConn
  try dsimp only
  repeat' first | intro _ | (with_reducible first | assumption | apply Kept.ite | apply Kept.foldl | apply Kept.foldl_fst | ((fail_if_success apply Kept.mk_same); first | apply Kept.mk_fabric))

theorem kept_setEgPort {s0 : State} {s : State} {p : ℕ} {x : EgPort} (hk : Kept w s0 s) (w_egress : w .egress = true) :
    Kept w s0 (State.setEgPort s p x) := by
  unfold State.setEgPort
  try dsimp only
  repeat' first | intro _ | (with_reducible first | assumption | apply Kept.ite | apply Kept.foldl | apply Kept.foldl_fst | ((fail_if_success apply Kept.mk_same); first | apply Kept.mk_egress))

theorem kept_enqueue {s0 : State} {s : State} {p : ℕ} {tc : ℕ} {f : EgFrame} (hk : Kept w s0 s) (w_egress : w .egress = true) :
    Kept w s0 (State.enqueue s p tc f) := by
  unfold State.enqueue
  try dsimp only
  repeat' first | intro _ | (with_reducible first | assumption | apply kept_setEgPort)

theorem kept_sendOn {s0 : State} {s : State} {c : Conn} {tc : ℕ} {bytes : List Byte} {endsRead : Bool} (hk : Kept w s0 s) (w_egress : w .egress = true) :
    Kept w s0 (State.sendOn s c tc bytes endsRead) := by
  unfold State.sendOn
  try dsimp only
  repeat' first | intro _ | (with_reducible first | assumption | apply kept_enqueue)

theorem kept_sendControl {s0 : State} {s : State} {c : Conn} {p : LPkt} (hk : Kept w s0 s) (w_egress : w .egress = true) :
    Kept w s0 (State.sendControl s c p) := by
  unfold State.sendControl
  try dsimp only
  repeat' first | intro _ | (with_reducible first | assumption | apply kept_sendOn)

theorem kept_sendAck {s0 : State} {s : State} {c : Conn} {nak : Option ℕ} (hk : Kept w s0 s) (w_fabric : w .fabric = true) (w_egress : w .egress = true) :
    Kept w s0 (State.sendAck s c nak) := by
  unfold State.sendAck
  try dsimp only
  repeat' first | intro _ | (with_reducible first | assumption | apply kept_setConn | apply kept_sendControl)

theorem kept_ackConn {s0 : State} {s : State} {n : ℕ} {nak : Option ℕ} (hk : Kept w s0 s) (w_fabric : w .fabric = true) (w_egress : w .egress = true) :
    Kept w s0 (State.ackConn s n nak) := by
  unfold State.ackConn
  try dsimp only
  repeat' first | intro _ | (with_reducible first | assumption | apply kept_sendAck | apply Kept.ite | apply Kept.foldl | apply Kept.foldl_fst) | split

theorem kept_ackQuiesces {s0 : State} {s : State} (hk : Kept w s0 s) (w_host : w .host = true) (w_fabric : w .fabric = true) (w_egress : w .egress = true) :
    Kept w s0 (State.ackQuiesces s) := by
  unfold State.ackQuiesces
  try dsimp only
  repeat' first | intro _ | (with_reducible first | assumption | apply kept_ackConn | apply Kept.ite | apply Kept.foldl | apply Kept.foldl_fst | ((fail_if_success apply Kept.mk_same); first | apply Kept.mk_host))

theorem kept_mcastSettle {s0 : State} {s : State} {id : ℕ} (hk : Kept w s0 s) (w_events : w .events = true) (w_fabric : w .fabric = true) :
    Kept w s0 (State.mcastSettle s id) := by
  unfold State.mcastSettle
  try dsimp only
  repeat' first | intro _ | (with_reducible first | assumption | apply kept_raise | apply Kept.ite | apply Kept.foldl | apply Kept.foldl_fst | ((fail_if_success apply Kept.mk_same); first | apply Kept.mk_fabric) | exact ⟨rfl, rfl⟩) | split

theorem kept_mcastMark {s0 : State} {s : State} {m : Option (ℕ × ℕ)} {ok : Bool} (hk : Kept w s0 s) (w_events : w .events = true) (w_fabric : w .fabric = true) :
    Kept w s0 (State.mcastMark s m ok) := by
  unfold State.mcastMark
  try dsimp only
  repeat' first | intro _ | (with_reducible first | assumption | apply kept_mcastSettle | apply Kept.ite | apply Kept.foldl | apply Kept.foldl_fst | ((fail_if_success apply Kept.mk_same); first | apply Kept.mk_fabric) | exact ⟨rfl, rfl⟩) | split

theorem kept_spendCredit {s0 : State} {s : State} {n : ℕ} {a2 : ℕ} (hk : Kept w s0 s) (w_fabric : w .fabric = true) (w_egress : w .egress = true) :
    Kept w s0 (State.spendCredit s n a2) := by
  induction a2 generalizing s with
  | zero => exact hk
  | succ fuel ih =>
    unfold State.spendCredit
    try dsimp only
    repeat' first | intro _ | (with_reducible first | assumption | apply ih | apply kept_sendOn | apply kept_setConn | apply Kept.ite | apply Kept.foldl | apply Kept.foldl_fst) | split

theorem kept_bumpFabric {s0 : State} {s : State} {i : ℕ} (hk : Kept w s0 s) (w_fabric : w .fabric = true) :
    Kept w s0 (State.bumpFabric s i) := by
  unfold State.bumpFabric
  try dsimp only
  repeat' first | intro _ | (with_reducible first | assumption | apply Kept.ite | apply Kept.foldl | apply Kept.foldl_fst | ((fail_if_success apply Kept.mk_same); first | apply Kept.mk_fabric))

theorem kept_resend {s0 : State} {s : State} {n : ℕ} {psn : ℕ} (hk : Kept w s0 s) (w_fabric : w .fabric = true) (w_egress : w .egress = true) :
    Kept w s0 (State.resend s n psn) := by
  unfold State.resend
  try dsimp only
  repeat' first | intro _ | (with_reducible first | assumption | apply kept_bumpFabric | apply kept_sendOn | apply kept_setConn | apply Kept.ite | apply Kept.foldl | apply Kept.foldl_fst) | split

theorem kept_acked {s0 : State} {s : State} {n : ℕ} {ackPsn : ℕ} {sack : Word64} (hk : Kept w s0 s) (w_events : w .events = true) (w_fabric : w .fabric = true) (w_egress : w .egress = true) :
    Kept w s0 (State.acked s n ackPsn sack) := by
  unfold State.acked
  try dsimp only
  repeat' first | intro _ | (with_reducible first | assumption | apply kept_setConn | apply kept_mcastMark | apply kept_spendCredit | apply kept_resend | apply Kept.ite | apply Kept.foldl | apply Kept.foldl_fst) | split

theorem kept_addJob {s0 : State} {s : State} {a : Ask} {own : Bool} {ring : ℕ} (hk : Kept w s0 s) (w_search : w .search = true) :
    Kept w s0 (State.addJob s a own ring) := by
  unfold State.addJob
  try dsimp only
  repeat' first | intro _ | (with_reducible first | assumption | apply Kept.ite | apply Kept.foldl | apply Kept.foldl_fst | ((fail_if_success apply Kept.mk_same); first | apply Kept.mk_search))

theorem kept_mapWork {s0 : State} {s : State} {f : ℕ} {r : ℕ} {q : Word64} {g : Work → Work} (hk : Kept w s0 s) (w_host : w .host = true) :
    Kept w s0 (State.mapWork s f r q g) := by
  unfold State.mapWork
  try dsimp only
  repeat' first | intro _ | (with_reducible first | assumption | apply Kept.ite | apply Kept.foldl | apply Kept.foldl_fst | ((fail_if_success apply Kept.mk_same); first | apply Kept.mk_host))

theorem kept_markAdmin {s0 : State} {s : State} {f : ℕ} {q : Word64} (hk : Kept w s0 s) (w_host : w .host = true) :
    Kept w s0 (State.markAdmin s f q) := by
  unfold State.markAdmin
  try dsimp only
  repeat' first | intro _ | (with_reducible first | assumption | apply kept_setFn | apply Kept.ite | apply Kept.foldl | apply Kept.foldl_fst) | split

theorem kept_finish {s0 : State} {s : State} {f : ℕ} {r : ℕ} {q : Word64} {c : Comp} {bufs : List (ℕ × List Byte)} (hk : Kept w s0 s) (w_host : w .host = true) :
    Kept w s0 (State.finish s f r q c bufs) := by
  unfold State.finish
  try dsimp only
  repeat' first | intro _ | (with_reducible first | assumption | apply kept_mapWork | apply kept_markAdmin | apply Kept.ite | apply Kept.foldl | apply Kept.foldl_fst) | split

theorem kept_endWith {s0 : State} {s : State} {d : Desc} {status : ℕ} (hk : Kept w s0 s) (w_host : w .host = true) :
    Kept w s0 (State.endWith s d status) := by
  unfold State.endWith
  try dsimp only
  repeat' first | intro _ | (with_reducible first | assumption | apply kept_finish)

theorem kept_rebuildAdmin {s0 : State} {s : State} {d : Desc} (hk : Kept w s0 s) (w_host : w .host = true) :
    Kept w s0 (State.rebuildAdmin s d) := by
  unfold State.rebuildAdmin
  try dsimp only
  repeat' first | intro _ | (with_reducible first | assumption | apply kept_finish | apply kept_endWith | apply Kept.ite | apply Kept.foldl | apply Kept.foldl_fst) | split

theorem kept_admit {s0 : State} {s : State} {d : Desc} {op : ℕ} {refused : Option ℕ} {need : ℕ} {started : Bool} (hk : Kept w s0 s) (w_host : w .host = true) (w_obs : w .obs = true) :
    KeptP w s0 (State.admitDesc s d op refused need started) := by
  unfold State.admitDesc
  try dsimp only
  repeat' first | intro _ | (with_reducible first | assumption | apply kept_rebuildAdmin | apply kept_acceptWork | apply Kept.ite | exact KeptP.none | apply KeptP.some | apply KeptP.some' | apply KeptP.ite | apply KeptP.map | apply Kept.foldl | apply Kept.foldl_fst) | split

theorem kept_putItem {s0 : State} {s : State} {i : Item} (hk : Kept w s0 s) (w_items : w .items = true) :
    Kept w s0 (State.putItem s i) := by
  unfold State.putItem
  try dsimp only
  repeat' first | intro _ | (with_reducible first | assumption | apply Kept.ite | apply Kept.foldl | apply Kept.foldl_fst | ((fail_if_success apply Kept.mk_same); first | apply Kept.mk_items))

theorem kept_setPolicer {s0 : State} {s : State} {p : Policer} (hk : Kept w s0 s) (w_egress : w .egress = true) :
    Kept w s0 (State.setPolicer s p) := by
  unfold State.setPolicer
  try dsimp only
  repeat' first | intro _ | (with_reducible first | assumption | apply Kept.ite | apply Kept.foldl | apply Kept.foldl_fst | ((fail_if_success apply Kept.mk_same); first | apply Kept.mk_egress))

theorem kept_holdPolicer {s0 : State} {s : State} {t : TxnItem} (hk : Kept w s0 s) (w_egress : w .egress = true) :
    Kept w s0 (State.holdPolicer s t) := by
  unfold State.holdPolicer
  try dsimp only
  repeat' first | intro _ | (with_reducible first | assumption | apply kept_setPolicer | apply Kept.ite | apply Kept.foldl | apply Kept.foldl_fst | ((fail_if_success apply Kept.mk_same); first | apply Kept.mk_egress))

theorem kept_restartCounts {s0 : State} {s : State} {f : ℕ} (hk : Kept w s0 s) (w_tables : w .tables = true) (w_obs : w .obs = true) :
    Kept w s0 (State.restartCounts s f) := by
  unfold State.restartCounts
  try dsimp only
  repeat' first | (with_reducible first | exact fun _ => rfl | exact Kept.no (by assumption) | exact id | exact fun _ => ⟨rfl, rfl⟩) | intro _ | (with_reducible first | assumption | apply Kept.ite | apply Kept.foldl | apply Kept.foldl_fst | ((fail_if_success apply Kept.mk_same); first | apply Kept.mk_all))

theorem kept_connect {s0 : State} {s : State} {n : ℕ} (hk : Kept w s0 s) (w_fabric : w .fabric = true) (w_egress : w .egress = true) :
    Kept w s0 (State.connect s n) := by
  unfold State.connect
  try dsimp only
  repeat' first | intro _ | (with_reducible first | assumption | apply kept_sendControl | apply kept_setConn | apply Kept.ite | apply Kept.foldl | apply Kept.foldl_fst) | split

theorem kept_mapConn {s0 : State} {s : State} {n : ℕ} {f : Conn → Conn} (hk : Kept w s0 s) (w_fabric : w .fabric = true) :
    Kept w s0 (State.mapConn s n f) := by
  unfold State.mapConn
  try dsimp only
  repeat' first | intro _ | (with_reducible first | assumption | apply kept_setConn | apply Kept.ite | apply Kept.foldl | apply Kept.foldl_fst) | split

theorem kept_dropConn {s0 : State} {s : State} {n : ℕ} (hk : Kept w s0 s) (w_fabric : w .fabric = true) :
    Kept w s0 (State.dropConn s n) := by
  unfold State.dropConn
  try dsimp only
  repeat' first | intro _ | (with_reducible first | assumption | apply Kept.ite | apply Kept.foldl | apply Kept.foldl_fst | ((fail_if_success apply Kept.mk_same); first | apply Kept.mk_fabric))

theorem kept_tookFresh {s0 : State} {s : State} (hk : Kept w s0 s) (w_free : w .free = true) :
    Kept w s0 (State.tookFresh s) := by
  unfold State.tookFresh
  try dsimp only
  repeat' first | intro _ | (with_reducible first | assumption | apply Kept.ite | apply Kept.foldl | apply Kept.foldl_fst | ((fail_if_success apply Kept.mk_same); first | apply Kept.mk_free))

theorem kept_sysConn {s0 : State} {s : State} {all : List TxnItem} {r : ItemRec} (hk : Kept w s0 s) (w_fabric : w .fabric = true) (w_free : w .free = true) :
    Kept w s0 (State.sysConn s all r) := by
  unfold State.sysConn
  try dsimp only
  repeat' first | intro _ | (with_reducible first | assumption | apply kept_mapConn | apply kept_dropConn | apply kept_tookFresh | apply kept_setConn | apply Kept.ite | apply Kept.foldl | apply Kept.foldl_fst | ((fail_if_success apply Kept.mk_same); first | apply Kept.mk_fabric))

theorem kept_raisePort {s0 : State} {s : State} {c : Cause} {p : ℕ} {d0 : ℕ} {d1 : ℕ} (hk : Kept w s0 s) (w_events : w .events = true) :
    Kept w s0 (State.raisePort s c p d0 d1) := by
  unfold State.raisePort
  try dsimp only
  repeat' first | intro _ | (with_reducible first | assumption | apply kept_raise | apply Kept.ite | apply Kept.foldl)

theorem kept_setPort {s0 : State} {s : State} {p : ℕ} {x : Port} (hk : Kept w s0 s) (w_fabric : w .fabric = true) :
    Kept w s0 (State.setPort s p x) := by
  unfold State.setPort
  try dsimp only
  repeat' first | intro _ | (with_reducible first | assumption | apply Kept.ite | apply Kept.foldl | apply Kept.foldl_fst | ((fail_if_success apply Kept.mk_same); first | apply Kept.mk_fabric))

theorem kept_resendAll {s0 : State} {s : State} {n : ℕ} (hk : Kept w s0 s) (w_fabric : w .fabric = true) (w_egress : w .egress = true) :
    Kept w s0 (State.resendAll s n) := by
  unfold State.resendAll
  try dsimp only
  repeat' first | intro _ | (with_reducible first | assumption | apply kept_bumpFabric | apply kept_sendOn | apply Kept.ite | apply Kept.foldl | apply Kept.foldl_fst) | split

theorem kept_moveFrames {s0 : State} {s : State} {n : ℕ} {p : ℕ} {q : ℕ} (hk : Kept w s0 s) (w_egress : w .egress = true) :
    Kept w s0 (State.moveFrames s n p q) := by
  unfold State.moveFrames
  try dsimp only
  repeat' first | intro _ | (with_reducible first | assumption | apply kept_setEgPort)

theorem kept_portDown {s0 : State} {s : State} {p : ℕ} (hk : Kept w s0 s) (w_events : w .events = true) (w_fabric : w .fabric = true) (w_egress : w .egress = true) :
    Kept w s0 (State.portDown s p) := by
  unfold State.portDown
  try dsimp only
  repeat' first | intro _ | (with_reducible first | assumption | apply kept_raisePort | apply kept_setPort | apply kept_resendAll | apply kept_setConn | apply kept_moveFrames | apply Kept.ite | apply Kept.foldl | apply Kept.foldl_fst) | split

theorem kept_portRestore {s0 : State} {s : State} {p : ℕ} (hk : Kept w s0 s) (w_events : w .events = true) (w_fabric : w .fabric = true) (w_egress : w .egress = true) :
    Kept w s0 (State.portRestore s p) := by
  unfold State.portRestore
  try dsimp only
  repeat' first | intro _ | (with_reducible first | assumption | apply kept_portDown | apply kept_raisePort | apply kept_setPort | apply Kept.ite)

theorem kept_rmaAlloc {s0 : State} {s : State} {f : ℕ} {r : ItemRec} (hk : Kept w s0 s) (w_tiers : w .tiers = true) (w_fabric : w .fabric = true) :
    Kept w s0 (State.rmaAlloc s f r) := by
  unfold State.rmaAlloc
  try dsimp only
  repeat' first | (with_reducible first | exact fun _ => rfl | exact Kept.no (by assumption) | exact id | exact fun _ => ⟨rfl, rfl⟩) | intro _ | (with_reducible first | assumption | apply Kept.ite | apply Kept.foldl | apply Kept.foldl_fst | ((fail_if_success apply Kept.mk_same); first | apply Kept.mk_fabric | apply Kept.mk_tiers | apply Kept.mk_all) | exact ⟨rfl, rfl⟩) | split

theorem kept_dropItems {s0 : State} {s : State} {f : ℕ} {block : ℕ} {index : ℕ} (hk : Kept w s0 s) (w_items : w .items = true) :
    Kept w s0 (State.dropItems s f block index) := by
  unfold State.dropItems
  try dsimp only
  repeat' first | intro _ | (with_reducible first | assumption | apply Kept.ite | apply Kept.foldl | apply Kept.foldl_fst | ((fail_if_success apply Kept.mk_same); first | apply Kept.mk_items))

theorem kept_dropPlaces {s0 : State} {s : State} {f : ℕ} {o : ℕ} (hk : Kept w s0 s) (w_tiers : w .tiers = true) :
    Kept w s0 (State.dropPlaces s f o) := by
  unfold State.dropPlaces
  try dsimp only
  repeat' first | intro _ | (with_reducible first | assumption | apply Kept.ite | apply Kept.foldl | apply Kept.foldl_fst | ((fail_if_success apply Kept.mk_same); first | apply Kept.mk_tiers))

theorem kept_rmaDrop {s0 : State} {s : State} {f : ℕ} {slot : ℕ} (hk : Kept w s0 s) (w_tiers : w .tiers = true) (w_fabric : w .fabric = true) :
    Kept w s0 (State.rmaDrop s f slot) := by
  unfold State.rmaDrop
  try dsimp only
  repeat' first | intro _ | (with_reducible first | assumption | apply kept_dropPlaces | apply Kept.ite | apply Kept.foldl | apply Kept.foldl_fst | ((fail_if_success apply Kept.mk_same); first | apply Kept.mk_fabric) | exact ⟨rfl, rfl⟩) | split

theorem kept_setStile {s0 : State} {s : State} {i : ℕ} {t : Stile} (hk : Kept w s0 s) (w_stiles : w .stiles = true) :
    Kept w s0 (State.setStile s i t) := by
  unfold State.setStile
  try dsimp only
  repeat' first | intro _ | (with_reducible first | assumption | apply Kept.ite | apply Kept.foldl | apply Kept.foldl_fst | ((fail_if_success apply Kept.mk_same); first | apply Kept.mk_stiles))

theorem kept_allocStile {s0 : State} {s : State} {f : ℕ} {i : ℕ} {init : ℕ} (hk : Kept w s0 s) (w_stiles : w .stiles = true) :
    Kept w s0 (State.allocStile s f i init) := by
  unfold State.allocStile
  try dsimp only
  repeat' first | intro _ | (with_reducible first | assumption | apply kept_setStile | apply Kept.ite)

theorem kept_quarantine {s0 : State} {s : State} {i : ℕ} (hk : Kept w s0 s) (w_stiles : w .stiles = true) :
    Kept w s0 (State.quarantine s i) := by
  unfold State.quarantine
  try dsimp only
  repeat' first | intro _ | (with_reducible first | assumption | apply kept_setStile)

theorem kept_freeStile {s0 : State} {s : State} {f : ℕ} {i : ℕ} (hk : Kept w s0 s) (w_stiles : w .stiles = true) :
    Kept w s0 (State.freeStile s f i) := by
  unfold State.freeStile
  try dsimp only
  repeat' first | intro _ | (with_reducible first | assumption | apply kept_quarantine | apply Kept.ite)

theorem kept_takePlace {s0 : State} {s : State} {f : ℕ} {o : ℕ} {ch : ℕ} {n : ℕ} (hk : Kept w s0 s) (w_tiers : w .tiers = true) (w_t1 : w .t1 = true) :
    KeptP w s0 (State.takePlace s f o ch n) := by
  unfold State.takePlace
  try dsimp only
  repeat' first | (with_reducible first | exact fun _ => rfl | exact Kept.no (by assumption) | exact id | exact fun _ => ⟨rfl, rfl⟩) | intro _ | (with_reducible first | assumption | apply Kept.ite | exact KeptP.none | apply KeptP.some | apply KeptP.some' | apply KeptP.ite | apply KeptP.map | apply Kept.foldl | apply Kept.foldl_fst | ((fail_if_success apply Kept.mk_same); first | apply Kept.mk_all) | exact ⟨rfl, rfl⟩ | exact id | apply memWrite_wf | apply memWriteBytes_wf | apply memWriteCells_wf | apply memWf_filter | apply memWf_foldl) | split

theorem kept_placeCell {s0 : State} {s : State} {x : Index} {c : ℕ} (hk : Kept w s0 s) (w_tiers : w .tiers = true) (w_t1 : w .t1 = true) :
    Kept w s0 (State.placeCell s x c).1 := by
  unfold State.placeCell
  try dsimp only
  repeat' first | intro _ | (with_reducible first | assumption | apply kept_takePlace | apply Kept.ite | apply Kept.ite_fst | exact KeptP.none | apply KeptP.some | apply KeptP.some' | apply KeptP.ite | apply KeptP.map | apply Kept.foldl | apply Kept.foldl_fst | ((fail_if_success apply Kept.mk_same); first | refine Kept.mk_t1 ?_ ?_ ?_) | exact ⟨rfl, rfl⟩ | exact id | apply memWrite_wf | apply memWriteBytes_wf | apply memWriteCells_wf | apply memWf_filter | apply memWf_foldl) | split | (with_reducible first | refine Kept.fst (by assumption) ?_ | refine KeptP.of (by assumption) ?_)

theorem kept_setIndex {s0 : State} {s : State} {x : Index} (hk : Kept w s0 s) (w_search : w .search = true) :
    Kept w s0 (State.setIndex s x) := by
  unfold State.setIndex
  try dsimp only
  repeat' first | intro _ | (with_reducible first | assumption | apply Kept.ite | apply Kept.foldl | apply Kept.foldl_fst | ((fail_if_success apply Kept.mk_same); first | apply Kept.mk_search))

theorem kept_placeIndex {s0 : State} {s : State} {x : Index} (hk : Kept w s0 s) (w_tiers : w .tiers = true) (w_search : w .search = true) (w_t1 : w .t1 = true) :
    Kept w s0 (State.placeIndex s x) := by
  unfold State.placeIndex
  try dsimp only
  repeat' first | intro _ | (with_reducible first | assumption | apply kept_placeCell | apply kept_takePlace | apply kept_setIndex | apply Kept.ite | apply Kept.ite_fst | exact KeptP.none | apply KeptP.some | apply KeptP.some' | apply KeptP.ite | apply KeptP.map | apply Kept.foldl | apply Kept.foldl_fst) | split | (with_reducible first | refine Kept.fst (by assumption) ?_ | refine KeptP.of (by assumption) ?_)

theorem kept_stampAt {s0 : State} {s : State} {a : ℕ} {a2 : SheafHdr} (hk : Kept w s0 s) (w_t1 : w .t1 = true) :
    Kept w s0 (State.stampAt s a a2) := by
  unfold State.stampAt
  try dsimp only
  repeat' first | intro _ | (with_reducible first | assumption | apply Kept.ite | apply Kept.foldl | apply Kept.foldl_fst | ((fail_if_success apply Kept.mk_same); first | refine Kept.mk_t1 ?_ ?_ ?_) | exact ⟨rfl, rfl⟩ | exact id | apply memWrite_wf | apply memWriteBytes_wf)

theorem kept_stampPacked {s0 : State} {s : State} {a : ℕ} {n : ℕ} {u : ℕ} {kind : ℕ} {rowLen : ℕ} {rows : ℕ → ℕ} {obj : ℕ} {fn : ℕ} {part : ℕ} (hk : Kept w s0 s) (w_t1 : w .t1 = true) :
    Kept w s0 (State.stampPacked s a n u kind rowLen rows obj fn part) := by
  unfold State.stampPacked
  try dsimp only
  repeat' first | intro _ | (with_reducible first | assumption | apply kept_stampAt | apply Kept.ite | apply Kept.foldl)

theorem kept_stampCell {s0 : State} {s : State} {x : Index} {c : ℕ} (hk : Kept w s0 s) (w_t1 : w .t1 = true) :
    Kept w s0 (State.stampCell s x c) := by
  unfold State.stampCell
  try dsimp only
  repeat' first | intro _ | (with_reducible first | assumption | apply kept_stampPacked | apply kept_stampAt | apply Kept.ite | apply Kept.foldl)

theorem kept_createIndex {s0 : State} {s : State} {x : Index} (hk : Kept w s0 s) (w_tiers : w .tiers = true) (w_search : w .search = true) (w_t1 : w .t1 = true) :
    Kept w s0 (State.createIndex s x) := by
  unfold State.createIndex
  try dsimp only
  repeat' first | intro _ | (with_reducible first | assumption | apply kept_placeIndex | apply kept_stampCell | apply Kept.ite | apply Kept.foldl | apply Kept.foldl_fst) | split

theorem kept_jot {s0 : State} {s : State} {type : ℕ} {args : List ℕ} (hk : Kept w s0 s) (w_flash : w .flash = true) :
    Kept w s0 (State.jot s type args) := by
  unfold State.jot
  try dsimp only
  repeat' first | intro _ | (with_reducible first | assumption | apply Kept.ite | apply Kept.foldl | apply Kept.foldl_fst | ((fail_if_success apply Kept.mk_same); first | apply Kept.mk_flash))

theorem kept_dropWords {s0 : State} {s : State} {ps : List FlashPlace} (hk : Kept w s0 s) (w_flash : w .flash = true) :
    Kept w s0 (State.dropWords s ps) := by
  unfold State.dropWords
  try dsimp only
  repeat' first | intro _ | (with_reducible first | assumption | apply Kept.ite | apply Kept.foldl | apply Kept.foldl_fst | ((fail_if_success apply Kept.mk_same); first | apply Kept.mk_flash))

theorem kept_releaseObject {s0 : State} {s : State} {f : ℕ} {o : ℕ} (hk : Kept w s0 s) (w_tiers : w .tiers = true) (w_search : w .search = true) (w_tables : w .tables = true) (w_flash : w .flash = true) :
    Kept w s0 (State.releaseObject s f o) := by
  unfold State.releaseObject
  try dsimp only
  repeat' first | (with_reducible first | exact fun _ => rfl | exact Kept.no (by assumption) | exact id | exact fun _ => ⟨rfl, rfl⟩) | intro _ | (with_reducible first | assumption | apply kept_jot | apply kept_dropWords | apply kept_dropPlaces | apply Kept.ite | apply Kept.foldl | apply Kept.foldl_fst | ((fail_if_success apply Kept.mk_same); first | apply Kept.mk_flash | apply Kept.mk_all))

theorem kept_setTable {s0 : State} {s : State} {x : TableDef} (hk : Kept w s0 s) (w_tables : w .tables = true) :
    Kept w s0 (State.setTable s x) := by
  unfold State.setTable
  try dsimp only
  repeat' first | intro _ | (with_reducible first | assumption | apply Kept.ite | apply Kept.foldl | apply Kept.foldl_fst | ((fail_if_success apply Kept.mk_same); first | apply Kept.mk_tables))

theorem kept_placeTable {s0 : State} {s : State} {t : TableDef} (hk : Kept w s0 s) (w_tiers : w .tiers = true) (w_tables : w .tables = true) (w_t1 : w .t1 = true) :
    Kept w s0 (State.placeTable s t) := by
  unfold State.placeTable
  try dsimp only
  repeat' first | intro _ | (with_reducible first | assumption | apply kept_takePlace | apply kept_setTable | apply Kept.ite | exact KeptP.none | apply KeptP.some | apply KeptP.some' | apply KeptP.ite | apply KeptP.map | apply Kept.foldl | apply Kept.foldl_fst) | split | (with_reducible first | refine Kept.fst (by assumption) ?_ | refine KeptP.of (by assumption) ?_)

theorem kept_stampUnit {s0 : State} {s : State} {t : TableDef} {ch : ℕ} {u : ℕ} (hk : Kept w s0 s) (w_t1 : w .t1 = true) :
    Kept w s0 (State.stampUnit s t ch u) := by
  unfold State.stampUnit
  try dsimp only
  repeat' first | intro _ | (with_reducible first | assumption | apply kept_stampAt | apply Kept.ite)

theorem kept_createTable {s0 : State} {s : State} {t : TableDef} (hk : Kept w s0 s) (w_tiers : w .tiers = true) (w_tables : w .tables = true) (w_t1 : w .t1 = true) :
    Kept w s0 (State.createTable s t) := by
  unfold State.createTable
  try dsimp only
  repeat' first | intro _ | (with_reducible first | assumption | apply kept_placeTable | apply kept_stampUnit | apply kept_stampPacked | apply Kept.ite | apply Kept.foldl | apply Kept.foldl_fst) | split

theorem kept_itemEffect {s0 : State} {s : State} {f : ℕ} {q : Word64} {all : List TxnItem} {t : TxnItem} (hk : Kept w s0 s) (w_tick : w .tick = true) (w_plan : w .plan = true) (w_items : w .items = true) (w_events : w .events = true) (w_stiles : w .stiles = true) (w_tiers : w .tiers = true) (w_search : w .search = true) (w_tables : w .tables = true) (w_flash : w .flash = true) (w_fabric : w .fabric = true) (w_egress : w .egress = true) (w_t1 : w .t1 = true) (w_power : w .power = true) (w_obs : w .obs = true) (w_free : w .free = true) :
    Kept w s0 (State.itemEffect s f q all t) := by
  unfold State.itemEffect
  try dsimp only
  repeat' first | (with_reducible first | exact fun _ => rfl | exact Kept.no (by assumption) | exact id | exact fun _ => ⟨rfl, rfl⟩) | intro _ | (with_reducible first | assumption | apply kept_restartCounts | apply kept_connect | apply kept_sysConn | apply kept_portRestore | apply kept_mapConn | apply kept_rmaAlloc | apply kept_dropItems | apply kept_rmaDrop | apply kept_allocStile | apply kept_freeStile | apply kept_createIndex | apply kept_releaseObject | apply kept_setIndex | apply kept_createTable | apply kept_setTable | apply Kept.ite | apply Kept.foldl | apply Kept.foldl_fst | ((fail_if_success apply Kept.mk_same); first | apply Kept.mk_power | apply Kept.mk_obs | refine Kept.mk_tick ?_ ?_ ?_ | apply Kept.mk_plan | apply Kept.mk_fabric | apply Kept.mk_all) | exact ⟨rfl, rfl⟩) | split

theorem kept_applyRec {s0 : State} {s : State} {f : ℕ} {q : Word64} {all : List TxnItem} {t : TxnItem} (hk : Kept w s0 s) (w_tick : w .tick = true) (w_plan : w .plan = true) (w_items : w .items = true) (w_events : w .events = true) (w_stiles : w .stiles = true) (w_tiers : w .tiers = true) (w_search : w .search = true) (w_tables : w .tables = true) (w_flash : w .flash = true) (w_fabric : w .fabric = true) (w_egress : w .egress = true) (w_t1 : w .t1 = true) (w_power : w .power = true) (w_obs : w .obs = true) (w_free : w .free = true) :
    Kept w s0 (State.applyRec s f q all t) := by
  unfold State.applyRec
  try dsimp only
  repeat' first | intro _ | (with_reducible first | assumption | apply kept_putItem | apply kept_holdPolicer | apply kept_itemEffect)

theorem kept_applyCommitItems {s0 : State} {s : State} {c : Commit} (hk : Kept w s0 s) (w_tick : w .tick = true) (w_plan : w .plan = true) (w_items : w .items = true) (w_events : w .events = true) (w_stiles : w .stiles = true) (w_tiers : w .tiers = true) (w_search : w .search = true) (w_tables : w .tables = true) (w_flash : w .flash = true) (w_fabric : w .fabric = true) (w_egress : w .egress = true) (w_t1 : w .t1 = true) (w_power : w .power = true) (w_obs : w .obs = true) (w_free : w .free = true) :
    Kept w s0 (State.applyCommitItems s c).1 := by
  unfold State.applyCommitItems
  try dsimp only
  repeat' first | intro _ | (with_reducible first | assumption | apply kept_applyRec | apply Kept.ite | apply Kept.ite_fst | apply Kept.foldl | apply Kept.foldl_fst)

theorem kept_afterCommits {s0 : State} {s : State} {apply : Word64} (hk : Kept w s0 s) (w_tick : w .tick = true) (w_clock : w .clock = true) (w_plan : w .plan = true) (w_items : w .items = true) (w_events : w .events = true) (w_stiles : w .stiles = true) (w_tiers : w .tiers = true) (w_search : w .search = true) (w_tables : w .tables = true) (w_flash : w .flash = true) (w_fabric : w .fabric = true) (w_egress : w .egress = true) (w_t1 : w .t1 = true) (w_power : w .power = true) (w_obs : w .obs = true) (w_free : w .free = true) :
    Kept w s0 (State.afterCommits s apply) := by
  unfold State.afterCommits
  try dsimp only
  repeat' first | intro _ | (with_reducible first | assumption | apply kept_applyCommitItems | apply Kept.ite | apply Kept.ite_fst | apply Kept.foldl | apply Kept.foldl_fst | ((fail_if_success apply Kept.mk_same); first | apply Kept.mk_clock))

theorem kept_agePeers {s0 : State} {s : State} (hk : Kept w s0 s) (w_tick : w .tick = true) :
    Kept w s0 (State.agePeers s) := by
  unfold State.agePeers
  try dsimp only
  repeat' first | intro _ | (with_reducible first | assumption | apply Kept.ite | apply Kept.foldl | apply Kept.foldl_fst | ((fail_if_success apply Kept.mk_same); first | refine Kept.mk_tick ?_ ?_ ?_) | exact ⟨rfl, rfl⟩)

theorem kept_sendStream {s0 : State} {s : State} {n : ℕ} {psns : ℕ} {mk : Conn → LPkt} {mcast : Option (ℕ × ℕ)} (hk : Kept w s0 s) (w_fabric : w .fabric = true) (w_egress : w .egress = true) :
    Kept w s0 (State.sendStream s n psns mk mcast) := by
  unfold State.sendStream
  try dsimp only
  repeat' first | intro _ | (with_reducible first | assumption | apply kept_setConn | apply kept_sendOn | apply Kept.ite | apply Kept.foldl | apply Kept.foldl_fst) | split

theorem kept_sendBatch {s0 : State} {s : State} {n : ℕ} {addr : ℕ} {body : List Byte} {final : List Byte} {sig : Word64} (hk : Kept w s0 s) (w_fabric : w .fabric = true) (w_egress : w .egress = true) :
    Kept w s0 (State.sendBatch s n addr body final sig) := by
  unfold State.sendBatch
  try dsimp only
  repeat' first | intro _ | (with_reducible first | assumption | apply kept_sendStream | apply kept_setConn | apply Kept.ite | apply Kept.foldl | apply Kept.foldl_fst) | split

theorem kept_sendPlan {s0 : State} {s : State} {tc : ℕ} {node : ℕ} {bytes : List Byte} (hk : Kept w s0 s) (w_fabric : w .fabric = true) (w_egress : w .egress = true) :
    Kept w s0 (State.sendPlan s tc node bytes) := by
  unfold State.sendPlan
  try dsimp only
  repeat' first | intro _ | (with_reducible first | assumption | apply kept_sendBatch | apply Kept.ite | apply Kept.foldl | apply Kept.foldl_fst | ((fail_if_success apply Kept.mk_same); first | apply Kept.mk_fabric) | exact ⟨rfl, rfl⟩) | split

theorem kept_answerPartner {s0 : State} {s : State} (hk : Kept w s0 s) (w_fabric : w .fabric = true) (w_egress : w .egress = true) (w_faults : w .faults = true) :
    Kept w s0 (State.answerPartner s) := by
  unfold State.answerPartner
  try dsimp only
  repeat' first | intro _ | (with_reducible first | assumption | apply kept_sendPlan | apply Kept.ite | apply Kept.foldl | apply Kept.foldl_fst | ((fail_if_success apply Kept.mk_same); first | apply Kept.mk_faults))

theorem kept_applyCommit {s0 : State} {s : State} {c : Commit} (hk : Kept w s0 s) (w_tick : w .tick = true) (w_plan : w .plan = true) (w_items : w .items = true) (w_host : w .host = true) (w_events : w .events = true) (w_stiles : w .stiles = true) (w_tiers : w .tiers = true) (w_search : w .search = true) (w_tables : w .tables = true) (w_flash : w .flash = true) (w_fabric : w .fabric = true) (w_egress : w .egress = true) (w_t1 : w .t1 = true) (w_power : w .power = true) (w_obs : w .obs = true) (w_free : w .free = true) :
    Kept w s0 (State.applyCommit s c) := by
  unfold State.applyCommit
  try dsimp only
  repeat' first | intro _ | (with_reducible first | assumption | apply kept_applyCommitItems | apply kept_finish | apply kept_markAdmin | apply Kept.ite | apply Kept.ite_fst | apply Kept.foldl | apply Kept.foldl_fst | ((fail_if_success apply Kept.mk_same); first | apply Kept.mk_host) | exact ⟨rfl, rfl⟩) | split

theorem kept_applyCommits {s0 : State} {s : State} (hk : Kept w s0 s) (w_tick : w .tick = true) (w_plan : w .plan = true) (w_items : w .items = true) (w_host : w .host = true) (w_events : w .events = true) (w_stiles : w .stiles = true) (w_tiers : w .tiers = true) (w_search : w .search = true) (w_tables : w .tables = true) (w_flash : w .flash = true) (w_fabric : w .fabric = true) (w_egress : w .egress = true) (w_t1 : w .t1 = true) (w_power : w .power = true) (w_obs : w .obs = true) (w_free : w .free = true) :
    Kept w s0 (State.applyCommits s) := by
  unfold State.applyCommits
  try dsimp only
  repeat' first | intro _ | (with_reducible first | assumption | apply kept_applyCommit | apply Kept.ite | apply Kept.foldl | apply Kept.foldl_fst | ((fail_if_success apply Kept.mk_same); first | apply Kept.mk_host))

theorem kept_putHdr {s0 : State} {s : State} {x : Index} {l : ℕ} {a3 : ListHdr} (hk : Kept w s0 s) (w_t1 : w .t1 = true) :
    Kept w s0 (State.putHdr s x l a3) := by
  unfold State.putHdr
  try dsimp only
  repeat' first | intro _ | (with_reducible first | assumption | apply Kept.ite | apply Kept.foldl | apply Kept.foldl_fst | ((fail_if_success apply Kept.mk_same); first | refine Kept.mk_t1 ?_ ?_ ?_) | exact ⟨rfl, rfl⟩ | exact id | apply memWrite_wf | apply memWriteBytes_wf)

theorem kept_putBit {s0 : State} {s : State} {a : ℕ} {b : ℕ} {on : Bool} (hk : Kept w s0 s) (w_t1 : w .t1 = true) :
    Kept w s0 (State.putBit s a b on) := by
  unfold State.putBit
  try dsimp only
  repeat' first | intro _ | (with_reducible first | assumption | apply Kept.ite | apply Kept.foldl | apply Kept.foldl_fst | ((fail_if_success apply Kept.mk_same); first | refine Kept.mk_t1 ?_ ?_ ?_) | exact ⟨rfl, rfl⟩ | exact id | apply memWrite_wf)

theorem kept_applyDelete {s0 : State} {s : State} {u : UpItem} {x : Index} (hk : Kept w s0 s) (w_search : w .search = true) (w_t1 : w .t1 = true) :
    Kept w s0 (State.applyDelete s u x).1 := by
  unfold State.applyDelete
  try dsimp only
  repeat' first | intro _ | (with_reducible first | assumption | apply kept_putHdr | apply kept_putBit | apply kept_setIndex | apply Kept.ite | apply Kept.ite_fst | apply Kept.foldl | apply Kept.foldl_fst) | split

theorem kept_mapLog {s0 : State} {s : State} {rec : List Byte} {v : ℕ × ℕ × ℕ × ℕ} (hk : Kept w s0 s) (w_flash : w .flash = true) :
    Kept w s0 (State.mapLog s rec v) := by
  unfold State.mapLog
  try dsimp only
  repeat' first | intro _ | (with_reducible first | assumption | apply Kept.ite | apply Kept.foldl | apply Kept.foldl_fst | ((fail_if_success apply Kept.mk_same); first | apply Kept.mk_flash))

theorem kept_applyInsert {s0 : State} {s : State} {u : UpItem} {x : Index} (hk : Kept w s0 s) (w_search : w .search = true) (w_flash : w .flash = true) (w_t1 : w .t1 = true) :
    Kept w s0 (State.applyInsert s u x).1 := by
  unfold State.applyInsert
  try dsimp only
  repeat' first | intro _ | (with_reducible first | assumption | apply kept_putHdr | apply kept_setIndex | apply kept_mapLog | apply Kept.ite | apply Kept.ite_fst | apply Kept.foldl | apply Kept.foldl_fst | ((fail_if_success apply Kept.mk_same); first | refine Kept.mk_t1 ?_ ?_ ?_) | exact ⟨rfl, rfl⟩ | exact id | apply memWrite_wf | apply memWriteBytes_wf)

theorem kept_keepRow {s0 : State} {s : State} {f : ℕ} {o : ℕ} {j : ℕ} (hk : Kept w s0 s) (w_tables : w .tables = true) :
    Kept w s0 (State.keepRow s f o j) := by
  unfold State.keepRow
  try dsimp only
  repeat' first | intro _ | (with_reducible first | assumption | apply kept_setTable | apply Kept.ite | apply Kept.foldl | apply Kept.foldl_fst) | split

theorem kept_restamp {s0 : State} {s : State} {a : ℕ} (hk : Kept w s0 s) (w_t1 : w .t1 = true) :
    Kept w s0 (State.restamp s a) := by
  unfold State.restamp
  try dsimp only
  repeat' first | intro _ | (with_reducible first | assumption | apply Kept.ite | apply Kept.foldl | apply Kept.foldl_fst | ((fail_if_success apply Kept.mk_same); first | refine Kept.mk_t1 ?_ ?_ ?_) | exact ⟨rfl, rfl⟩ | exact id | apply memWrite_wf | apply memWriteBytes_wf)

theorem kept_setSheafScale {s0 : State} {s : State} {t : TableDef} {j : ℕ} {v : Word32} (hk : Kept w s0 s) (w_t1 : w .t1 = true) :
    Kept w s0 (State.setSheafScale s t j v) := by
  unfold State.setSheafScale
  try dsimp only
  repeat' first | intro _ | (with_reducible first | assumption | apply kept_restamp | apply Kept.ite | apply Kept.foldl | apply Kept.foldl_fst | ((fail_if_success apply Kept.mk_same); first | refine Kept.mk_t1 ?_ ?_ ?_) | exact ⟨rfl, rfl⟩ | exact id | apply memWrite_wf | apply memWriteBytes_wf)

theorem kept_putRow {s0 : State} {s : State} {t : TableDef} {j : ℕ} {bytes : List Byte} {scaleField : ℕ} (hk : Kept w s0 s) (w_t1 : w .t1 = true) :
    Kept w s0 (State.putRow s t j bytes scaleField) := by
  unfold State.putRow
  try dsimp only
  repeat' first | intro _ | (with_reducible first | assumption | apply Kept.ite | apply Kept.foldl | apply Kept.foldl_fst | ((fail_if_success apply Kept.mk_same); first | refine Kept.mk_t1 ?_ ?_ ?_) | exact ⟨rfl, rfl⟩ | exact id | apply memWrite_wf | apply memWriteBytes_wf | apply memWriteCells_wf | apply memWf_filter | apply memWf_foldl) | split

theorem kept_writeRow {s0 : State} {s : State} {t : TableDef} {j : ℕ} {v : List Word32} (hk : Kept w s0 s) (w_t1 : w .t1 = true) :
    Kept w s0 (State.writeRow s t j v).1 := by
  unfold State.writeRow
  try dsimp only
  repeat' first | intro _ | (with_reducible first | assumption | apply kept_setSheafScale | apply kept_putRow | apply kept_putBit | apply Kept.ite | apply Kept.ite_fst)

theorem kept_applyRow {s0 : State} {s : State} {u : UpItem} {t : TableDef} (hk : Kept w s0 s) (w_tables : w .tables = true) (w_t1 : w .t1 = true) :
    Kept w s0 (State.applyRow s u t).1 := by
  unfold State.applyRow
  try dsimp only
  repeat' first | intro _ | (with_reducible first | assumption | apply kept_keepRow | apply kept_putBit | apply kept_writeRow | apply kept_mapResult | apply kept_setTable | apply Kept.ite | apply Kept.ite_fst | apply Kept.foldl | apply Kept.foldl_fst) | split

theorem kept_applyItem {s0 : State} {s : State} {u : UpItem} (hk : Kept w s0 s) (w_search : w .search = true) (w_tables : w .tables = true) (w_flash : w .flash = true) (w_t1 : w .t1 = true) :
    Kept w s0 (State.applyItem s u).1 := by
  unfold State.applyItem
  try dsimp only
  repeat' first | intro _ | (with_reducible first | assumption | apply kept_applyInsert | apply kept_applyDelete | apply kept_applyRow | apply Kept.ite | apply Kept.ite_fst | apply Kept.foldl | apply Kept.foldl_fst) | split

theorem kept_bumpFn {s0 : State} {s : State} {f : ℕ} {i : ℕ} (hk : Kept w s0 s) (w_host : w .host = true) :
    Kept w s0 (State.bumpFn s f i) := by
  unfold State.bumpFn
  try dsimp only
  repeat' first | intro _ | (with_reducible first | assumption | apply kept_setFn)

theorem kept_bumpStile {s0 : State} {s : State} {i : ℕ} (hk : Kept w s0 s) (w_stiles : w .stiles = true) :
    Kept w s0 (State.bumpStile s i) := by
  unfold State.bumpStile
  try dsimp only
  repeat' first | intro _ | (with_reducible first | assumption | apply Kept.ite | apply Kept.foldl | apply Kept.foldl_fst | ((fail_if_success apply Kept.mk_same); first | apply Kept.mk_stiles))

theorem kept_flagRose {s0 : State} {s : State} {i : ℕ} {t : Stile} {was : Bool} {now : Bool} {n : ℕ} (hk : Kept w s0 s) (w_events : w .events = true) :
    Kept w s0 (State.flagRose s i t was now n) := by
  unfold State.flagRose
  try dsimp only
  repeat' first | intro _ | (with_reducible first | assumption | apply kept_raise | apply Kept.ite)

theorem kept_stileMisuse {s0 : State} {s : State} {i : ℕ} (hk : Kept w s0 s) (w_events : w .events = true) (w_stiles : w .stiles = true) :
    Kept w s0 (State.stileMisuse s i) := by
  unfold State.stileMisuse
  try dsimp only
  repeat' first | intro _ | (with_reducible first | assumption | apply kept_flagRose | apply kept_setStile)

theorem kept_stileApply {s0 : State} {s : State} {i : ℕ} {ops : List StileOp} (hk : Kept w s0 s) (w_host : w .host = true) (w_events : w .events = true) (w_stiles : w .stiles = true) :
    Kept w s0 (State.stileApply s i ops) := by
  unfold State.stileApply
  try dsimp only
  repeat' first | intro _ | (with_reducible first | assumption | apply kept_setStile | apply kept_bumpFn | apply kept_bumpStile | apply kept_flagRose | apply Kept.ite | apply Kept.foldl)

theorem kept_stileVerdict {s0 : State} {s : State} {fn : ℕ} {i : ℕ} {gen : ℕ} {v : StileVerdict} (hk : Kept w s0 s) (w_host : w .host = true) (w_events : w .events = true) (w_stiles : w .stiles = true) :
    Kept w s0 (State.stileVerdict s fn i gen v) := by
  unfold State.stileVerdict
  try dsimp only
  repeat' first | intro _ | (with_reducible first | assumption | apply kept_bumpFn | apply kept_bumpStile | apply kept_setFn | apply kept_raise | apply kept_stileMisuse | apply kept_stileApply | apply Kept.ite | apply Kept.foldl | apply Kept.foldl_fst) | split

theorem kept_stileOutside {s0 : State} {s : State} {src : StileSource} {fn : ℕ} {addressed : Option ℕ} {a4 : ℕ} (hk : Kept w s0 s) (w_host : w .host = true) (w_events : w .events = true) (w_stiles : w .stiles = true) :
    Kept w s0 (State.stileOutside s src fn addressed a4) := by
  unfold State.stileOutside
  try dsimp only
  repeat' first | intro _ | (with_reducible first | assumption | apply kept_stileVerdict)

theorem kept_applySig {s0 : State} {s : State} {c : Conn} {p : LPkt} (hk : Kept w s0 s) (w_host : w .host = true) (w_events : w .events = true) (w_stiles : w .stiles = true) :
    Kept w s0 (State.applySig s c p) := by
  unfold State.applySig
  try dsimp only
  repeat' first | intro _ | (with_reducible first | assumption | apply kept_stileOutside | apply Kept.ite)

theorem kept_applyStep {s0 : State} {a : Applying} {u : UpItem} (hk : Kept w s0 a.s) (w_search : w .search = true) (w_tables : w .tables = true) (w_flash : w .flash = true) (w_t1 : w .t1 = true) :
    Kept w s0 (applyStep a u).s := by
  unfold applyStep
  try dsimp only
  repeat' first | intro _ | (with_reducible first | assumption | apply kept_Applying_hold | apply kept_mapResult | apply kept_applyItem | apply kept_Applying_take | apply Kept.ite | apply Kept.ite_A | apply Kept.ite_fst | apply Kept.foldl | apply Kept.foldl_fst) | split | (with_reducible first | refine Kept.fst (by assumption) ?_)

theorem kept_passEnd {s0 : State} {s : State} {t : TableDef} (hk : Kept w s0 s) (w_tables : w .tables = true) :
    Kept w s0 (State.passEnd s t) := by
  unfold State.passEnd
  try dsimp only
  repeat' first | intro _ | (with_reducible first | assumption | apply kept_setTable | apply Kept.ite | apply Kept.foldl | apply Kept.foldl_fst) | split

theorem kept_raiseMark {s0 : State} {s : State} {u : UpItem} (hk : Kept w s0 s) (w_tables : w .tables = true) (w_flash : w .flash = true) :
    Kept w s0 (State.raiseMark s u) := by
  unfold State.raiseMark
  try dsimp only
  repeat' first | intro _ | (with_reducible first | assumption | apply kept_jot | apply Kept.ite | apply Kept.foldl | apply Kept.foldl_fst | ((fail_if_success apply Kept.mk_same); first | apply Kept.mk_tables))

theorem kept_applyUpdates {s0 : State} {s : State} (hk : Kept w s0 s) (w_search : w .search = true) (w_tables : w .tables = true) (w_flash : w .flash = true) (w_t1 : w .t1 = true) :
    Kept w s0 (State.applyUpdates s) := by
  unfold State.applyUpdates
  try dsimp only
  repeat' first | intro _ | (with_reducible first | assumption | apply kept_applyStep | apply kept_passEnd | apply kept_raiseMark | apply Kept.ite | apply Kept.ite_A | apply Kept.foldl | apply Kept.foldl_fst | apply Kept.foldl_A | ((fail_if_success apply Kept.mk_same); first | apply Kept.mk_tables))

theorem kept_dropWatch {s0 : State} {s : State} {a1 : Watch} (hk : Kept w s0 s) (w_obs : w .obs = true) :
    Kept w s0 (State.dropWatch s a1) := by
  unfold State.dropWatch
  try dsimp only
  repeat' first | intro _ | (with_reducible first | assumption | apply Kept.ite | apply Kept.foldl | apply Kept.foldl_fst | ((fail_if_success apply Kept.mk_same); first | apply Kept.mk_obs))

theorem kept_endWatch {s0 : State} {s : State} {a1 : Watch} {tick : Word64} {flags : ℕ} {bytes : ℕ → List Byte} (hk : Kept w s0 s) (w_host : w .host = true) (w_obs : w .obs = true) :
    Kept w s0 (State.endWatch s a1 tick flags bytes) := by
  unfold State.endWatch
  try dsimp only
  repeat' first | intro _ | (with_reducible first | assumption | apply kept_finish | apply kept_dropWatch)

theorem kept_watchNone {s0 : State} {s : State} {a1 : Watch} (hk : Kept w s0 s) (w_host : w .host = true) (w_obs : w .obs = true) :
    Kept w s0 (State.watchNone s a1) := by
  unfold State.watchNone
  try dsimp only
  repeat' first | intro _ | (with_reducible first | assumption | apply kept_endWatch)

theorem kept_armWatches {s0 : State} {s : State} (hk : Kept w s0 s) (w_host : w .host = true) (w_obs : w .obs = true) :
    Kept w s0 (State.armWatches s) := by
  unfold State.armWatches
  try dsimp only
  repeat' first | intro _ | (with_reducible first | assumption | apply kept_watchNone | apply Kept.ite | apply Kept.foldl | apply Kept.foldl_fst | ((fail_if_success apply Kept.mk_same); first | apply Kept.mk_obs))

theorem kept_askPartner {s0 : State} {s : State} (hk : Kept w s0 s) (w_fabric : w .fabric = true) (w_egress : w .egress = true) :
    Kept w s0 (State.askPartner s) := by
  unfold State.askPartner
  try dsimp only
  repeat' first | intro _ | (with_reducible first | assumption | apply kept_sendPlan | apply Kept.ite | apply Kept.foldl | apply Kept.foldl_fst) | split

theorem kept_askRecon {s0 : State} {s : State} {p : FlashPlace} (hk : Kept w s0 s) (w_flash : w .flash = true) :
    Kept w s0 (State.askRecon s p) := by
  unfold State.askRecon
  try dsimp only
  repeat' first | intro _ | (with_reducible first | assumption | apply Kept.ite | apply Kept.foldl | apply Kept.foldl_fst | ((fail_if_success apply Kept.mk_same); first | apply Kept.mk_flash))

theorem kept_askRefills {s0 : State} {s : State} (hk : Kept w s0 s) (w_flash : w .flash = true) (w_fabric : w .fabric = true) (w_egress : w .egress = true) :
    Kept w s0 (State.askRefills s) := by
  unfold State.askRefills
  try dsimp only
  repeat' first | intro _ | (with_reducible first | assumption | apply kept_sendPlan | apply Kept.ite | apply Kept.foldl | apply Kept.foldl_fst | ((fail_if_success apply Kept.mk_same); first | apply Kept.mk_flash) | exact ⟨rfl, rfl⟩) | split

theorem kept_setTile {s0 : State} {s : State} {t : Tile} (hk : Kept w s0 s) (w_mesh : w .mesh = true) :
    Kept w s0 (State.setTile s t) := by
  unfold State.setTile
  try dsimp only
  repeat' first | intro _ | (with_reducible first | assumption | apply Kept.ite | apply Kept.foldl | apply Kept.foldl_fst | ((fail_if_success apply Kept.mk_same); first | apply Kept.mk_mesh))

theorem kept_scratchPut {s0 : State} {s : State} {tile : ℕ} {addr : ℕ} {bs : List Byte} (hk : Kept w s0 s) (w_mesh : w .mesh = true) :
    Kept w s0 (State.scratchPut s tile addr bs) := by
  unfold State.scratchPut
  try dsimp only
  repeat' first | intro _ | (with_reducible first | assumption | apply kept_setTile)

theorem kept_placeBytes {s0 : State} {s : State} {a : ℕ} {bs : List Byte} (hk : Kept w s0 s) (w_mesh : w .mesh = true) (w_t1 : w .t1 = true) :
    Kept w s0 (State.placeBytes s a bs) := by
  unfold State.placeBytes
  try dsimp only
  repeat' first | intro _ | (with_reducible first | assumption | apply kept_scratchPut | apply Kept.ite | apply Kept.foldl | apply Kept.foldl_fst | ((fail_if_success apply Kept.mk_same); first | refine Kept.mk_t1 ?_ ?_ ?_) | exact ⟨rfl, rfl⟩ | exact id | apply memWrite_wf | apply memWriteBytes_wf | apply memWriteCells_wf | apply memWf_filter | apply memWf_foldl) | split

theorem kept_atomic {s0 : State} {s : State} {a : ℕ} {f : ℕ → ℕ} (hk : Kept w s0 s) (w_mesh : w .mesh = true) (w_t1 : w .t1 = true) :
    Kept w s0 (State.atomic s a f).1 := by
  unfold State.atomic
  try dsimp only
  repeat' first | intro _ | (with_reducible first | assumption | apply kept_placeBytes)

theorem kept_badAccess {s0 : State} {s : State} (hk : Kept w s0 s) (w_regs : w .regs = true) :
    Kept w s0 (State.badAccess s) := by
  unfold State.badAccess
  try dsimp only
  repeat' first | intro _ | (with_reducible first | assumption | apply Kept.ite | apply Kept.foldl | apply Kept.foldl_fst | ((fail_if_success apply Kept.mk_same); first | apply Kept.mk_regs))

theorem kept_bumpFlash {s0 : State} {s : State} {i : ℕ} {n : ℕ} (hk : Kept w s0 s) (w_flash : w .flash = true) :
    Kept w s0 (State.bumpFlash s i n) := by
  unfold State.bumpFlash
  try dsimp only
  repeat' first | intro _ | (with_reducible first | assumption | apply Kept.ite | apply Kept.foldl | apply Kept.foldl_fst | ((fail_if_success apply Kept.mk_same); first | apply Kept.mk_flash))

theorem kept_setDie {s0 : State} {s : State} {x : Die} (hk : Kept w s0 s) (w_flash : w .flash = true) :
    Kept w s0 (State.setDie s x) := by
  unfold State.setDie
  try dsimp only
  repeat' first | intro _ | (with_reducible first | assumption | apply Kept.ite | apply Kept.foldl | apply Kept.foldl_fst | ((fail_if_success apply Kept.mk_same); first | apply Kept.mk_flash))

theorem kept_dieTo {s0 : State} {s : State} {d : ℕ} {st : DieState} (hk : Kept w s0 s) (w_events : w .events = true) (w_flash : w .flash = true) :
    Kept w s0 (State.dieTo s d st) := by
  unfold State.dieTo
  try dsimp only
  repeat' first | intro _ | (with_reducible first | assumption | apply kept_raiseNamed | apply kept_jot | apply kept_setDie)

theorem kept_dieFails {s0 : State} {s : State} {d : ℕ} (hk : Kept w s0 s) (w_events : w .events = true) (w_flash : w .flash = true) :
    Kept w s0 (State.dieFails s d) := by
  unfold State.dieFails
  try dsimp only
  repeat' first | intro _ | (with_reducible first | assumption | apply kept_dieTo | apply Kept.ite)

theorem kept_badBlock {s0 : State} {s : State} {d : ℕ} {plane : ℕ} {block : ℕ} (hk : Kept w s0 s) (w_events : w .events = true) (w_flash : w .flash = true) :
    Kept w s0 (State.badBlock s d plane block) := by
  unfold State.badBlock
  try dsimp only
  repeat' first | intro _ | (with_reducible first | assumption | apply kept_bumpFlash | apply kept_dieFails | apply kept_jot | apply kept_setDie | apply Kept.ite | apply Kept.foldl | apply Kept.foldl_fst | ((fail_if_success apply Kept.mk_same); first | apply Kept.mk_flash))

theorem kept_setStack {s0 : State} {s : State} {i : ℕ} {x : Stack} (hk : Kept w s0 s) (w_warren : w .warren = true) :
    Kept w s0 (State.setStack s i x) := by
  unfold State.setStack
  try dsimp only
  repeat' first | intro _ | (with_reducible first | assumption | apply Kept.ite | apply Kept.foldl | apply Kept.foldl_fst | ((fail_if_success apply Kept.mk_same); first | apply Kept.mk_warren))

theorem kept_fence {s0 : State} {s : State} {p : Part} (hk : Kept w s0 s) (w_faults : w .faults = true) :
    Kept w s0 (State.fence s p) := by
  unfold State.fence
  try dsimp only
  repeat' first | intro _ | (with_reducible first | assumption | apply Kept.ite | apply Kept.foldl | apply Kept.foldl_fst | ((fail_if_success apply Kept.mk_same); first | apply Kept.mk_faults))

theorem kept_unitFails {s0 : State} {s : State} {stack : ℕ} {u : ℕ} {c : Cause} (hk : Kept w s0 s) (w_events : w .events = true) (w_warren : w .warren = true) (w_search : w .search = true) (w_tables : w .tables = true) (w_flash : w .flash = true) (w_faults : w .faults = true) (w_obs : w .obs = true) :
    Kept w s0 (State.unitFails s stack u c) := by
  unfold State.unitFails
  try dsimp only
  repeat' first | intro _ | (with_reducible first | assumption | apply kept_raiseNamed | apply kept_fence | apply kept_setBurrow | apply kept_poisonItems | apply Kept.ite | apply Kept.foldl | apply Kept.foldl_fst) | split

theorem kept_badBlockAt {s0 : State} {s : State} {a : ℕ} {its : List BurrowItem} (hk : Kept w s0 s) (w_events : w .events = true) (w_warren : w .warren = true) (w_search : w .search = true) (w_tables : w .tables = true) (w_flash : w .flash = true) (w_faults : w .faults = true) (w_obs : w .obs = true) :
    Kept w s0 (State.badBlockAt s a its) := by
  unfold State.badBlockAt
  try dsimp only
  repeat' first | intro _ | (with_reducible first | assumption | apply kept_raiseNamed | apply kept_setStack | apply kept_poisonItems | apply kept_unitFails | apply Kept.ite | apply Kept.foldl | apply Kept.foldl_fst | ((fail_if_success apply Kept.mk_same); first | apply Kept.mk_faults))

theorem kept_wideReg {s0 : State} {s : State} {v : Word64} (hk : Kept w s0 s) :
    KeptV w s0 (wideReg s v) := by
  unfold wideReg
  try dsimp only
  repeat' first | intro _ | (with_reducible first | assumption | apply Kept.ite | exact KeptV.none | apply KeptV.some)

theorem kept_rcReg {s0 : State} {v : Word64} {after : State} (hk : Kept w s0 after) :
    KeptV w s0 (rcReg v after) := by
  unfold rcReg
  try dsimp only
  repeat' first | intro _ | (with_reducible first | assumption | apply Kept.ite | exact KeptV.none | apply KeptV.some)

theorem kept_idReg {s0 : State} {s : State} {o : ℕ} (hk : Kept w s0 s) (w_regs : w .regs = true) :
    KeptV w s0 (State.idReg s o) := by
  unfold State.idReg
  try dsimp only
  repeat' first | intro _ | (with_reducible first | assumption | apply kept_wideReg | apply kept_rcReg | apply Kept.ite | exact KeptV.none | apply KeptV.some | apply KeptV.ite | apply Kept.foldl | apply Kept.foldl_fst | ((fail_if_success apply Kept.mk_same); first | apply Kept.mk_regs) | exact ⟨rfl, rfl⟩) | split

theorem kept_mbxReg {s0 : State} {s : State} {o : ℕ} (hk : Kept w s0 s) (w_regs : w .regs = true) :
    KeptV w s0 (State.mbxReg s o) := by
  unfold State.mbxReg
  try dsimp only
  repeat' first | intro _ | (with_reducible first | assumption | apply kept_wideReg | apply kept_rcReg | apply Kept.ite | exact KeptV.none | apply KeptV.some | apply KeptV.ite | apply Kept.foldl | apply Kept.foldl_fst | ((fail_if_success apply Kept.mk_same); first | apply Kept.mk_regs) | exact ⟨rfl, rfl⟩) | split

theorem kept_tkCounter {s0 : State} {s : State} {i : ℕ} (hk : Kept w s0 s) (w_tick : w .tick = true) :
    KeptV w s0 (State.tkCounter s i) := by
  unfold State.tkCounter
  try dsimp only
  repeat' first | intro _ | (with_reducible first | assumption | apply kept_rcReg | apply Kept.ite | exact KeptV.none | apply KeptV.some | apply KeptV.ite | apply Kept.foldl | apply Kept.foldl_fst | ((fail_if_success apply Kept.mk_same); first | refine Kept.mk_tick ?_ ?_ ?_) | exact ⟨rfl, rfl⟩) | split

theorem kept_tickReg {s0 : State} {s : State} {o : ℕ} (hk : Kept w s0 s) (w_tick : w .tick = true) :
    KeptV w s0 (State.tickReg s o) := by
  unfold State.tickReg
  try dsimp only
  repeat' first | intro _ | (with_reducible first | assumption | apply kept_wideReg | apply kept_tkCounter | apply Kept.ite | exact KeptV.none | apply KeptV.some | apply KeptV.ite | apply Kept.foldl | apply Kept.foldl_fst) | split

theorem kept_narrowReg {s0 : State} {s : State} {v : Word64} (hk : Kept w s0 s) :
    KeptV w s0 (narrowReg s v) := by
  unfold narrowReg
  try dsimp only
  repeat' first | intro _ | (with_reducible first | assumption | apply Kept.ite | exact KeptV.none | apply KeptV.some)

theorem kept_portReg {s0 : State} {s : State} {p : ℕ} {o : ℕ} (hk : Kept w s0 s) (w_fabric : w .fabric = true) (w_egress : w .egress = true) :
    KeptV w s0 (State.portReg s p o) := by
  unfold State.portReg
  try dsimp only
  repeat' first | intro _ | (with_reducible first | assumption | apply kept_narrowReg | apply kept_rcReg | apply kept_setPort | apply kept_setEgPort | apply Kept.ite | exact KeptV.none | apply KeptV.some | apply KeptV.ite | apply Kept.foldl | apply Kept.foldl_fst) | split

theorem kept_fabricReg {s0 : State} {s : State} {o : ℕ} (hk : Kept w s0 s) (w_fabric : w .fabric = true) (w_egress : w .egress = true) :
    KeptV w s0 (State.fabricReg s o) := by
  unfold State.fabricReg
  try dsimp only
  repeat' first | intro _ | (with_reducible first | assumption | apply kept_rcReg | apply kept_setPolicer | apply kept_portReg | apply Kept.ite | exact KeptV.none | apply KeptV.some | apply KeptV.ite | apply Kept.foldl | apply Kept.foldl_fst | ((fail_if_success apply Kept.mk_same); first | apply Kept.mk_fabric) | exact ⟨rfl, rfl⟩) | split

theorem kept_flashReg {s0 : State} {s : State} {o : ℕ} (hk : Kept w s0 s) (w_flash : w .flash = true) :
    KeptV w s0 (State.flashReg s o) := by
  unfold State.flashReg
  try dsimp only
  repeat' first | intro _ | (with_reducible first | assumption | apply kept_wideReg | apply kept_rcReg | apply kept_narrowReg | apply Kept.ite | exact KeptV.none | apply KeptV.some | apply KeptV.ite | apply Kept.foldl | apply Kept.foldl_fst | ((fail_if_success apply Kept.mk_same); first | apply Kept.mk_flash) | exact ⟨rfl, rfl⟩) | split

theorem kept_warrenReg {s0 : State} {s : State} {o : ℕ} (hk : Kept w s0 s) (w_warren : w .warren = true) :
    KeptV w s0 (State.warrenReg s o) := by
  unfold State.warrenReg
  try dsimp only
  repeat' first | intro _ | (with_reducible first | assumption | apply kept_narrowReg | apply kept_rcReg | apply kept_setStack | apply Kept.ite | exact KeptV.none | apply KeptV.some | apply KeptV.ite | apply Kept.foldl | apply Kept.foldl_fst) | split

theorem kept_stileReg {s0 : State} {s : State} {o : ℕ} (hk : Kept w s0 s) (w_stiles : w .stiles = true) :
    KeptV w s0 (State.stileReg s o) := by
  unfold State.stileReg
  try dsimp only
  repeat' first | intro _ | (with_reducible first | assumption | apply kept_wideReg | apply kept_rcReg | apply Kept.ite | exact KeptV.none | apply KeptV.some | apply KeptV.ite | apply Kept.foldl | apply Kept.foldl_fst | ((fail_if_success apply Kept.mk_same); first | apply Kept.mk_stiles) | exact ⟨rfl, rfl⟩) | split

theorem kept_powerReg {s0 : State} {s : State} {o : ℕ} (hk : Kept w s0 s) (w_power : w .power = true) :
    KeptV w s0 (State.powerReg s o) := by
  unfold State.powerReg
  try dsimp only
  repeat' first | intro _ | (with_reducible first | assumption | apply kept_narrowReg | apply kept_rcReg | apply kept_wideReg | apply Kept.ite | exact KeptV.none | apply KeptV.some | apply KeptV.ite | apply Kept.foldl | apply Kept.foldl_fst | ((fail_if_success apply Kept.mk_same); first | apply Kept.mk_power) | exact ⟨rfl, rfl⟩) | split

theorem kept_lcRefuse {s0 : State} {s : State} (hk : Kept w s0 s) (w_test : w .test = true) :
    Kept w s0 (State.lcRefuse s) := by
  unfold State.lcRefuse
  try dsimp only
  repeat' first | intro _ | (with_reducible first | assumption | apply Kept.ite | apply Kept.foldl | apply Kept.foldl_fst | ((fail_if_success apply Kept.mk_same); first | refine Kept.mk_test ?_ ?_ ?_) | exact ⟨rfl, rfl⟩) | split | (with_reducible first | refine Kept.fst (by assumption) ?_) | exact rfl

theorem kept_testReg {s0 : State} {s : State} {o : ℕ} (hk : Kept w s0 s) (w_test : w .test = true) :
    KeptV w s0 (State.testReg s o) := by
  unfold State.testReg
  try dsimp only
  repeat' first | intro _ | (with_reducible first | assumption | apply kept_wideReg | apply kept_rcReg | apply kept_lcRefuse | apply kept_narrowReg | apply Kept.ite | exact KeptV.none | apply KeptV.some | apply KeptV.ite | apply Kept.foldl | apply Kept.foldl_fst | ((fail_if_success apply Kept.mk_same); first | refine Kept.mk_test ?_ ?_ ?_) | exact ⟨rfl, rfl⟩) | split | (with_reducible first | refine Kept.fst (by assumption) ?_ | refine KeptV.of (by assumption) ?_ | dsimp only) | exact rfl

theorem kept_debugReg {s0 : State} {s : State} {data : Word64} {o : ℕ} (hk : Kept w s0 s) :
    KeptV w s0 (State.debugReg s data o) := by
  unfold State.debugReg
  try dsimp only
  repeat' first | intro _ | (with_reducible first | assumption | apply kept_wideReg | apply Kept.ite | exact KeptV.none | apply KeptV.some | apply KeptV.ite | apply Kept.foldl | apply Kept.foldl_fst) | split

theorem kept_compReg {s0 : State} {s : State} {o : ℕ} (hk : Kept w s0 s) (w_host : w .host = true) :
    KeptV w s0 (State.compReg s o) := by
  unfold State.compReg
  try dsimp only
  repeat' first | intro _ | (with_reducible first | assumption | apply kept_wideReg | apply kept_rcReg | apply Kept.ite | exact KeptV.none | apply KeptV.some | apply KeptV.ite | apply Kept.foldl | apply Kept.foldl_fst | ((fail_if_success apply Kept.mk_same); first | apply Kept.mk_host) | exact ⟨rfl, rfl⟩) | split

theorem kept_bar0With {s0 : State} {s : State} {data : Word64} {off : ℕ} (hk : Kept w s0 s) (w_tick : w .tick = true) (w_host : w .host = true) (w_stiles : w .stiles = true) (w_warren : w .warren = true) (w_flash : w .flash = true) (w_fabric : w .fabric = true) (w_egress : w .egress = true) (w_power : w .power = true) (w_test : w .test = true) (w_regs : w .regs = true) :
    KeptV w s0 (State.bar0With s data off) := by
  unfold State.bar0With
  extract_lets o
  clear_value o
  generalize o - 0x10000 = o2
  split
  · split
    · exact kept_idReg hk w_regs
    · exact kept_mbxReg hk w_regs
  · exact kept_tickReg hk w_tick
  · exact KeptV.ite (kept_wideReg hk ) KeptV.none
  · exact kept_fabricReg hk w_fabric w_egress
  · exact kept_flashReg hk w_flash
  · exact kept_warrenReg hk w_warren
  · exact kept_stileReg hk w_stiles
  · exact kept_powerReg hk w_power
  · exact kept_testReg hk w_test
  · exact kept_debugReg hk 
  · exact kept_compReg hk w_host
  · exact KeptV.none

theorem kept_bar0 {s0 : State} {s : State} {off : ℕ} (hk : Kept w s0 s) (w_tick : w .tick = true) (w_host : w .host = true) (w_stiles : w .stiles = true) (w_warren : w .warren = true) (w_flash : w .flash = true) (w_fabric : w .fabric = true) (w_egress : w .egress = true) (w_power : w .power = true) (w_test : w .test = true) (w_regs : w .regs = true) :
    KeptV w s0 (State.bar0 s off) := by
  unfold State.bar0
  try dsimp only
  repeat' first | intro _ | (with_reducible first | assumption | apply kept_bar0With)

theorem kept_mbxIgnore {s0 : State} {s : State} (hk : Kept w s0 s) (w_regs : w .regs = true) :
    Kept w s0 (State.mbxIgnore s) := by
  unfold State.mbxIgnore
  try dsimp only
  repeat' first | intro _ | (with_reducible first | assumption | apply Kept.ite | apply Kept.foldl | apply Kept.foldl_fst | ((fail_if_success apply Kept.mk_same); first | apply Kept.mk_regs))

theorem kept_mbxPutCmd {s0 : State} {s : State} {v : Word64} (hk : Kept w s0 s) (w_regs : w .regs = true) :
    Kept w s0 (State.mbxPutCmd s v) := by
  unfold State.mbxPutCmd
  try dsimp only
  repeat' first | intro _ | (with_reducible first | assumption | apply kept_mbxIgnore | apply Kept.ite | apply Kept.foldl | apply Kept.foldl_fst | ((fail_if_success apply Kept.mk_same); first | apply Kept.mk_regs))

theorem kept_mbxPutArg {s0 : State} {s : State} {v : Word64} (hk : Kept w s0 s) (w_regs : w .regs = true) :
    Kept w s0 (State.mbxPutArg s v) := by
  unfold State.mbxPutArg
  try dsimp only
  repeat' first | intro _ | (with_reducible first | assumption | apply kept_mbxIgnore | apply Kept.ite | apply Kept.foldl | apply Kept.foldl_fst | ((fail_if_success apply Kept.mk_same); first | apply Kept.mk_regs))

theorem kept_mbxGo {s0 : State} {s : State} {v : Word64} (hk : Kept w s0 s) (w_regs : w .regs = true) :
    Kept w s0 (State.mbxGo s v) := by
  unfold State.mbxGo
  try dsimp only
  repeat' first | intro _ | (with_reducible first | assumption | apply kept_mbxIgnore | apply Kept.ite | apply Kept.foldl | apply Kept.foldl_fst | ((fail_if_success apply Kept.mk_same); first | apply Kept.mk_regs))

theorem kept_warmState {s0 : State} {s : State} (hk : Kept w s0 s) (w_tick : w .tick = true) (w_clock : w .clock = true) (w_ptp : w .ptp = true) (w_plan : w .plan = true) (w_items : w .items = true) (w_host : w .host = true) (w_mesh : w .mesh = true) (w_warren : w .warren = true) (w_tiers : w .tiers = true) (w_search : w .search = true) (w_tables : w .tables = true) (w_flash : w .flash = true) (w_fabric : w .fabric = true) (w_egress : w .egress = true) (w_faults : w .faults = true) (w_regs : w .regs = true) (w_obs : w .obs = true) :
    Kept w s0 (State.warmState s) := by
  unfold State.warmState
  try dsimp only
  repeat' first | (with_reducible first | exact fun _ => rfl | exact Kept.no (by assumption) | exact id | exact fun _ => ⟨rfl, rfl⟩) | intro _ | (with_reducible first | assumption | apply Kept.ite | apply Kept.foldl | apply Kept.foldl_fst | ((fail_if_success apply Kept.mk_same); first | apply Kept.mk_all))

theorem kept_releaseConn {s0 : State} {s : State} {n : ℕ} (hk : Kept w s0 s) (w_fabric : w .fabric = true) :
    Kept w s0 (State.releaseConn s n) := by
  unfold State.releaseConn
  try dsimp only
  repeat' first | intro _ | (with_reducible first | assumption | apply kept_dropConn | apply Kept.ite | apply Kept.foldl | apply Kept.foldl_fst | ((fail_if_success apply Kept.mk_same); first | apply Kept.mk_fabric) | exact ⟨rfl, rfl⟩) | split

theorem kept_discardFrames {s0 : State} {s : State} {n : ℕ} (hk : Kept w s0 s) (w_egress : w .egress = true) :
    Kept w s0 (State.discardFrames s n) := by
  unfold State.discardFrames
  try dsimp only
  repeat' first | intro _ | (with_reducible first | assumption | apply kept_setEgPort | apply Kept.ite | apply Kept.foldl)

theorem kept_fnReleases {s0 : State} {s : State} {f : ℕ} (hk : Kept w s0 s) (w_host : w .host = true) (w_stiles : w .stiles = true) (w_fabric : w .fabric = true) (w_egress : w .egress = true) :
    Kept w s0 (State.fnReleases s f) := by
  unfold State.fnReleases
  try dsimp only
  repeat' first | intro _ | (with_reducible first | assumption | apply kept_setFn | apply kept_releaseConn | apply kept_discardFrames | apply Kept.ite | apply Kept.foldl | apply Kept.foldl_fst | ((fail_if_success apply Kept.mk_same); first | apply Kept.mk_stiles))

theorem kept_flrOne {s0 : State} {s : State} {cause : ℕ} {f : ℕ} (hk : Kept w s0 s) (w_plan : w .plan = true) (w_host : w .host = true) (w_events : w .events = true) (w_stiles : w .stiles = true) (w_search : w .search = true) (w_tables : w .tables = true) (w_flash : w .flash = true) (w_fabric : w .fabric = true) (w_egress : w .egress = true) (w_obs : w .obs = true) :
    Kept w s0 (State.flrOne s cause f) := by
  unfold State.flrOne
  try dsimp only
  repeat' first | intro _ | (with_reducible first | assumption | apply kept_fnReleases | apply kept_abortTxn | apply kept_abandonWork)

theorem kept_warmReset {s0 : State} {s : State} (hk : Kept w s0 s) (w_tick : w .tick = true) (w_clock : w .clock = true) (w_ptp : w .ptp = true) (w_plan : w .plan = true) (w_items : w .items = true) (w_host : w .host = true) (w_events : w .events = true) (w_stiles : w .stiles = true) (w_mesh : w .mesh = true) (w_warren : w .warren = true) (w_tiers : w .tiers = true) (w_search : w .search = true) (w_tables : w .tables = true) (w_flash : w .flash = true) (w_fabric : w .fabric = true) (w_egress : w .egress = true) (w_faults : w .faults = true) (w_power : w .power = true) (w_regs : w .regs = true) (w_obs : w .obs = true) :
    Kept w s0 (State.warmReset s) := by
  unfold State.warmReset
  try dsimp only
  repeat' first | intro _ | (with_reducible first | assumption | apply kept_warmState | apply kept_flrOne | apply Kept.ite | apply Kept.foldl | apply Kept.foldl_fst | ((fail_if_success apply Kept.mk_same); first | apply Kept.mk_power))

theorem kept_resetCtrl {s0 : State} {s : State} {v : ℕ} (hk : Kept w s0 s) (w_tick : w .tick = true) (w_clock : w .clock = true) (w_ptp : w .ptp = true) (w_plan : w .plan = true) (w_items : w .items = true) (w_host : w .host = true) (w_events : w .events = true) (w_stiles : w .stiles = true) (w_mesh : w .mesh = true) (w_warren : w .warren = true) (w_tiers : w .tiers = true) (w_search : w .search = true) (w_tables : w .tables = true) (w_flash : w .flash = true) (w_fabric : w .fabric = true) (w_egress : w .egress = true) (w_faults : w .faults = true) (w_power : w .power = true) (w_regs : w .regs = true) (w_obs : w .obs = true) :
    Kept w s0 (State.resetCtrl s v) := by
  unfold State.resetCtrl
  try dsimp only
  repeat' first | intro _ | (with_reducible first | assumption | apply kept_warmReset | apply Kept.ite | apply Kept.foldl | apply Kept.foldl_fst | ((fail_if_success apply Kept.mk_same); first | apply Kept.mk_power))

theorem kept_newNonce {s0 : State} {s : State} (hk : Kept w s0 s) (w_test : w .test = true) (w_free : w .free = true) :
    Kept w s0 (State.newNonce s) := by
  unfold State.newNonce
  try dsimp only
  repeat' first | intro _ | (with_reducible first | assumption | apply kept_tookFresh | apply Kept.ite | apply Kept.foldl | apply Kept.foldl_fst | ((fail_if_success apply Kept.mk_same); first | refine Kept.mk_test ?_ ?_ ?_) | exact ⟨rfl, rfl⟩) | split | (with_reducible first | refine Kept.fst (by assumption) ?_) | exact rfl

theorem kept_lcNo {s0 : State} {s : State} (hk : Kept w s0 s) (w_test : w .test = true) (w_free : w .free = true) :
    Kept w s0 (State.lcNo s) := by
  unfold State.lcNo
  try dsimp only
  repeat' first | intro _ | (with_reducible first | assumption | apply kept_newNonce | apply kept_lcRefuse)

end Sys2Proof.Machine
end

