-- ==== Sys2Proof/Laws/KeptShared2.lean ====
section
/-! SUPPORT. One lemma for each shared operation that gives a state: it keeps what Kept (Safety.lean) says, for the parts that it
writes. Operations stand in the order in which they call one another. -/

set_option linter.unusedTactic false
set_option linter.unusedVariables false

namespace Sys2Proof.Machine

variable {w : Area → Bool}

theorem kept_lcTo {s0 : State} {s : State} {lc : LcState} (hk : Kept w s0 s) (w_test : w .test = true) (w_cycle : w .cycle = true) (w_free : w .free = true) :
    Kept w s0 (State.lcTo s lc) := by
  unfold State.lcTo
  try dsimp only
  repeat' first | intro _ | (with_reducible first | assumption | apply kept_newNonce | apply Kept.ite | apply Kept.foldl | apply Kept.foldl_fst | ((fail_if_success apply Kept.mk_same); first | apply Kept.mk_cycle))

theorem kept_lcErase {s0 : State} {s : State} {lc : LcState} (hk : Kept w s0 s) (w_power : w .power = true) (w_test : w .test = true) (w_cycle : w .cycle = true) (w_free : w .free = true) :
    Kept w s0 (State.lcErase s lc) := by
  unfold State.lcErase
  try dsimp only
  repeat' first | (with_reducible first | exact fun _ => rfl | exact Kept.no (by assumption) | exact id | exact fun _ => ⟨rfl, rfl⟩) | intro _ | (with_reducible first | assumption | apply kept_newNonce | apply Kept.ite | apply Kept.foldl | apply Kept.foldl_fst | ((fail_if_success apply Kept.mk_same); first | apply Kept.mk_all))

theorem kept_lcSignedTo {s0 : State} {s : State} {op : ℕ} {lc : LcState} (hk : Kept w s0 s) (w_power : w .power = true) (w_test : w .test = true) (w_cycle : w .cycle = true) (w_free : w .free = true) :
    Kept w s0 (State.lcSignedTo s op lc) := by
  unfold State.lcSignedTo
  try dsimp only
  repeat' first | intro _ | (with_reducible first | assumption | apply kept_lcErase | apply kept_lcNo | apply Kept.ite)

theorem kept_safe {s0 : State} {s : State} {fail : ℕ} {detail : ℕ} (hk : Kept w s0 s) (w_power : w .power = true) :
    Kept w s0 (State.safe s fail detail) := by
  unfold State.safe
  try dsimp only
  repeat' first | intro _ | (with_reducible first | assumption | apply Kept.ite | apply Kept.foldl | apply Kept.foldl_fst | ((fail_if_success apply Kept.mk_same); first | apply Kept.mk_power))

theorem kept_lcRequest {s0 : State} {s : State} {op : ℕ} (hk : Kept w s0 s) (w_power : w .power = true) (w_test : w .test = true) (w_cycle : w .cycle = true) (w_free : w .free = true) :
    Kept w s0 (State.lcRequest s op) := by
  unfold State.lcRequest
  try dsimp only
  repeat' first | intro _ | (with_reducible first | assumption | apply kept_lcNo | apply kept_newNonce | apply kept_lcTo | apply kept_lcSignedTo | apply kept_safe | apply Kept.ite | apply Kept.foldl | apply Kept.foldl_fst | ((fail_if_success apply Kept.mk_same); first | apply Kept.mk_cycle) | exact ⟨rfl, rfl⟩) | split

theorem kept_putAuth {s0 : State} {s : State} {off : ℕ} {bs : List Byte} (hk : Kept w s0 s) (w_test : w .test = true) :
    Kept w s0 (State.putAuth s off bs) := by
  unfold State.putAuth
  try dsimp only
  repeat' first | intro _ | (with_reducible first | assumption | apply Kept.ite | apply Kept.foldl | apply Kept.foldl_fst | ((fail_if_success apply Kept.mk_same); first | refine Kept.mk_test ?_ ?_ ?_) | exact ⟨rfl, rfl⟩) | split | (with_reducible first | refine Kept.fst (by assumption) ?_) | exact rfl

theorem kept_testPut {s0 : State} {s : State} {o : ℕ} {v : Word64} (hk : Kept w s0 s) (w_power : w .power = true) (w_test : w .test = true) (w_cycle : w .cycle = true) (w_free : w .free = true) :
    Kept w s0 (State.testPut s o v) := by
  unfold State.testPut
  try dsimp only
  repeat' first | intro _ | (with_reducible first | assumption | apply kept_lcRequest | apply kept_lcRefuse | apply kept_putAuth | apply Kept.ite | apply Kept.foldl | apply Kept.foldl_fst | ((fail_if_success apply Kept.mk_same); first | refine Kept.mk_test ?_ ?_ ?_) | exact ⟨rfl, rfl⟩) | split | (with_reducible first | refine Kept.fst (by assumption) ?_) | exact rfl

theorem kept_dbPut {s0 : State} {s : State} {v : Word64} (hk : Kept w s0 s) (w_mesh : w .mesh = true) (w_t1 : w .t1 = true) (w_regs : w .regs = true) :
    Kept w s0 (State.dbPut s v) := by
  unfold State.dbPut
  try dsimp only
  repeat' first | intro _ | (with_reducible first | assumption | apply kept_setTile | apply kept_badAccess | apply Kept.ite | apply Kept.foldl | apply Kept.foldl_fst | ((fail_if_success apply Kept.mk_same); first | refine Kept.mk_t1 ?_ ?_ ?_) | exact ⟨rfl, rfl⟩ | exact id | apply memWrite_wf | apply memWriteBytes_wf | apply memWriteCells_wf | apply memWf_filter | apply memWf_foldl) | split

theorem kept_debugPut {s0 : State} {s : State} {o : ℕ} {v : Word64} (hk : Kept w s0 s) (w_mesh : w .mesh = true) (w_t1 : w .t1 = true) (w_test : w .test = true) (w_regs : w .regs = true) :
    Kept w s0 (State.debugPut s o v) := by
  unfold State.debugPut
  try dsimp only
  repeat' first | intro _ | (with_reducible first | assumption | apply kept_lcRefuse | apply kept_dbPut | apply Kept.ite | apply Kept.foldl | apply Kept.foldl_fst | ((fail_if_success apply Kept.mk_same); first | apply Kept.mk_regs) | exact ⟨rfl, rfl⟩) | split

theorem kept_compIgnore {s0 : State} {s : State} (hk : Kept w s0 s) (w_host : w .host = true) :
    Kept w s0 (State.compIgnore s) := by
  unfold State.compIgnore
  try dsimp only
  repeat' first | intro _ | (with_reducible first | assumption | apply Kept.ite | apply Kept.foldl | apply Kept.foldl_fst | ((fail_if_success apply Kept.mk_same); first | apply Kept.mk_host))

theorem kept_compLoad {s0 : State} {s : State} {domains : List Domain} (hk : Kept w s0 s) (w_host : w .host = true) (w_faults : w .faults = true) :
    Kept w s0 (State.compLoad s domains) := by
  unfold State.compLoad
  try dsimp only
  repeat' first | (with_reducible first | exact fun _ => rfl | exact Kept.no (by assumption) | exact id | exact fun _ => ⟨rfl, rfl⟩) | intro _ | (with_reducible first | assumption | apply Kept.ite | apply Kept.foldl | apply Kept.foldl_fst | ((fail_if_success apply Kept.mk_same); first | apply Kept.mk_host | apply Kept.mk_all))

theorem kept_compPut {s0 : State} {s : State} {o : ℕ} {v : Word64} (hk : Kept w s0 s) (w_host : w .host = true) (w_faults : w .faults = true) :
    Kept w s0 (State.compPut s o v) := by
  unfold State.compPut
  try dsimp only
  repeat' first | intro _ | (with_reducible first | assumption | apply kept_compIgnore | apply kept_compLoad | apply Kept.ite | apply Kept.foldl | apply Kept.foldl_fst | ((fail_if_success apply Kept.mk_same); first | apply Kept.mk_host) | exact ⟨rfl, rfl⟩) | split

theorem kept_bar0Put {s0 : State} {s : State} {off : ℕ} {v : Word64} (hk : Kept w s0 s) (w_tick : w .tick = true) (w_clock : w .clock = true) (w_ptp : w .ptp = true) (w_plan : w .plan = true) (w_items : w .items = true) (w_host : w .host = true) (w_events : w .events = true) (w_stiles : w .stiles = true) (w_mesh : w .mesh = true) (w_warren : w .warren = true) (w_tiers : w .tiers = true) (w_search : w .search = true) (w_tables : w .tables = true) (w_flash : w .flash = true) (w_fabric : w .fabric = true) (w_egress : w .egress = true) (w_t1 : w .t1 = true) (w_faults : w .faults = true) (w_power : w .power = true) (w_test : w .test = true) (w_cycle : w .cycle = true) (w_regs : w .regs = true) (w_obs : w .obs = true) (w_free : w .free = true) :
    Kept w s0 (State.bar0Put s off v) := by
  unfold State.bar0Put
  try dsimp only
  repeat' first | intro _ | (with_reducible first | assumption | apply kept_mbxPutCmd | apply kept_mbxPutArg | apply kept_mbxGo | apply kept_resetCtrl | apply kept_testPut | apply kept_debugPut | apply kept_compPut | apply Kept.ite | apply Kept.foldl | apply Kept.foldl_fst | ((fail_if_success apply Kept.mk_same); first | apply Kept.mk_regs) | exact ⟨rfl, rfl⟩) | split

theorem kept_regAccess {s0 : State} {reg : State → ℕ → Option RegView} {s : State} {off : ℕ} {size : ℕ} (hk : Kept w s0 s) (hreg : ∀ x0 x1, Kept w s0 x0 → KeptV w s0 (reg x0 x1)) :
    KeptQ w s0 (regAccess reg s off size) := by
  unfold regAccess
  try dsimp only
  repeat' first | intro _ | (with_reducible first | assumption | apply hreg | apply Kept.ite | exact KeptQ.none | apply KeptQ.some | apply Kept.foldl | apply Kept.foldl_fst) | split | (with_reducible first | refine Kept.fst (by assumption) ?_ | refine KeptV.of (by assumption) ?_)

theorem kept_returned {s0 : State} {s : State} {v : Word64} (hk : Kept w s0 s) (w_regs : w .regs = true) :
    Kept w s0 (State.returned s v) := by
  unfold State.returned
  try dsimp only
  repeat' first | intro _ | (with_reducible first | assumption | apply Kept.ite | apply Kept.foldl | apply Kept.foldl_fst | ((fail_if_success apply Kept.mk_same); first | apply Kept.mk_regs))

theorem kept_bar0Read {s0 : State} {s : State} {off : ℕ} {size : ℕ} (hk : Kept w s0 s) (w_tick : w .tick = true) (w_host : w .host = true) (w_stiles : w .stiles = true) (w_warren : w .warren = true) (w_flash : w .flash = true) (w_fabric : w .fabric = true) (w_egress : w .egress = true) (w_power : w .power = true) (w_test : w .test = true) (w_regs : w .regs = true) :
    Kept w s0 (State.bar0Read s off size) := by
  unfold State.bar0Read
  try dsimp only
  repeat' first | intro _ | (with_reducible first | assumption | apply kept_regAccess | apply kept_bar0 | apply kept_returned | apply kept_badAccess | apply Kept.ite | exact KeptQ.none | apply KeptQ.some | exact KeptV.none | apply KeptV.some | apply KeptV.ite | apply Kept.foldl | apply Kept.foldl_fst) | split | (with_reducible first | refine Kept.fst (by assumption) ?_ | refine KeptQ.of (by assumption) ?_)

theorem kept_regWrite {s0 : State} {reg : State → ℕ → Option RegView} {put : State → ℕ → Word64 → State} {s : State} {off : ℕ} {size : ℕ} {v : Word64} (hk : Kept w s0 s) (hreg : ∀ x0 x1, Kept w s0 x0 → KeptV w s0 (reg x0 x1)) (hput : ∀ x0 x1 x2, Kept w s0 x0 → Kept w s0 (put x0 x1 x2)) :
    KeptO w s0 (regWrite reg put s off size v) := by
  unfold regWrite
  try dsimp only
  repeat' first | intro _ | (with_reducible first | assumption | apply hreg | apply hput | apply Kept.ite | exact KeptO.none | apply KeptO.some | apply KeptO.ite | apply Kept.foldl | apply Kept.foldl_fst) | split

theorem kept_bar0Write {s0 : State} {s : State} {off : ℕ} {size : ℕ} {v : Word64} (hk : Kept w s0 s) (w_tick : w .tick = true) (w_clock : w .clock = true) (w_ptp : w .ptp = true) (w_plan : w .plan = true) (w_items : w .items = true) (w_host : w .host = true) (w_events : w .events = true) (w_stiles : w .stiles = true) (w_mesh : w .mesh = true) (w_warren : w .warren = true) (w_tiers : w .tiers = true) (w_search : w .search = true) (w_tables : w .tables = true) (w_flash : w .flash = true) (w_fabric : w .fabric = true) (w_egress : w .egress = true) (w_t1 : w .t1 = true) (w_faults : w .faults = true) (w_power : w .power = true) (w_test : w .test = true) (w_cycle : w .cycle = true) (w_regs : w .regs = true) (w_obs : w .obs = true) (w_free : w .free = true) :
    Kept w s0 (State.bar0Write s off size v) := by
  unfold State.bar0Write
  try dsimp only
  repeat' first | intro _ | (with_reducible first | assumption | apply kept_regWrite | apply kept_bar0 | apply kept_bar0Put | apply kept_badAccess | apply Kept.ite | exact KeptO.none | apply KeptO.some | apply KeptO.ite | exact KeptV.none | apply KeptV.some | apply KeptV.ite | apply Kept.foldl | apply Kept.foldl_fst) | split | (with_reducible first | refine Kept.fst (by assumption) ?_ | refine KeptO.of (by assumption) ?_)

theorem kept_refuse {s0 : State} {s : State} {c : Conn} {key : ℕ} {a : ℕ} (hk : Kept w s0 s) (w_events : w .events = true) (w_fabric : w .fabric = true) :
    Kept w s0 (State.refuse s c key a) := by
  unfold State.refuse
  try dsimp only
  repeat' first | intro _ | (with_reducible first | assumption | apply kept_bumpFabric | apply kept_raise | apply kept_setConn | apply Kept.ite)

theorem kept_placeFn {s0 : State} {s : State} {f : ℕ} {a : ℕ} {bs : List Byte} (hk : Kept w s0 s) (w_host : w .host = true) (w_events : w .events = true) (w_stiles : w .stiles = true) (w_mesh : w .mesh = true) (w_t1 : w .t1 = true) :
    Kept w s0 (State.placeFn s f a bs) := by
  unfold State.placeFn
  try dsimp only
  repeat' first | intro _ | (with_reducible first | assumption | apply kept_stileOutside | apply kept_placeBytes | apply Kept.ite | apply Kept.foldl | apply Kept.foldl_fst) | split

theorem kept_tryWrite {s0 : State} {s : State} {c : Conn} {p : LPkt} {offNs : ℕ} (hk : Kept w s0 s) (w_host : w .host = true) (w_events : w .events = true) (w_stiles : w .stiles = true) (w_mesh : w .mesh = true) (w_fabric : w .fabric = true) (w_t1 : w .t1 = true) :
    Kept w s0 (State.tryWrite s c p offNs).1 := by
  unfold State.tryWrite
  try dsimp only
  repeat' first | intro _ | (with_reducible first | assumption | apply kept_placeBytes | apply kept_bumpFabric | apply kept_refuse | apply kept_placeFn | apply Kept.ite | apply Kept.ite_fst | apply Kept.foldl | apply Kept.foldl_fst) | split

theorem kept_placeFinal {s0 : State} {s : State} {n : ℕ} {p : LPkt} {offNs : ℕ} {failed : Bool} (hk : Kept w s0 s) (w_host : w .host = true) (w_events : w .events = true) (w_stiles : w .stiles = true) (w_mesh : w .mesh = true) (w_fabric : w .fabric = true) (w_egress : w .egress = true) (w_t1 : w .t1 = true) :
    Kept w s0 (State.placeFinal s n p offNs failed) := by
  unfold State.placeFinal
  try dsimp only
  repeat' first | intro _ | (with_reducible first | assumption | apply kept_setConn | apply kept_ackConn | apply kept_mapConn | apply kept_tryWrite | apply kept_applySig | apply Kept.ite | apply Kept.ite_fst | apply Kept.foldl | apply Kept.foldl_fst) | split

theorem kept_batchDone {s0 : State} {s : State} {n : ℕ} {k : ℕ} (hk : Kept w s0 s) (w_host : w .host = true) (w_events : w .events = true) (w_stiles : w .stiles = true) (w_mesh : w .mesh = true) (w_fabric : w .fabric = true) (w_egress : w .egress = true) (w_t1 : w .t1 = true) :
    Kept w s0 (State.batchDone s n k) := by
  unfold State.batchDone
  try dsimp only
  repeat' first | intro _ | (with_reducible first | assumption | apply kept_placeFinal | apply Kept.ite | apply Kept.foldl | apply Kept.foldl_fst) | split

theorem kept_faultHold {s0 : State} {s : State} {fail : ℕ} {detail : ℕ} {kind : ℕ} {part : ℕ} (hk : Kept w s0 s) (w_events : w .events = true) (w_power : w .power = true) :
    Kept w s0 (State.faultHold s fail detail kind part) := by
  unfold State.faultHold
  try dsimp only
  repeat' first | intro _ | (with_reducible first | assumption | apply kept_raise | apply Kept.ite | apply Kept.foldl | apply Kept.foldl_fst | ((fail_if_success apply Kept.mk_same); first | apply Kept.mk_power))

theorem kept_nodeFault {s0 : State} {s : State} {row : ℕ} {part : ℕ} (hk : Kept w s0 s) (w_events : w .events = true) (w_power : w .power = true) :
    Kept w s0 (State.nodeFault s row part) := by
  unfold State.nodeFault
  try dsimp only
  repeat' first | intro _ | (with_reducible first | assumption | apply kept_faultHold)

theorem kept_mapSpare {s0 : State} {s : State} {pool : ℕ} {phys : ℕ} {log : ℕ} (hk : Kept w s0 s) (w_events : w .events = true) (w_faults : w .faults = true) :
    Kept w s0 (State.mapSpare s pool phys log) := by
  unfold State.mapSpare
  try dsimp only
  repeat' first | intro _ | (with_reducible first | assumption | apply kept_raise | apply Kept.ite | apply Kept.foldl | apply Kept.foldl_fst | ((fail_if_success apply Kept.mk_same); first | apply Kept.mk_faults))

theorem kept_spareTile {s0 : State} {s : State} {x : ℕ} {p : ℕ} (hk : Kept w s0 s) (w_events : w .events = true) (w_mesh : w .mesh = true) (w_faults : w .faults = true) (w_power : w .power = true) :
    Kept w s0 (State.spareTile s x p) := by
  unfold State.spareTile
  try dsimp only
  repeat' first | intro _ | (with_reducible first | assumption | apply kept_nodeFault | apply kept_mapSpare | apply Kept.ite | apply Kept.foldl | apply Kept.foldl_fst | ((fail_if_success apply Kept.mk_same); first | apply Kept.mk_mesh))

theorem kept_bistPass {s0 : State} {s : State} {tiles : List (ℕ × ℕ)} (hk : Kept w s0 s) (w_events : w .events = true) (w_mesh : w .mesh = true) (w_faults : w .faults = true) (w_power : w .power = true) (w_test : w .test = true) :
    Kept w s0 (State.bistPass s tiles) := by
  unfold State.bistPass
  try dsimp only
  repeat' first | (with_reducible first | exact fun _ => rfl | exact Kept.no (by assumption) | exact id | exact fun _ => ⟨rfl, rfl⟩) | intro _ | (with_reducible first | assumption | apply kept_spareTile | apply Kept.ite | apply Kept.foldl | apply Kept.foldl_fst | ((fail_if_success apply Kept.mk_same); first | apply Kept.mk_all) | exact ⟨rfl, rfl⟩) | split | (with_reducible first | refine Kept.fst (by assumption) ?_) | exact rfl

theorem kept_bistSafe {s0 : State} {s : State} {code : ℕ} {arg : ℕ} (hk : Kept w s0 s) (w_power : w .power = true) (w_test : w .test = true) :
    Kept w s0 (State.bistSafe s code arg) := by
  unfold State.bistSafe
  try dsimp only
  repeat' first | intro _ | (with_reducible first | assumption | apply kept_safe | apply Kept.ite | apply Kept.foldl | apply Kept.foldl_fst | ((fail_if_success apply Kept.mk_same); first | refine Kept.mk_test ?_ ?_ ?_) | exact ⟨rfl, rfl⟩) | split | (with_reducible first | refine Kept.fst (by assumption) ?_) | exact rfl

theorem kept_bistStops {s0 : State} {s : State} {code : ℕ} {arg : ℕ} (hk : Kept w s0 s) (w_power : w .power = true) (w_test : w .test = true) :
    Kept w s0 (State.bistStops s code arg) := by
  unfold State.bistStops
  try dsimp only
  repeat' first | (with_reducible first | exact fun _ => rfl | exact Kept.no (by assumption) | exact id | exact fun _ => ⟨rfl, rfl⟩) | intro _ | (with_reducible first | assumption | apply Kept.ite | apply Kept.foldl | apply Kept.foldl_fst | ((fail_if_success apply Kept.mk_same); first | apply Kept.mk_all) | exact ⟨rfl, rfl⟩) | split | (with_reducible first | refine Kept.fst (by assumption) ?_) | exact rfl

theorem kept_setJob {s0 : State} {s : State} {j : ShardJob} (hk : Kept w s0 s) (w_search : w .search = true) :
    Kept w s0 (State.setJob s j) := by
  unfold State.setJob
  try dsimp only
  repeat' first | intro _ | (with_reducible first | assumption | apply Kept.ite | apply Kept.foldl | apply Kept.foldl_fst | ((fail_if_success apply Kept.mk_same); first | apply Kept.mk_search))

theorem kept_rescore {s0 : State} {s : State} {x : Index} {j : ShardJob} {i : ℕ} {v : FullVec} (hk : Kept w s0 s) (w_search : w .search = true) (w_flash : w .flash = true) :
    Kept w s0 (State.rescore s x j i v) := by
  unfold State.rescore
  try dsimp only
  repeat' first | intro _ | (with_reducible first | assumption | apply kept_setJob | apply Kept.ite | apply Kept.foldl | apply Kept.foldl_fst | ((fail_if_success apply Kept.mk_same); first | apply Kept.mk_flash))

theorem kept_readMissed {s0 : State} {s : State} {r : FlashRead} (hk : Kept w s0 s) (w_search : w .search = true) (w_flash : w .flash = true) :
    Kept w s0 (State.readMissed s r) := by
  unfold State.readMissed
  try dsimp only
  repeat' first | intro _ | (with_reducible first | assumption | apply kept_setJob | apply Kept.ite | apply Kept.foldl | apply Kept.foldl_fst | ((fail_if_success apply Kept.mk_same); first | apply Kept.mk_flash) | exact ⟨rfl, rfl⟩) | split

theorem kept_uncorrectable {s0 : State} {s : State} {p : FlashPlace} (hk : Kept w s0 s) (w_events : w .events = true) (w_flash : w .flash = true) :
    Kept w s0 (State.uncorrectable s p) := by
  unfold State.uncorrectable
  try dsimp only
  repeat' first | intro _ | (with_reducible first | assumption | apply kept_setDie | apply kept_badBlock | apply kept_dieFails | apply Kept.ite | apply Kept.foldl | apply Kept.foldl_fst | ((fail_if_success apply Kept.mk_same); first | apply Kept.mk_flash))

theorem kept_readBad {s0 : State} {s : State} {p : FlashPlace} (hk : Kept w s0 s) (w_events : w .events = true) (w_flash : w .flash = true) :
    Kept w s0 (State.readBad s p) := by
  unfold State.readBad
  try dsimp only
  repeat' first | intro _ | (with_reducible first | assumption | apply kept_askRecon | apply kept_uncorrectable | apply Kept.ite)

theorem kept_blockHere {s0 : State} {s : State} {r : FlashRead} {a2 : RerankWait} (hk : Kept w s0 s) (w_events : w .events = true) (w_search : w .search = true) (w_flash : w .flash = true) :
    Kept w s0 (State.blockHere s r a2) := by
  unfold State.blockHere
  try dsimp only
  repeat' first | intro _ | (with_reducible first | assumption | apply kept_rescore | apply kept_readMissed | apply kept_readBad | apply Kept.ite | apply Kept.foldl | apply Kept.foldl_fst | apply Kept.foldl_L | apply Kept.foldl_G) | split

theorem kept_boardLanded {s0 : State} {s : State} {tile : ℕ} {id : ℕ} (hk : Kept w s0 s) (w_mesh : w .mesh = true) :
    Kept w s0 (State.boardLanded s tile id) := by
  unfold State.boardLanded
  try dsimp only
  repeat' first | intro _ | (with_reducible first | assumption | apply kept_setTile)

theorem kept_boardWrite {s0 : State} {s : State} {i : ℕ} {v : Word32} (hk : Kept w s0 s) (w_test : w .test = true) :
    Kept w s0 (State.boardWrite s i v) := by
  unfold State.boardWrite
  try dsimp only
  repeat' first | intro _ | (with_reducible first | assumption | apply kept_lcRefuse | apply Kept.ite | apply Kept.foldl | apply Kept.foldl_fst | ((fail_if_success apply Kept.mk_same); first | refine Kept.mk_test ?_ ?_ ?_) | exact ⟨rfl, rfl⟩) | split | (with_reducible first | refine Kept.fst (by assumption) ?_) | exact rfl

theorem kept_identify {s0 : State} {s : State} {found : List (ℕ × ℕ × ℕ)} {d : ℕ} (hk : Kept w s0 s) (w_events : w .events = true) (w_flash : w .flash = true) :
    Kept w s0 (State.identify s found d) := by
  unfold State.identify
  try dsimp only
  repeat' first | intro _ | (with_reducible first | assumption | apply kept_setDie | apply kept_raiseNamed | apply Kept.ite | apply Kept.foldl | apply Kept.foldl_fst) | split

theorem kept_bootStep {s0 : State} {s : State} {step : ℕ} (hk : Kept w s0 s) (w_power : w .power = true) :
    Kept w s0 (State.bootStep s step) := by
  unfold State.bootStep
  try dsimp only
  repeat' first | intro _ | (with_reducible first | assumption | apply Kept.ite | apply Kept.foldl | apply Kept.foldl_fst | ((fail_if_success apply Kept.mk_same); first | apply Kept.mk_power))

theorem kept_replay {s0 : State} {s : State} (hk : Kept w s0 s) (w_flash : w .flash = true) :
    Kept w s0 (State.replay s) := by
  unfold State.replay
  try dsimp only
  repeat' first | intro _ | (with_reducible first | assumption | apply kept_jot | apply Kept.ite | apply Kept.foldl | apply Kept.foldl_fst | ((fail_if_success apply Kept.mk_same); first | apply Kept.mk_flash))

theorem kept_noJournal {s0 : State} {s : State} (hk : Kept w s0 s) (w_events : w .events = true) (w_tables : w .tables = true) (w_flash : w .flash = true) (w_power : w .power = true) :
    Kept w s0 (State.noJournal s) := by
  unfold State.noJournal
  try dsimp only
  repeat' first | (with_reducible first | exact fun _ => rfl | exact Kept.no (by assumption) | exact id | exact fun _ => ⟨rfl, rfl⟩) | intro _ | (with_reducible first | assumption | apply kept_raiseNamed | apply Kept.ite | apply Kept.foldl | apply Kept.foldl_fst | ((fail_if_success apply Kept.mk_same); first | apply Kept.mk_all))

theorem kept_bootFlash {s0 : State} {s : State} {dies : List (ℕ × ℕ × ℕ)} {journal : Bool} (hk : Kept w s0 s) (w_events : w .events = true) (w_tables : w .tables = true) (w_flash : w .flash = true) (w_power : w .power = true) :
    Kept w s0 (State.bootFlash s dies journal) := by
  unfold State.bootFlash
  try dsimp only
  repeat' first | intro _ | (with_reducible first | assumption | apply kept_identify | apply kept_bootStep | apply kept_replay | apply kept_noJournal | apply Kept.ite | apply Kept.foldl)

theorem kept_bootLock {s0 : State} {s : State} (hk : Kept w s0 s) (w_tick : w .tick = true) (w_clock : w .clock = true) (w_events : w .events = true) (w_power : w .power = true) :
    Kept w s0 (State.bootLock s) := by
  unfold State.bootLock
  try dsimp only
  repeat' first | (with_reducible first | exact fun _ => rfl | exact Kept.no (by assumption) | exact id | exact fun _ => ⟨rfl, rfl⟩) | intro _ | (with_reducible first | assumption | apply kept_raiseNamed | apply Kept.ite | apply Kept.foldl | apply Kept.foldl_fst | ((fail_if_success apply Kept.mk_same); first | apply Kept.mk_power | apply Kept.mk_all) | exact ⟨rfl, rfl⟩) | split

theorem kept_bootPlan {s0 : State} {s : State} (hk : Kept w s0 s) (w_plan : w .plan = true) :
    Kept w s0 (State.bootPlan s) := by
  unfold State.bootPlan
  try dsimp only
  repeat' first | intro _ | (with_reducible first | assumption | apply Kept.ite | apply Kept.foldl | apply Kept.foldl_fst | ((fail_if_success apply Kept.mk_same); first | apply Kept.mk_plan))

theorem kept_bootRom {s0 : State} {s : State} {primary : Bool} {twin : Bool} (hk : Kept w s0 s) (w_events : w .events = true) (w_power : w .power = true) (w_free : w .free = true) :
    Kept w s0 (State.bootRom s primary twin) := by
  unfold State.bootRom
  try dsimp only
  repeat' first | intro _ | (with_reducible first | assumption | apply kept_safe | apply kept_bootStep | apply kept_tookFresh | apply kept_raise | apply Kept.ite | apply Kept.foldl | apply Kept.foldl_fst | ((fail_if_success apply Kept.mk_same); first | apply Kept.mk_power))

theorem kept_bootUnit {s0 : State} {s : State} {stack : ℕ} {u : ℕ} (hk : Kept w s0 s) (w_events : w .events = true) (w_warren : w .warren = true) (w_faults : w .faults = true) :
    Kept w s0 (State.bootUnit s stack u) := by
  unfold State.bootUnit
  try dsimp only
  repeat' first | intro _ | (with_reducible first | assumption | apply kept_setStack | apply kept_mapSpare | apply Kept.ite | apply Kept.foldl | apply Kept.foldl_fst) | split

theorem kept_bootSram {s0 : State} {s : State} {array : Option ℕ} {tiles : List (ℕ × ℕ)} {units : List (ℕ × ℕ)} (hk : Kept w s0 s) (w_events : w .events = true) (w_mesh : w .mesh = true) (w_warren : w .warren = true) (w_faults : w .faults = true) (w_power : w .power = true) (w_test : w .test = true) (w_free : w .free = true) :
    Kept w s0 (State.bootSram s array tiles units) := by
  unfold State.bootSram
  try dsimp only
  repeat' first | intro _ | (with_reducible first | assumption | apply kept_safe | apply kept_tookFresh | apply kept_spareTile | apply kept_bootUnit | apply kept_bootStep | apply Kept.ite | apply Kept.foldl | apply Kept.foldl_fst | ((fail_if_success apply Kept.mk_same); first | refine Kept.mk_test ?_ ?_ ?_) | exact ⟨rfl, rfl⟩) | split | (with_reducible first | refine Kept.fst (by assumption) ?_) | exact rfl

theorem kept_bootStacks {s0 : State} {s : State} {units : List (ℕ × ℕ)} {whole : Option ℕ} (hk : Kept w s0 s) (w_events : w .events = true) (w_warren : w .warren = true) (w_faults : w .faults = true) (w_power : w .power = true) :
    Kept w s0 (State.bootStacks s units whole) := by
  unfold State.bootStacks
  try dsimp only
  repeat' first | intro _ | (with_reducible first | assumption | apply kept_safe | apply kept_fence | apply kept_bootUnit | apply kept_bootStep | apply Kept.ite | apply Kept.foldl | apply Kept.foldl_fst) | split

theorem kept_spareWire {s0 : State} {s : State} {x : ℕ} {p : ℕ} {d : ℕ} (hk : Kept w s0 s) (w_events : w .events = true) (w_mesh : w .mesh = true) (w_faults : w .faults = true) (w_power : w .power = true) :
    Kept w s0 (State.spareWire s x p d) := by
  unfold State.spareWire
  try dsimp only
  repeat' first | intro _ | (with_reducible first | assumption | apply kept_nodeFault | apply kept_mapSpare | apply Kept.ite | apply Kept.foldl | apply Kept.foldl_fst | ((fail_if_success apply Kept.mk_same); first | apply Kept.mk_mesh))

theorem kept_pumpRefill {s0 : State} {s : State} {stack : ℕ} {a2 : ℕ} (hk : Kept w s0 s) (w_warren : w .warren = true) (w_fabric : w .fabric = true) (w_egress : w .egress = true) :
    Kept w s0 (State.pumpRefill s stack a2) := by
  induction a2 generalizing s with
  | zero => exact hk
  | succ fuel ih =>
    unfold State.pumpRefill
    try dsimp only
    repeat' first | intro _ | (with_reducible first | assumption | apply ih | apply kept_setConn | apply kept_setStack | apply kept_sendStream | apply Kept.ite | apply Kept.foldl | apply Kept.foldl_fst) | split

theorem kept_redirectStarts {s0 : State} {s : State} {r : Redirect} (hk : Kept w s0 s) (w_events : w .events = true) :
    Kept w s0 (State.redirectStarts s r) := by
  unfold State.redirectStarts
  try dsimp only
  repeat' first | intro _ | (with_reducible first | assumption | apply kept_raise)

theorem kept_redirect {s0 : State} {s : State} {ch : ℕ} (hk : Kept w s0 s) (w_events : w .events = true) (w_faults : w .faults = true) :
    Kept w s0 (State.redirect s ch) := by
  unfold State.redirect
  try dsimp only
  repeat' first | intro _ | (with_reducible first | assumption | apply kept_redirectStarts | apply Kept.ite | apply Kept.foldl | apply Kept.foldl_fst | ((fail_if_success apply Kept.mk_same); first | apply Kept.mk_faults))

theorem kept_spareUnit {s0 : State} {s : State} {stack : ℕ} {u : ℕ} (hk : Kept w s0 s) (w_events : w .events = true) (w_warren : w .warren = true) (w_fabric : w .fabric = true) (w_egress : w .egress = true) (w_faults : w .faults = true) :
    Kept w s0 (State.spareUnit s stack u) := by
  unfold State.spareUnit
  try dsimp only
  repeat' first | intro _ | (with_reducible first | assumption | apply kept_setStack | apply kept_setBurrow | apply kept_mapSpare | apply kept_pumpRefill | apply kept_redirect | apply Kept.ite | apply Kept.foldl | apply Kept.foldl_fst) | split

theorem kept_decidePart {s0 : State} {s : State} {p : Part} (hk : Kept w s0 s) (w_events : w .events = true) (w_mesh : w .mesh = true) (w_warren : w .warren = true) (w_fabric : w .fabric = true) (w_egress : w .egress = true) (w_faults : w .faults = true) (w_power : w .power = true) :
    Kept w s0 (State.decidePart s p) := by
  unfold State.decidePart
  try dsimp only
  repeat' first | intro _ | (with_reducible first | assumption | apply kept_spareTile | apply kept_spareWire | apply kept_spareUnit | apply Kept.ite | apply Kept.foldl | apply Kept.foldl_fst) | split

theorem kept_remapStile {s0 : State} {s : State} {i : ℕ} (hk : Kept w s0 s) (w_events : w .events = true) (w_stiles : w .stiles = true) (w_faults : w .faults = true) (w_power : w .power = true) :
    Kept w s0 (State.remapStile s i) := by
  unfold State.remapStile
  try dsimp only
  repeat' first | (with_reducible first | exact fun _ => rfl | exact Kept.no (by assumption) | exact id | exact fun _ => ⟨rfl, rfl⟩) | intro _ | (with_reducible first | assumption | apply kept_setStile | apply kept_raiseNamed | apply kept_raise | apply kept_faultHold | apply Kept.ite | apply Kept.foldl | apply Kept.foldl_fst | ((fail_if_success apply Kept.mk_same); first | apply Kept.mk_faults | apply Kept.mk_stiles))

theorem kept_remapStiles {s0 : State} {s : State} (hk : Kept w s0 s) (w_events : w .events = true) (w_stiles : w .stiles = true) (w_faults : w .faults = true) (w_power : w .power = true) :
    Kept w s0 (State.remapStiles s) := by
  unfold State.remapStiles
  try dsimp only
  repeat' first | intro _ | (with_reducible first | assumption | apply kept_remapStile | apply Kept.ite | apply Kept.foldl | apply Kept.foldl_fst | ((fail_if_success apply Kept.mk_same); first | apply Kept.mk_stiles))

theorem kept_startRebuilds {s0 : State} {s : State} (hk : Kept w s0 s) (w_flash : w .flash = true) :
    Kept w s0 (State.startRebuilds s) := by
  unfold State.startRebuilds
  try dsimp only
  repeat' first | intro _ | (with_reducible first | assumption | apply Kept.ite | apply Kept.foldl | apply Kept.foldl_fst | ((fail_if_success apply Kept.mk_same); first | apply Kept.mk_flash))

theorem kept_spareMapping {s0 : State} {s : State} (hk : Kept w s0 s) (w_events : w .events = true) (w_stiles : w .stiles = true) (w_mesh : w .mesh = true) (w_warren : w .warren = true) (w_flash : w .flash = true) (w_fabric : w .fabric = true) (w_egress : w .egress = true) (w_faults : w .faults = true) (w_power : w .power = true) :
    Kept w s0 (State.spareMapping s) := by
  unfold State.spareMapping
  try dsimp only
  repeat' first | intro _ | (with_reducible first | assumption | apply kept_decidePart | apply kept_remapStiles | apply kept_startRebuilds | apply Kept.ite | apply Kept.foldl | apply Kept.foldl_fst | ((fail_if_success apply Kept.mk_same); first | apply Kept.mk_faults))

theorem kept_traceTick {s0 : State} {s : State} (hk : Kept w s0 s) (w_obs : w .obs = true) :
    Kept w s0 (State.traceTick s) := by
  unfold State.traceTick
  try dsimp only
  repeat' first | intro _ | (with_reducible first | assumption | apply kept_traceRec | apply Kept.ite)

theorem kept_stampSince {s0 : State} {s : State} (hk : Kept w s0 s) (w_obs : w .obs = true) :
    Kept w s0 (State.stampSince s) := by
  unfold State.stampSince
  try dsimp only
  repeat' first | intro _ | (with_reducible first | assumption | apply Kept.ite | apply Kept.foldl | apply Kept.foldl_fst | ((fail_if_success apply Kept.mk_same); first | apply Kept.mk_obs))

theorem kept_newTick {s0 : State} {s : State} (hk : Kept w s0 s) (w_host : w .host = true) (w_tables : w .tables = true) (w_flash : w .flash = true) (w_faults : w .faults = true) :
    Kept w s0 (State.newTick s) := by
  unfold State.newTick
  try dsimp only
  repeat' first | (with_reducible first | exact fun _ => rfl | exact Kept.no (by assumption) | exact id | exact fun _ => ⟨rfl, rfl⟩) | intro _ | (with_reducible first | assumption | apply Kept.ite | apply Kept.foldl | apply Kept.foldl_fst | ((fail_if_success apply Kept.mk_same); first | apply Kept.mk_all))

theorem kept_wakeStart {s0 : State} {s : State} (hk : Kept w s0 s) (w_events : w .events = true) (w_power : w .power = true) :
    Kept w s0 (State.wakeStart s) := by
  unfold State.wakeStart
  try dsimp only
  repeat' first | intro _ | (with_reducible first | assumption | apply kept_raise | apply Kept.ite | apply Kept.foldl | apply Kept.foldl_fst | ((fail_if_success apply Kept.mk_same); first | apply Kept.mk_power))

theorem kept_startRejoin {s0 : State} {s : State} {since : Word64} (hk : Kept w s0 s) (w_fabric : w .fabric = true) (w_egress : w .egress = true) (w_faults : w .faults = true) :
    Kept w s0 (State.startRejoin s since) := by
  unfold State.startRejoin
  try dsimp only
  repeat' first | intro _ | (with_reducible first | assumption | apply kept_sendPlan | apply Kept.ite | apply Kept.foldl | apply Kept.foldl_fst | ((fail_if_success apply Kept.mk_same); first | apply Kept.mk_faults) | exact ⟨rfl, rfl⟩) | split

theorem kept_startSeeding {s0 : State} {s : State} (hk : Kept w s0 s) (w_faults : w .faults = true) :
    Kept w s0 (State.startSeeding s) := by
  unfold State.startSeeding
  try dsimp only
  repeat' first | intro _ | (with_reducible first | assumption | apply Kept.ite | apply Kept.foldl | apply Kept.foldl_fst | ((fail_if_success apply Kept.mk_same); first | apply Kept.mk_faults))

theorem kept_startSwath {s0 : State} {s : State} (hk : Kept w s0 s) (w_tick : w .tick = true) (w_fabric : w .fabric = true) (w_egress : w .egress = true) (w_faults : w .faults = true) (w_power : w .power = true) :
    Kept w s0 (State.startSwath s) := by
  unfold State.startSwath
  try dsimp only
  repeat' first | (with_reducible first | exact fun _ => rfl | exact Kept.no (by assumption) | exact id | exact fun _ => ⟨rfl, rfl⟩) | intro _ | (with_reducible first | assumption | apply kept_startRejoin | apply kept_startSeeding | apply Kept.ite | apply Kept.foldl | apply Kept.foldl_fst | ((fail_if_success apply Kept.mk_same); first | apply Kept.mk_power | apply Kept.mk_all))

theorem kept_planStile {s0 : State} {s : State} {r : AllocRec} (hk : Kept w s0 s) (w_stiles : w .stiles = true) :
    Kept w s0 (State.planStile s r) := by
  unfold State.planStile
  try dsimp only
  repeat' first | intro _ | (with_reducible first | assumption | apply kept_setStile | apply Kept.ite)

theorem kept_swapStiles {s0 : State} {s : State} {img : List Byte} (hk : Kept w s0 s) (w_stiles : w .stiles = true) :
    Kept w s0 (State.swapStiles s img) := by
  unfold State.swapStiles
  try dsimp only
  repeat' first | intro _ | (with_reducible first | assumption | apply kept_planStile | apply kept_quarantine | apply Kept.ite | apply Kept.foldl)

theorem kept_swapPlan {s0 : State} {s : State} (hk : Kept w s0 s) (w_plan : w .plan = true) (w_stiles : w .stiles = true) (w_warren : w .warren = true) :
    Kept w s0 (State.swapPlan s) := by
  unfold State.swapPlan
  try dsimp only
  repeat' first | intro _ | (with_reducible first | assumption | apply kept_swapStiles | apply kept_setBurrow | apply Kept.ite | apply Kept.foldl | apply Kept.foldl_fst | ((fail_if_success apply Kept.mk_same); first | apply Kept.mk_plan) | exact ⟨rfl, rfl⟩) | split

theorem kept_resetPlanned {s0 : State} {s : State} (hk : Kept w s0 s) (w_stiles : w .stiles = true) :
    Kept w s0 (State.resetPlanned s) := by
  unfold State.resetPlanned
  try dsimp only
  repeat' first | intro _ | (with_reducible first | assumption | apply Kept.ite | apply Kept.foldl | apply Kept.foldl_fst | ((fail_if_success apply Kept.mk_same); first | apply Kept.mk_stiles))

theorem kept_flrStiles {s0 : State} {s : State} (hk : Kept w s0 s) (w_stiles : w .stiles = true) :
    Kept w s0 (State.flrStiles s) := by
  unfold State.flrStiles
  try dsimp only
  repeat' first | intro _ | (with_reducible first | assumption | apply kept_quarantine | apply Kept.ite | apply Kept.foldl | apply Kept.foldl_fst | ((fail_if_success apply Kept.mk_same); first | apply Kept.mk_stiles))

theorem kept_keepSnapshots {s0 : State} {s : State} (hk : Kept w s0 s) (w_search : w .search = true) :
    Kept w s0 (State.keepSnapshots s) := by
  unfold State.keepSnapshots
  try dsimp only
  repeat' first | intro _ | (with_reducible first | assumption | apply Kept.ite | apply Kept.foldl | apply Kept.foldl_fst | ((fail_if_success apply Kept.mk_same); first | apply Kept.mk_search))

theorem kept_shedTicks {s0 : State} {s : State} (hk : Kept w s0 s) (w_obs : w .obs = true) :
    Kept w s0 (State.shedTicks s) := by
  unfold State.shedTicks
  try dsimp only
  repeat' first | intro _ | (with_reducible first | assumption | apply kept_classBump | apply Kept.ite | apply Kept.foldl)

theorem kept_shedLess {s0 : State} {s : State} {a1 : ℕ} (hk : Kept w s0 s) (w_events : w .events = true) (w_tiers : w .tiers = true) :
    Kept w s0 (State.shedLess s a1) := by
  induction a1 generalizing s with
  | zero => exact hk
  | succ n ih =>
    unfold State.shedLess
    try dsimp only
    repeat' first | intro _ | (with_reducible first | assumption | apply ih | apply kept_raiseNamed | apply Kept.ite | apply Kept.foldl | apply Kept.foldl_fst | ((fail_if_success apply Kept.mk_same); first | apply Kept.mk_tiers) | exact ⟨rfl, rfl⟩) | split

theorem kept_shedMore {s0 : State} {s : State} {a1 : List ℕ} (hk : Kept w s0 s) (w_events : w .events = true) (w_tiers : w .tiers = true) :
    Kept w s0 (State.shedMore s a1) := by
  induction a1 generalizing s with
  | nil => exact hk
  | cons x r ih =>
    unfold State.shedMore
    try dsimp only
    repeat' first | intro _ | (with_reducible first | assumption | apply ih | apply kept_raiseNamed | apply Kept.ite | apply Kept.foldl | apply Kept.foldl_fst | ((fail_if_success apply Kept.mk_same); first | apply Kept.mk_tiers))

theorem kept_shedding {s0 : State} {s : State} (hk : Kept w s0 s) (w_events : w .events = true) (w_tiers : w .tiers = true) :
    Kept w s0 (State.shedding s) := by
  unfold State.shedding
  try dsimp only
  repeat' first | intro _ | (with_reducible first | assumption | apply kept_shedLess | apply kept_shedMore | apply kept_raiseNamed | apply Kept.ite | apply Kept.foldl | apply Kept.foldl_fst | ((fail_if_success apply Kept.mk_same); first | apply Kept.mk_tiers) | exact ⟨rfl, rfl⟩) | split

theorem kept_setCapacity {s0 : State} {s : State} (hk : Kept w s0 s) (w_tiers : w .tiers = true) :
    Kept w s0 (State.setCapacity s) := by
  unfold State.setCapacity
  try dsimp only
  repeat' first | intro _ | (with_reducible first | assumption | apply Kept.ite | apply Kept.foldl | apply Kept.foldl_fst | ((fail_if_success apply Kept.mk_same); first | apply Kept.mk_tiers))

theorem kept_linkCheck {s0 : State} {s : State} (hk : Kept w s0 s) (w_host : w .host = true) (w_events : w .events = true) (w_free : w .free = true) :
    Kept w s0 (State.linkCheck s) := by
  unfold State.linkCheck
  try dsimp only
  repeat' first | intro _ | (with_reducible first | assumption | apply kept_tookFresh | apply kept_raise | apply Kept.ite | apply Kept.foldl | apply Kept.foldl_fst | ((fail_if_success apply Kept.mk_same); first | apply Kept.mk_host))

theorem kept_tellSecondLoss {s0 : State} {s : State} (hk : Kept w s0 s) (w_events : w .events = true) :
    Kept w s0 (State.tellSecondLoss s) := by
  unfold State.tellSecondLoss
  try dsimp only
  repeat' first | intro _ | (with_reducible first | assumption | apply kept_raiseNamed | apply Kept.ite | apply Kept.foldl)

theorem kept_redirectBoundary {s0 : State} {s : State} (hk : Kept w s0 s) (w_events : w .events = true) (w_faults : w .faults = true) :
    Kept w s0 (State.redirectBoundary s) := by
  unfold State.redirectBoundary
  try dsimp only
  repeat' first | intro _ | (with_reducible first | assumption | apply kept_redirectStarts | apply kept_raise | apply Kept.ite | apply Kept.foldl | apply Kept.foldl_fst | ((fail_if_success apply Kept.mk_same); first | apply Kept.mk_faults))

theorem kept_setFront {s0 : State} {s : State} {q : FrontQuery} (hk : Kept w s0 s) (w_search : w .search = true) :
    Kept w s0 (State.setFront s q) := by
  unfold State.setFront
  try dsimp only
  repeat' first | intro _ | (with_reducible first | assumption | apply Kept.ite | apply Kept.foldl | apply Kept.foldl_fst | ((fail_if_success apply Kept.mk_same); first | apply Kept.mk_search))

theorem kept_sendAsk {s0 : State} {s : State} {a : Ask} {ring : ℕ} {node : ℕ} (hk : Kept w s0 s) (w_search : w .search = true) (w_fabric : w .fabric = true) (w_egress : w .egress = true) :
    Kept w s0 (State.sendAsk s a ring node) := by
  unfold State.sendAsk
  try dsimp only
  repeat' first | intro _ | (with_reducible first | assumption | apply kept_addJob | apply kept_sendPlan | apply Kept.ite)

theorem kept_reissue {s0 : State} {s : State} {q : FrontQuery} {shard : ℕ} (hk : Kept w s0 s) (w_search : w .search = true) (w_fabric : w .fabric = true) (w_egress : w .egress = true) (w_obs : w .obs = true) :
    Kept w s0 (State.reissue s q shard) := by
  unfold State.reissue
  try dsimp only
  repeat' first | intro _ | (with_reducible first | assumption | apply kept_classBump | apply kept_setFront | apply kept_sendAsk | apply Kept.ite | apply Kept.foldl | apply Kept.foldl_fst) | split

theorem kept_reissueAll {s0 : State} {s : State} {q : FrontQuery} {keep : ℕ × ℕ × Word64 × Option ShardRes → Bool} (hk : Kept w s0 s) (w_search : w .search = true) (w_fabric : w .fabric = true) (w_egress : w .egress = true) (w_obs : w .obs = true) :
    Kept w s0 (State.reissueAll s q keep) := by
  unfold State.reissueAll
  try dsimp only
  repeat' first | intro _ | (with_reducible first | assumption | apply kept_reissue | apply Kept.ite | apply Kept.foldl | apply Kept.foldl_fst) | split

theorem kept_reissueLost {s0 : State} {s : State} (hk : Kept w s0 s) (w_search : w .search = true) (w_fabric : w .fabric = true) (w_egress : w .egress = true) (w_obs : w .obs = true) :
    Kept w s0 (State.reissueLost s) := by
  unfold State.reissueLost
  try dsimp only
  repeat' first | intro _ | (with_reducible first | assumption | apply kept_reissueAll | apply Kept.ite | apply Kept.foldl)

theorem kept_domainBoundary {s0 : State} {s : State} {d : Domain} (hk : Kept w s0 s) (w_events : w .events = true) (w_faults : w .faults = true) :
    Kept w s0 (State.domainBoundary s d) := by
  unfold State.domainBoundary
  try dsimp only
  repeat' first | intro _ | (with_reducible first | assumption | apply kept_raise | apply Kept.ite | apply Kept.foldl | apply Kept.foldl_fst | ((fail_if_success apply Kept.mk_same); first | apply Kept.mk_faults))

theorem kept_routing {s0 : State} {s : State} (hk : Kept w s0 s) (w_events : w .events = true) (w_faults : w .faults = true) :
    Kept w s0 (State.routing s) := by
  unfold State.routing
  try dsimp only
  repeat' first | intro _ | (with_reducible first | assumption | apply kept_domainBoundary | apply Kept.ite | apply Kept.foldl)

theorem kept_partnerWatch {s0 : State} {s : State} (hk : Kept w s0 s) (w_faults : w .faults = true) :
    Kept w s0 (State.partnerWatch s) := by
  unfold State.partnerWatch
  try dsimp only
  repeat' first | intro _ | (with_reducible first | assumption | apply Kept.ite | apply Kept.foldl | apply Kept.foldl_fst | ((fail_if_success apply Kept.mk_same); first | apply Kept.mk_faults) | exact ⟨rfl, rfl⟩) | split

theorem kept_haltRing {s0 : State} {s : State} {f : ℕ} {r : ℕ} {reason : ℕ} (hk : Kept w s0 s) (w_host : w .host = true) (w_events : w .events = true) :
    Kept w s0 (State.haltRing s f r reason) := by
  unfold State.haltRing
  try dsimp only
  repeat' first | intro _ | (with_reducible first | assumption | apply kept_setRing | apply kept_raise)

theorem kept_ringBoundary {s0 : State} {s : State} {f : ℕ} {r : ℕ} (hk : Kept w s0 s) (w_host : w .host = true) (w_events : w .events = true) :
    Kept w s0 (State.ringBoundary s f r) := by
  unfold State.ringBoundary
  try dsimp only
  repeat' first | intro _ | (with_reducible first | assumption | apply kept_haltRing | apply kept_setRing | apply Kept.ite | apply Kept.foldl | apply Kept.foldl_fst) | split

theorem kept_fnBoundary {s0 : State} {s : State} {f : ℕ} (hk : Kept w s0 s) (w_host : w .host = true) (w_events : w .events = true) :
    Kept w s0 (State.fnBoundary s f) := by
  unfold State.fnBoundary
  try dsimp only
  repeat' first | intro _ | (with_reducible first | assumption | apply kept_ringBoundary | apply kept_setFn | apply kept_raise | apply Kept.ite | apply Kept.foldl)

theorem kept_connBoundary {s0 : State} {s : State} {n : ℕ} (hk : Kept w s0 s) (w_fabric : w .fabric = true) (w_egress : w .egress = true) :
    Kept w s0 (State.connBoundary s n) := by
  unfold State.connBoundary
  try dsimp only
  repeat' first | intro _ | (with_reducible first | assumption | apply kept_connect | apply kept_setConn | apply kept_releaseConn | apply kept_sendControl | apply Kept.ite | apply Kept.foldl | apply Kept.foldl_fst) | split

theorem kept_connsBoundary {s0 : State} {s : State} (hk : Kept w s0 s) (w_fabric : w .fabric = true) (w_egress : w .egress = true) :
    Kept w s0 (State.connsBoundary s) := by
  unfold State.connsBoundary
  try dsimp only
  repeat' first | intro _ | (with_reducible first | assumption | apply kept_connBoundary | apply Kept.ite | apply Kept.foldl)

theorem kept_setSb {s0 : State} {s : State} {x : Superblock} (hk : Kept w s0 s) (w_flash : w .flash = true) :
    Kept w s0 (State.setSb s x) := by
  unfold State.setSb
  try dsimp only
  repeat' first | intro _ | (with_reducible first | assumption | apply Kept.ite | apply Kept.foldl | apply Kept.foldl_fst | ((fail_if_success apply Kept.mk_same); first | apply Kept.mk_flash))

theorem kept_moveSb {s0 : State} {s : State} {a : Superblock} {b : Superblock} (hk : Kept w s0 s) (w_flash : w .flash = true) (w_t1 : w .t1 = true) :
    Kept w s0 (State.moveSb s a b) := by
  unfold State.moveSb
  dsimp only
  with_reducible apply kept_jot
  with_reducible apply kept_setSb
  with_reducible apply kept_setSb
  with_reducible apply Kept.mk_all
  case m1 => exact fun h => memWf_foldl (fun m g hm => memWf_foldl (fun m t hm => memWriteBytes_wf hm _ _) hm) h
  all_goals with_reducible first | assumption | exact fun _ => rfl | exact Kept.no (by assumption) | exact id | exact fun _ => ⟨rfl, rfl⟩

theorem kept_wearMove {s0 : State} {s : State} (hk : Kept w s0 s) (w_flash : w .flash = true) (w_t1 : w .t1 = true) :
    Kept w s0 (State.wearMove s) := by
  unfold State.wearMove
  try dsimp only
  repeat' first | intro _ | (with_reducible first | assumption | apply kept_moveSb | apply Kept.ite | apply Kept.foldl | apply Kept.foldl_fst) | split

theorem kept_selectLists {s0 : State} {s : State} (hk : Kept w s0 s) (w_tables : w .tables = true) :
    Kept w s0 (State.selectLists s) := by
  unfold State.selectLists
  try dsimp only
  repeat' first | intro _ | (with_reducible first | assumption | apply Kept.ite | apply Kept.foldl | apply Kept.foldl_fst | ((fail_if_success apply Kept.mk_same); first | apply Kept.mk_tables))

theorem kept_checkRoom {s0 : State} {s : State} (hk : Kept w s0 s) (w_events : w .events = true) (w_flash : w .flash = true) :
    Kept w s0 (State.checkRoom s) := by
  unfold State.checkRoom
  try dsimp only
  repeat' first | intro _ | (with_reducible first | assumption | apply kept_raiseNamed | apply Kept.ite | apply Kept.foldl | apply Kept.foldl_fst | ((fail_if_success apply Kept.mk_same); first | apply Kept.mk_flash))

theorem kept_sweepSbs {s0 : State} {s : State} (hk : Kept w s0 s) (w_flash : w .flash = true) :
    Kept w s0 (State.sweepSbs s) := by
  unfold State.sweepSbs
  try dsimp only
  repeat' first | intro _ | (with_reducible first | assumption | apply kept_jot | apply kept_setSb | apply Kept.ite | apply Kept.foldl)

theorem kept_sweepLog {s0 : State} {s : State} (hk : Kept w s0 s) (w_flash : w .flash = true) :
    Kept w s0 (State.sweepLog s) := by
  unfold State.sweepLog
  try dsimp only
  repeat' first | intro _ | (with_reducible first | assumption | apply kept_dropWords | apply Kept.ite | apply Kept.foldl | apply Kept.foldl_fst | ((fail_if_success apply Kept.mk_same); first | apply Kept.mk_flash))

theorem kept_writeJournal {s0 : State} {s : State} (hk : Kept w s0 s) (w_flash : w .flash = true) :
    Kept w s0 (State.writeJournal s) := by
  unfold State.writeJournal
  try dsimp only
  repeat' first | intro _ | (with_reducible first | assumption | apply Kept.ite | apply Kept.foldl | apply Kept.foldl_fst | ((fail_if_success apply Kept.mk_same); first | apply Kept.mk_flash))

theorem kept_dropPlace {s0 : State} {s : State} {a : ℕ} (hk : Kept w s0 s) (w_tiers : w .tiers = true) :
    Kept w s0 (State.dropPlace s a) := by
  unfold State.dropPlace
  try dsimp only
  repeat' first | intro _ | (with_reducible first | assumption | apply Kept.ite | apply Kept.foldl | apply Kept.foldl_fst | ((fail_if_success apply Kept.mk_same); first | apply Kept.mk_tiers))

theorem kept_releaseRetired {s0 : State} {s : State} (hk : Kept w s0 s) (w_tiers : w .tiers = true) :
    Kept w s0 (State.releaseRetired s) := by
  unfold State.releaseRetired
  try dsimp only
  repeat' first | intro _ | (with_reducible first | assumption | apply kept_dropPlace | apply Kept.ite | apply Kept.foldl | apply Kept.foldl_fst | ((fail_if_success apply Kept.mk_same); first | apply Kept.mk_tiers))

theorem kept_releaseDropped {s0 : State} {s : State} (hk : Kept w s0 s) (w_tiers : w .tiers = true) (w_search : w .search = true) (w_tables : w .tables = true) (w_flash : w .flash = true) :
    Kept w s0 (State.releaseDropped s) := by
  unfold State.releaseDropped
  try dsimp only
  repeat' first | intro _ | (with_reducible first | assumption | apply kept_releaseObject | apply Kept.ite | apply Kept.foldl)

theorem kept_deadShare {s0 : State} {s : State} {x : Index} (hk : Kept w s0 s) (w_events : w .events = true) (w_search : w .search = true) :
    Kept w s0 (State.deadShare s x) := by
  unfold State.deadShare
  try dsimp only
  repeat' first | intro _ | (with_reducible first | assumption | apply kept_raise | apply kept_setIndex | apply Kept.ite)

theorem kept_deadShares {s0 : State} {s : State} (hk : Kept w s0 s) (w_events : w .events = true) (w_search : w .search = true) :
    Kept w s0 (State.deadShares s) := by
  unfold State.deadShares
  try dsimp only
  repeat' first | intro _ | (with_reducible first | assumption | apply kept_deadShare | apply Kept.ite | apply Kept.foldl)

theorem kept_boundary {s0 : State} {s : State} (hk : Kept w s0 s) (w_tick : w .tick = true) (w_plan : w .plan = true) (w_items : w .items = true) (w_host : w .host = true) (w_events : w .events = true) (w_stiles : w .stiles = true) (w_mesh : w .mesh = true) (w_warren : w .warren = true) (w_tiers : w .tiers = true) (w_search : w .search = true) (w_tables : w .tables = true) (w_flash : w .flash = true) (w_fabric : w .fabric = true) (w_egress : w .egress = true) (w_t1 : w .t1 = true) (w_faults : w .faults = true) (w_power : w .power = true) (w_obs : w .obs = true) (w_free : w .free = true) :
    Kept w s0 (State.boundary s) := by
  unfold State.boundary
  try dsimp only
  repeat' first | intro _ | (with_reducible first | assumption | apply kept_spareMapping | apply kept_traceTick | apply kept_stampSince | apply kept_newTick | apply kept_agePeers | apply kept_wakeStart | apply kept_applyCommits | apply kept_startSwath | apply kept_swapPlan | apply kept_resetPlanned | apply kept_flrStiles | apply kept_keepSnapshots | apply kept_shedTicks | apply kept_shedding | apply kept_setCapacity | apply kept_linkCheck | apply kept_tellSecondLoss | apply kept_redirectBoundary | apply kept_reissueLost | apply kept_routing | apply kept_partnerWatch | apply kept_fnBoundary | apply kept_armWatches | apply kept_ackQuiesces | apply kept_connsBoundary | apply kept_wearMove | apply kept_selectLists | apply kept_askRefills | apply kept_checkRoom | apply kept_sweepSbs | apply kept_sweepLog | apply kept_writeJournal | apply kept_releaseRetired | apply kept_releaseDropped | apply kept_deadShares | apply Kept.ite | apply Kept.foldl)

theorem kept_bumpPort {s0 : State} {s : State} {p : ℕ} {i : ℕ} {n : ℕ} (hk : Kept w s0 s) (w_fabric : w .fabric = true) :
    Kept w s0 (State.bumpPort s p i n) := by
  unfold State.bumpPort
  try dsimp only
  repeat' first | intro _ | (with_reducible first | assumption | apply kept_setPort)

theorem kept_cacheCtx {s0 : State} {s : State} {n : ℕ} (hk : Kept w s0 s) (w_fabric : w .fabric = true) :
    Kept w s0 (State.cacheCtx s n) := by
  unfold State.cacheCtx
  try dsimp only
  repeat' first | intro _ | (with_reducible first | assumption | apply kept_mapConn | apply Kept.ite | apply Kept.foldl | apply Kept.foldl_fst | ((fail_if_success apply Kept.mk_same); first | apply Kept.mk_fabric) | exact ⟨rfl, rfl⟩) | split

theorem kept_candLost {s0 : State} {s : State} {id : ℕ} {i : ℕ} (hk : Kept w s0 s) (w_search : w .search = true) :
    Kept w s0 (State.candLost s id i) := by
  unfold State.candLost
  try dsimp only
  repeat' first | intro _ | (with_reducible first | assumption | apply kept_setJob | apply Kept.ite | apply Kept.foldl | apply Kept.foldl_fst) | split

theorem kept_carry {s0 : State} {s : State} {f : ℕ} {r : ℕ} {q : Word64} {cls : ℕ} (hk : Kept w s0 s) (w_host : w .host = true) (w_obs : w .obs = true) :
    Kept w s0 (State.carry s f r q cls) := by
  unfold State.carry
  try dsimp only
  repeat' first | intro _ | (with_reducible first | assumption | apply kept_classBump | apply kept_total | apply kept_mapWork)

theorem kept_carryJob {s0 : State} {s : State} {id : ℕ} (hk : Kept w s0 s) (w_search : w .search = true) (w_obs : w .obs = true) :
    Kept w s0 (State.carryJob s id) := by
  unfold State.carryJob
  try dsimp only
  repeat' first | intro _ | (with_reducible first | assumption | apply kept_classBump | apply kept_total | apply kept_setJob | apply Kept.ite | apply Kept.foldl | apply Kept.foldl_fst) | split

theorem kept_writeIn {s0 : State} {s : State} {x : Superblock} {ws : List CwData} (hk : Kept w s0 s) (w_flash : w .flash = true) :
    KeptP w s0 (State.writeIn s x ws) := by
  unfold State.writeIn
  try dsimp only
  repeat' first | intro _ | (with_reducible first | assumption | apply kept_setSb | apply Kept.ite | exact KeptP.none | apply KeptP.some | apply KeptP.some' | apply KeptP.ite | apply KeptP.map | apply Kept.foldl | apply Kept.foldl_fst | ((fail_if_success apply Kept.mk_same); first | apply Kept.mk_flash) | exact ⟨rfl, rfl⟩) | split

theorem kept_closeSb {s0 : State} {s : State} {k : ℕ × ℕ × ℕ} (hk : Kept w s0 s) (w_flash : w .flash = true) :
    Kept w s0 (State.closeSb s k) := by
  unfold State.closeSb
  try dsimp only
  repeat' first | intro _ | (with_reducible first | assumption | apply kept_setSb | apply Kept.ite)

theorem kept_writeTo {s0 : State} {s : State} {open_ : Option (ℕ × ℕ × ℕ)} {ws : List CwData} (hk : Kept w s0 s) (w_flash : w .flash = true) :
    KeptP w s0 (State.writeTo s open_ ws) := by
  unfold State.writeTo
  extract_lets here s1
  have hh : KeptP w s0 here := by
    unfold here
    repeat' first | intro _ | (with_reducible first | assumption | apply kept_writeIn | apply kept_closeSb | apply Kept.ite | exact KeptP.none | apply KeptP.some | apply KeptP.some' | apply KeptP.ite | apply KeptP.map | apply Kept.foldl | apply Kept.foldl_fst) | split
  have h1 : Kept w s0 s1 := by
    unfold s1
    repeat' first | intro _ | (with_reducible first | assumption | apply kept_writeIn | apply kept_closeSb | apply Kept.ite | exact KeptP.none | apply KeptP.some | apply KeptP.some' | apply KeptP.ite | apply KeptP.map | apply Kept.foldl | apply Kept.foldl_fst) | split
  clear_value here s1
  rcases here with _ | ⟨t, p⟩
  · repeat' first | intro _ | (with_reducible first | assumption | apply kept_writeIn | apply kept_closeSb | apply Kept.ite | exact KeptP.none | apply KeptP.some | apply KeptP.some' | apply KeptP.ite | apply KeptP.map | apply Kept.foldl | apply Kept.foldl_fst) | split | (with_reducible first | refine Kept.fst (by assumption) ?_ | refine KeptP.of (by assumption) ?_)
  · exact hh

theorem kept_writeLogWords {s0 : State} {s : State} {ws : List CwData} (hk : Kept w s0 s) (w_flash : w .flash = true) :
    KeptP w s0 (State.writeLogWords s ws) := by
  unfold State.writeLogWords
  try dsimp only
  repeat' first | intro _ | (with_reducible first | assumption | apply kept_writeTo | apply Kept.ite | exact KeptP.none | apply KeptP.some | apply KeptP.some' | apply KeptP.ite | apply KeptP.map | apply Kept.foldl | apply Kept.foldl_fst | ((fail_if_success apply Kept.mk_same); first | apply Kept.mk_flash))

theorem kept_logRecord {s0 : State} {s : State} {partner : Bool} {f : ℕ} {o : ℕ} {rec : List Byte} {vec : Option (ℕ × ℕ × ℕ × ℕ)} (hk : Kept w s0 s) (w_flash : w .flash = true) :
    Kept w s0 (State.logRecord s partner f o rec vec).1 := by
  unfold State.logRecord
  try dsimp only
  repeat' first | intro _ | (with_reducible first | assumption | apply kept_writeLogWords | apply Kept.ite | apply Kept.ite_fst | exact KeptP.none | apply KeptP.some | apply KeptP.some' | apply KeptP.ite | apply KeptP.map | apply Kept.foldl | apply Kept.foldl_fst | ((fail_if_success apply Kept.mk_same); first | apply Kept.mk_flash) | exact ⟨rfl, rfl⟩) | split | (with_reducible first | refine Kept.fst (by assumption) ?_ | refine KeptP.of (by assumption) ?_)

theorem kept_takeBatch {s0 : State} {s : State} {tick : Word64} {logged : Option Word64} {recs : List LogRec} (hk : Kept w s0 s) (w_tables : w .tables = true) (w_flash : w .flash = true) :
    Kept w s0 (State.takeBatch s tick logged recs) := by
  unfold State.takeBatch
  try dsimp only
  repeat' first | intro _ | (with_reducible first | assumption | apply kept_logRecord | apply Kept.ite | apply Kept.ite_fst | apply Kept.foldl | apply Kept.foldl_fst | ((fail_if_success apply Kept.mk_same); first | apply Kept.mk_tables) | exact ⟨rfl, rfl⟩) | split

theorem kept_refuseRejoin {s0 : State} {s : State} {needed : Word64} {oldest : Word64} (hk : Kept w s0 s) (w_events : w .events = true) (w_faults : w .faults = true) :
    Kept w s0 (State.refuseRejoin s needed oldest) := by
  unfold State.refuseRejoin
  try dsimp only
  repeat' first | intro _ | (with_reducible first | assumption | apply kept_raise | apply Kept.ite | apply Kept.foldl | apply Kept.foldl_fst | ((fail_if_success apply Kept.mk_same); first | apply Kept.mk_faults))

theorem kept_catchUpBatch {s0 : State} {s : State} {next : Word64} {n : ℕ} {since : Word64} {live : Option Word64} {tick : Word64} {logged : Option Word64} {recs : List LogRec} (hk : Kept w s0 s) (w_events : w .events = true) (w_tables : w .tables = true) (w_flash : w .flash = true) (w_faults : w .faults = true) :
    Kept w s0 (State.catchUpBatch s next n since live tick logged recs) := by
  unfold State.catchUpBatch
  try dsimp only
  repeat' first | intro _ | (with_reducible first | assumption | apply kept_takeBatch | apply kept_refuseRejoin | apply Kept.ite | apply Kept.foldl | apply Kept.foldl_fst | ((fail_if_success apply Kept.mk_same); first | apply Kept.mk_faults))

theorem kept_catchUpDone {s0 : State} {s : State} (hk : Kept w s0 s) (w_events : w .events = true) (w_faults : w .faults = true) :
    Kept w s0 (State.catchUpDone s) := by
  unfold State.catchUpDone
  try dsimp only
  repeat' first | intro _ | (with_reducible first | assumption | apply kept_raise | apply Kept.ite | apply Kept.foldl | apply Kept.foldl_fst | ((fail_if_success apply Kept.mk_same); first | apply Kept.mk_faults) | exact ⟨rfl, rfl⟩) | split

theorem kept_checkLagging {s0 : State} {s : State} (hk : Kept w s0 s) (w_tables : w .tables = true) :
    Kept w s0 (State.checkLagging s) := by
  unfold State.checkLagging
  try dsimp only
  repeat' first | intro _ | (with_reducible first | assumption | apply Kept.ite | apply Kept.foldl | apply Kept.foldl_fst | ((fail_if_success apply Kept.mk_same); first | apply Kept.mk_tables))

theorem kept_setLookup {s0 : State} {s : State} {l : Lookup} (hk : Kept w s0 s) (w_tables : w .tables = true) :
    Kept w s0 (State.setLookup s l) := by
  unfold State.setLookup
  try dsimp only
  repeat' first | intro _ | (with_reducible first | assumption | apply Kept.ite | apply Kept.foldl | apply Kept.foldl_fst | ((fail_if_success apply Kept.mk_same); first | apply Kept.mk_tables))

theorem kept_placeRow {s0 : State} {s : State} {l : Lookup} {i : ℕ} {st : RowState} (hk : Kept w s0 s) (w_tables : w .tables = true) :
    Kept w s0 (State.placeRow s l i st) := by
  unfold State.placeRow
  try dsimp only
  repeat' first | intro _ | (with_reducible first | assumption | apply kept_setLookup | apply Kept.ite | apply Kept.foldl | apply Kept.foldl_fst) | split

theorem kept_gatherOwn {s0 : State} {s : State} {l : Lookup} {t : TableDef} (hk : Kept w s0 s) (w_tables : w .tables = true) :
    Kept w s0 (State.gatherOwn s l t) := by
  unfold State.gatherOwn
  try dsimp only
  repeat' first | intro _ | (with_reducible first | assumption | apply kept_placeRow | apply Kept.ite | apply Kept.foldl | apply Kept.foldl_fst) | split

theorem kept_tableDrops {s0 : State} {s : State} {f : ℕ} {o : ℕ} {ds : List ℕ} (hk : Kept w s0 s) (w_tables : w .tables = true) :
    Kept w s0 (State.tableDrops s f o ds) := by
  unfold State.tableDrops
  try dsimp only
  repeat' first | intro _ | (with_reducible first | assumption | apply kept_setTable | apply Kept.ite | apply Kept.foldl | apply Kept.foldl_fst) | split

theorem kept_tookMany {s0 : State} {s : State} {n : ℕ} (hk : Kept w s0 s) (w_free : w .free = true) :
    Kept w s0 (State.tookMany s n) := by
  unfold State.tookMany
  try dsimp only
  repeat' first | intro _ | (with_reducible first | assumption | apply Kept.ite | apply Kept.foldl | apply Kept.foldl_fst | ((fail_if_success apply Kept.mk_same); first | apply Kept.mk_free))

theorem kept_fireOne {s0 : State} {s : State} {a1 : Watch} {t : Tensor} (hk : Kept w s0 s) (w_host : w .host = true) (w_obs : w .obs = true) :
    Kept w s0 (State.fireOne s a1 t) := by
  unfold State.fireOne
  try dsimp only
  repeat' first | intro _ | (with_reducible first | assumption | apply kept_total | apply kept_endWatch | apply Kept.ite | apply Kept.foldl | apply Kept.foldl_fst | ((fail_if_success apply Kept.mk_same); first | apply Kept.mk_obs))

theorem kept_fireStep {s0 : State} {s : State} {f : ℕ} {r : ℕ} {q : Word64} {tensor : ℕ} {t : Tensor} (hk : Kept w s0 s) (w_host : w .host = true) (w_obs : w .obs = true) :
    Kept w s0 (State.fireStep s f r q tensor t) := by
  unfold State.fireStep
  try dsimp only
  repeat' first | intro _ | (with_reducible first | assumption | apply kept_fireOne | apply Kept.ite | apply Kept.foldl)

theorem kept_endLookup {s0 : State} {s : State} {l : Lookup} {t : TableDef} (hk : Kept w s0 s) (w_host : w .host = true) (w_tables : w .tables = true) (w_obs : w .obs = true) (w_free : w .free = true) :
    Kept w s0 (State.endLookup s l t) := by
  unfold State.endLookup
  try dsimp only
  repeat' first | intro _ | (with_reducible first | assumption | apply kept_tableDrops | apply kept_tookMany | apply kept_fireStep | apply kept_finish | apply Kept.ite | apply Kept.foldl | apply Kept.foldl_fst | ((fail_if_success apply Kept.mk_same); first | apply Kept.mk_tables))

theorem kept_closeLookup {s0 : State} {s : State} {l0 : Lookup} (hk : Kept w s0 s) (w_host : w .host = true) (w_tables : w .tables = true) (w_obs : w .obs = true) (w_free : w .free = true) :
    Kept w s0 (State.closeLookup s l0) := by
  unfold State.closeLookup
  try dsimp only
  repeat' first | intro _ | (with_reducible first | assumption | apply kept_finish | apply kept_gatherOwn | apply kept_carry | apply kept_setLookup | apply kept_endLookup | apply Kept.ite | apply Kept.foldl | apply Kept.foldl_fst) | split

theorem kept_coldState {s0 : State} {s : State} (hk : Kept w s0 s) (w_tick : w .tick = true) (w_clock : w .clock = true) (w_ptp : w .ptp = true) (w_plan : w .plan = true) (w_items : w .items = true) (w_host : w .host = true) (w_events : w .events = true) (w_stiles : w .stiles = true) (w_mesh : w .mesh = true) (w_warren : w .warren = true) (w_tiers : w .tiers = true) (w_search : w .search = true) (w_tables : w .tables = true) (w_flash : w .flash = true) (w_fabric : w .fabric = true) (w_egress : w .egress = true) (w_t1 : w .t1 = true) (w_faults : w .faults = true) (w_power : w .power = true) (w_test : w .test = true) (w_cycle : w .cycle = true) (w_regs : w .regs = true) (w_obs : w .obs = true) :
    Kept w s0 (State.coldState s) := by
  unfold State.coldState State.mapCells
  try dsimp only
  repeat' first | (with_reducible first | exact fun _ => rfl | exact Kept.no (by assumption) | exact id | exact fun _ => ⟨rfl, rfl⟩) | intro _ | (with_reducible first | assumption | apply Kept.ite | apply Kept.foldl | apply Kept.foldl_fst | ((fail_if_success apply Kept.mk_same); first | apply Kept.mk_all) | exact ⟨rfl, rfl⟩ | exact id | apply memWrite_wf | apply memWriteBytes_wf | apply memWriteCells_wf | apply memWf_filter)

theorem kept_writePacked {s0 : State} {s : State} {x : Index} {kind : ℕ} {l : ℕ} {gen : ℕ} {per : ℕ} {u : ℕ} {a : ℕ} {rows : List (List Byte)} (hk : Kept w s0 s) (w_t1 : w .t1 = true) :
    Kept w s0 (State.writePacked s x kind l gen per u a rows) := by
  unfold State.writePacked
  try dsimp only
  repeat' first | intro _ | (with_reducible first | assumption | apply Kept.ite | apply Kept.foldl | apply Kept.foldl_fst | ((fail_if_success apply Kept.mk_same); first | refine Kept.mk_t1 ?_ ?_ ?_) | exact ⟨rfl, rfl⟩ | exact id | apply memWrite_wf | apply memWriteBytes_wf)

theorem kept_writeSegWords {s0 : State} {s : State} {ws : List CwData} (hk : Kept w s0 s) (w_flash : w .flash = true) :
    KeptP w s0 (State.writeSegWords s ws) := by
  unfold State.writeSegWords
  try dsimp only
  repeat' first | intro _ | (with_reducible first | assumption | apply kept_writeTo | apply Kept.ite | exact KeptP.none | apply KeptP.some | apply KeptP.some' | apply KeptP.ite | apply KeptP.map | apply Kept.foldl | apply Kept.foldl_fst | ((fail_if_success apply Kept.mk_same); first | apply Kept.mk_flash))

theorem kept_writeSheaves {s0 : State} {s : State} {x : Index} {l : ℕ} {gen : ℕ} {a4 : List (List (Word64 × FullVec) × ℕ)} (hk : Kept w s0 s) (w_flash : w .flash = true) :
    KeptP w s0 (State.writeSheaves s x l gen a4) := by
  induction a4 generalizing s with
  | nil => exact hk
  | cons x r ih =>
    unfold State.writeSheaves
    try dsimp only
    repeat' first | intro _ | (with_reducible first | assumption | apply ih | apply kept_writeSegWords | apply Kept.ite | exact KeptP.none | apply KeptP.some | apply KeptP.some' | apply KeptP.ite | apply KeptP.map | apply Kept.foldl | apply Kept.foldl_fst) | split | (with_reducible first | refine Kept.fst (by assumption) ?_ | refine KeptP.of (by assumption) ?_)

theorem kept_retire {s0 : State} {s : State} {a : ℕ} (hk : Kept w s0 s) (w_tiers : w .tiers = true) :
    Kept w s0 (State.retire s a) := by
  unfold State.retire
  try dsimp only
  repeat' first | intro _ | (with_reducible first | assumption | apply Kept.ite | apply Kept.foldl | apply Kept.foldl_fst | ((fail_if_success apply Kept.mk_same); first | apply Kept.mk_tiers))

theorem kept_writeVecs {s0 : State} {s : State} {x : Index} {l : ℕ} {n : ℕ} {gen : ℕ} {vec : ℕ → Word64 × FullVec} {gone : List ℕ} {back : List ℕ} (hk : Kept w s0 s) (w_tiers : w .tiers = true) (w_flash : w .flash = true) (w_t1 : w .t1 = true) :
    KeptP w s0 (State.writeVecs s x l n gen vec gone back) := by
  unfold State.writeVecs
  try dsimp only
  repeat' first | (with_reducible first | exact fun _ => rfl | exact Kept.no (by assumption) | exact id | exact fun _ => ⟨rfl, rfl⟩) | intro _ | (with_reducible first | assumption | apply kept_writeSheaves | apply kept_takePlace | apply kept_writeSegWords | apply kept_jot | apply kept_retire | apply kept_dropWords | apply Kept.ite | exact KeptP.none | apply KeptP.some | apply KeptP.some' | apply KeptP.ite | apply KeptP.map | apply Kept.foldl | apply Kept.foldl_fst | ((fail_if_success apply Kept.mk_same); first | refine Kept.mk_t1 ?_ ?_ ?_ | apply Kept.mk_flash | apply Kept.mk_all) | exact ⟨rfl, rfl⟩ | exact id | apply memWrite_wf | apply memWriteBytes_wf | apply memWriteCells_wf | apply memWf_filter | apply memWf_foldl) | split | (with_reducible first | refine Kept.fst (by assumption) ?_ | refine KeptP.of (by assumption) ?_)

theorem kept_writeSegment {s0 : State} {s : State} {x : Index} {l : ℕ} {n : ℕ} {gen : ℕ} (hk : Kept w s0 s) (w_tiers : w .tiers = true) (w_flash : w .flash = true) (w_t1 : w .t1 = true) :
    KeptP w s0 (State.writeSegment s x l n gen) := by
  unfold State.writeSegment
  try dsimp only
  repeat' first | intro _ | (with_reducible first | assumption | apply kept_writeVecs)

theorem kept_compactList {s0 : State} {s : State} {x : Index} {l : ℕ} (hk : Kept w s0 s) (w_tiers : w .tiers = true) (w_flash : w .flash = true) (w_t1 : w .t1 = true) :
    KeptO w s0 (State.compactList s x l) := by
  unfold State.compactList
  try dsimp only
  repeat' first | intro _ | (with_reducible first | assumption | apply kept_takePlace | apply kept_writePacked | apply kept_writeSegment | apply kept_retire | apply kept_putHdr | apply Kept.ite | exact KeptO.none | apply KeptO.some | apply KeptO.ite | exact KeptP.none | apply KeptP.some | apply KeptP.some' | apply KeptP.ite | apply KeptP.map | apply Kept.foldl | apply Kept.foldl_fst | ((fail_if_success apply Kept.mk_same); first | refine Kept.mk_t1 ?_ ?_ ?_) | exact ⟨rfl, rfl⟩ | exact id | apply memWrite_wf | apply memWriteBytes_wf | apply memWriteCells_wf | apply memWf_filter | apply memWf_foldl) | split | (with_reducible first | refine Kept.fst (by assumption) ?_ | refine KeptP.of (by assumption) ?_)

theorem kept_congested {s0 : State} {s : State} {n : ℕ} (hk : Kept w s0 s) (w_fabric : w .fabric = true) :
    Kept w s0 (State.congested s n) := by
  unfold State.congested
  try dsimp only
  repeat' first | intro _ | (with_reducible first | assumption | apply kept_setConn | apply Kept.ite | apply Kept.foldl | apply Kept.foldl_fst) | split

theorem kept_connError {s0 : State} {s : State} {n : ℕ} (hk : Kept w s0 s) (w_host : w .host = true) (w_events : w .events = true) (w_fabric : w .fabric = true) (w_egress : w .egress = true) :
    Kept w s0 (State.connError s n) := by
  unfold State.connError
  try dsimp only
  repeat' first | intro _ | (with_reducible first | assumption | apply kept_setConn | apply kept_raise | apply kept_discardFrames | apply Kept.ite | apply Kept.foldl | apply Kept.foldl_fst | ((fail_if_success apply Kept.mk_same); first | apply Kept.mk_host) | exact ⟨rfl, rfl⟩) | split

theorem kept_countComp {s0 : State} {s : State} {a1 : Work} {c : Comp} (hk : Kept w s0 s) (w_obs : w .obs = true) :
    Kept w s0 (State.countComp s a1 c) := by
  unfold State.countComp
  try dsimp only
  repeat' first | intro _ | (with_reducible first | assumption | apply kept_classBump | apply Kept.ite | apply Kept.foldl)

theorem kept_cqHead {s0 : State} {s : State} {fn : ℕ} {ring : ℕ} {value : Word64} (hk : Kept w s0 s) (w_host : w .host = true) (w_events : w .events = true) :
    Kept w s0 (State.cqHead s fn ring value) := by
  unfold State.cqHead
  try dsimp only
  repeat' first | intro _ | (with_reducible first | assumption | apply kept_setRing | apply kept_haltRing | apply kept_bumpFn | apply Kept.ite)

theorem kept_dataFails {s0 : State} {s : State} {f : ℕ} {r : ℕ} {q : Word64} (hk : Kept w s0 s) (w_host : w .host = true) (w_obs : w .obs = true) :
    Kept w s0 (State.dataFails s f r q) := by
  unfold State.dataFails
  try dsimp only
  repeat' first | intro _ | (with_reducible first | assumption | apply kept_carry | apply kept_mapWork | apply kept_finish | apply Kept.ite | apply Kept.foldl | apply Kept.foldl_fst) | split

theorem kept_discardClass {s0 : State} {s : State} {p : ℕ} {tc : ℕ} (hk : Kept w s0 s) (w_egress : w .egress = true) :
    Kept w s0 (State.discardClass s p tc) := by
  unfold State.discardClass
  try dsimp only
  repeat' first | intro _ | (with_reducible first | assumption | apply kept_setEgPort)

theorem kept_dropFront {s0 : State} {s : State} {q : FrontQuery} (hk : Kept w s0 s) (w_search : w .search = true) :
    Kept w s0 (State.dropFront s q) := by
  unfold State.dropFront
  try dsimp only
  repeat' first | intro _ | (with_reducible first | assumption | apply Kept.ite | apply Kept.foldl | apply Kept.foldl_fst | ((fail_if_success apply Kept.mk_same); first | apply Kept.mk_search))

theorem kept_dropJob {s0 : State} {s : State} {id : ℕ} (hk : Kept w s0 s) (w_search : w .search = true) (w_flash : w .flash = true) :
    Kept w s0 (State.dropJob s id) := by
  unfold State.dropJob
  try dsimp only
  repeat' first | (with_reducible first | exact fun _ => rfl | exact Kept.no (by assumption) | exact id | exact fun _ => ⟨rfl, rfl⟩) | intro _ | (with_reducible first | assumption | apply Kept.ite | apply Kept.foldl | apply Kept.foldl_fst | ((fail_if_success apply Kept.mk_same); first | apply Kept.mk_all))

theorem kept_dropLoad {s0 : State} {s : State} {j : LoadJob} (hk : Kept w s0 s) (w_tables : w .tables = true) :
    Kept w s0 (State.dropLoad s j) := by
  unfold State.dropLoad
  try dsimp only
  repeat' first | intro _ | (with_reducible first | assumption | apply Kept.ite | apply Kept.foldl | apply Kept.foldl_fst | ((fail_if_success apply Kept.mk_same); first | apply Kept.mk_tables))

theorem kept_dropMove {s0 : State} {s : State} {num : ℕ} (hk : Kept w s0 s) (w_tiers : w .tiers = true) :
    Kept w s0 (State.dropMove s num) := by
  unfold State.dropMove
  try dsimp only
  repeat' first | intro _ | (with_reducible first | assumption | apply Kept.ite | apply Kept.foldl | apply Kept.foldl_fst | ((fail_if_success apply Kept.mk_same); first | apply Kept.mk_tiers))

theorem kept_dropSelect {s0 : State} {s : State} {j : SelectJob} (hk : Kept w s0 s) (w_search : w .search = true) :
    Kept w s0 (State.dropSelect s j) := by
  unfold State.dropSelect
  try dsimp only
  repeat' first | intro _ | (with_reducible first | assumption | apply Kept.ite | apply Kept.foldl | apply Kept.foldl_fst | ((fail_if_success apply Kept.mk_same); first | apply Kept.mk_search))

theorem kept_dropUnplanned {s0 : State} {s : State} {p : ℕ} {tc : ℕ} (hk : Kept w s0 s) (w_egress : w .egress = true) :
    Kept w s0 (State.dropUnplanned s p tc) := by
  unfold State.dropUnplanned
  try dsimp only
  repeat' first | intro _ | (with_reducible first | assumption | apply kept_discardClass | apply Kept.ite)

theorem kept_edgeCheck {s0 : State} {s : State} {atNs : ℕ} (hk : Kept w s0 s) (w_tick : w .tick = true) (w_events : w .events = true) :
    Kept w s0 (State.edgeCheck s atNs) := by
  unfold State.edgeCheck
  try dsimp only
  repeat' first | intro _ | (with_reducible first | assumption | apply kept_raiseNamed | apply Kept.ite | apply Kept.foldl | apply Kept.foldl_fst | ((fail_if_success apply Kept.mk_same); first | refine Kept.mk_tick ?_ ?_ ?_) | exact ⟨rfl, rfl⟩)

theorem kept_egressBoundary {s0 : State} {s : State} (hk : Kept w s0 s) (w_egress : w .egress = true) :
    Kept w s0 (State.egressBoundary s) := by
  unfold State.egressBoundary
  try dsimp only
  repeat' first | intro _ | (with_reducible first | assumption | apply kept_dropUnplanned | apply Kept.ite | apply Kept.foldl | apply Kept.foldl_fst | ((fail_if_success apply Kept.mk_same); first | apply Kept.mk_egress))

theorem kept_endRecon {s0 : State} {s : State} {p : FlashPlace} (hk : Kept w s0 s) (w_flash : w .flash = true) :
    Kept w s0 (State.endRecon s p) := by
  unfold State.endRecon
  try dsimp only
  repeat' first | intro _ | (with_reducible first | assumption | apply Kept.ite | apply Kept.foldl | apply Kept.foldl_fst | ((fail_if_success apply Kept.mk_same); first | apply Kept.mk_flash))

theorem kept_endSlack {s0 : State} {s : State} (hk : Kept w s0 s) (w_tick : w .tick = true) :
    Kept w s0 (State.endSlack s) := by
  unfold State.endSlack
  try dsimp only
  repeat' first | intro _ | (with_reducible first | assumption | apply Kept.ite | apply Kept.foldl | apply Kept.foldl_fst | ((fail_if_success apply Kept.mk_same); first | refine Kept.mk_tick ?_ ?_ ?_) | exact ⟨rfl, rfl⟩)

theorem kept_newSwath {s0 : State} {s : State} (hk : Kept w s0 s) (w_mesh : w .mesh = true) (w_warren : w .warren = true) (w_tiers : w .tiers = true) :
    Kept w s0 (State.newSwath s) := by
  unfold State.newSwath
  try dsimp only
  repeat' first | (with_reducible first | exact fun _ => rfl | exact Kept.no (by assumption) | exact id | exact fun _ => ⟨rfl, rfl⟩) | intro _ | (with_reducible first | assumption | apply Kept.ite | apply Kept.foldl | apply Kept.foldl_fst | ((fail_if_success apply Kept.mk_same); first | apply Kept.mk_all))

theorem kept_selectEdge {s0 : State} {s : State} (hk : Kept w s0 s) (w_host : w .host = true) (w_obs : w .obs = true) :
    Kept w s0 (State.selectEdge s) := by
  unfold State.selectEdge
  try dsimp only
  repeat' first | intro _ | (with_reducible first | assumption | apply kept_carry | apply Kept.ite | apply Kept.foldl | apply Kept.foldl_fst) | split

theorem kept_endSwath {s0 : State} {s : State} {atNs : ℕ} (hk : Kept w s0 s) (w_tick : w .tick = true) (w_host : w .host = true) (w_events : w .events = true) (w_mesh : w .mesh = true) (w_warren : w .warren = true) (w_tiers : w .tiers = true) (w_search : w .search = true) (w_tables : w .tables = true) (w_flash : w .flash = true) (w_obs : w .obs = true) :
    Kept w s0 (State.endSwath s atNs) := by
  unfold State.endSwath
  try dsimp only
  repeat' first | intro _ | (with_reducible first | assumption | apply kept_newSwath | apply kept_endSlack | apply kept_selectEdge | apply kept_abandon | apply Kept.ite | apply Kept.foldl | apply Kept.foldl_fst | ((fail_if_success apply Kept.mk_same); first | refine Kept.mk_tick ?_ ?_ ?_) | exact ⟨rfl, rfl⟩)

theorem kept_endTxn {s0 : State} {s : State} {f : ℕ} (hk : Kept w s0 s) (w_host : w .host = true) :
    Kept w s0 (State.endTxn s f) := by
  unfold State.endTxn
  try dsimp only
  repeat' first | intro _ | (with_reducible first | assumption | apply Kept.ite | apply Kept.foldl | apply Kept.foldl_fst | ((fail_if_success apply Kept.mk_same); first | apply Kept.mk_host))

theorem kept_endUpdate {s0 : State} {s : State} {r : UpResult} (hk : Kept w s0 s) (w_host : w .host = true) (w_tables : w .tables = true) :
    Kept w s0 (State.endUpdate s r) := by
  unfold State.endUpdate
  try dsimp only
  repeat' first | intro _ | (with_reducible first | assumption | apply kept_finish | apply Kept.ite | apply Kept.foldl | apply Kept.foldl_fst | ((fail_if_success apply Kept.mk_same); first | apply Kept.mk_tables) | exact ⟨rfl, rfl⟩) | split

theorem kept_endUpdates {s0 : State} {s : State} (hk : Kept w s0 s) (w_host : w .host = true) (w_tables : w .tables = true) :
    Kept w s0 (State.endUpdates s) := by
  unfold State.endUpdates
  try dsimp only
  repeat' first | intro _ | (with_reducible first | assumption | apply kept_endUpdate | apply Kept.ite | apply Kept.foldl | apply Kept.foldl_fst | ((fail_if_success apply Kept.mk_same); first | apply Kept.mk_tables))

end Sys2Proof.Machine
end

