-- ==== Sys2Proof/Laws/KeptShared3.lean ====
section
/-! SUPPORT. One lemma for each shared operation that gives a state: it keeps what Kept (Safety.lean) says, for the parts that it
writes. Operations stand in the order in which they call one another. -/

set_option linter.unusedTactic false
set_option linter.unusedVariables false

namespace Sys2Proof.Machine

variable {w : Area → Bool}

theorem kept_evHead {s0 : State} {s : State} {fn : ℕ} {value : Word64} (hk : Kept w s0 s) (w_host : w .host = true) :
    Kept w s0 (State.evHead s fn value) := by
  unfold State.evHead
  try dsimp only
  repeat' first | intro _ | (with_reducible first | assumption | apply kept_setFn | apply kept_bumpFn | apply Kept.ite)

theorem kept_sideCfg {s0 : State} {s : State} {fn : ℕ} {which : ℕ} {x : SideRing} {put : SideRing → State} {v : Word64} (hk : Kept w s0 s) (w_host : w .host = true) (w_events : w .events = true) (hput : ∀ x0, Kept w s0 (put x0)) :
    Kept w s0 (State.sideCfg s fn which x put v) := by
  unfold State.sideCfg
  try dsimp only
  repeat' first | intro _ | (with_reducible first | assumption | apply hput | apply kept_bumpFn | apply kept_raise | apply Kept.ite)

theorem kept_ringCfg {s0 : State} {s : State} {fn : ℕ} {ring : RingName} {value : Word64} (hk : Kept w s0 s) (w_host : w .host = true) (w_events : w .events = true) :
    Kept w s0 (State.ringCfg s fn ring value) := by
  unfold State.ringCfg
  try dsimp only
  repeat' first | intro _ | (with_reducible first | assumption | apply kept_setRing | apply kept_bumpFn | apply kept_haltRing | apply kept_sideCfg | apply kept_setFn | apply Kept.ite | apply Kept.foldl | apply Kept.foldl_fst) | split

theorem kept_evWrite {s0 : State} {s : State} {f : ℕ} {o : ℕ} {v : Word64} (hk : Kept w s0 s) (w_host : w .host = true) (w_events : w .events = true) :
    Kept w s0 (State.evWrite s f o v) := by
  unfold State.evWrite
  try dsimp only
  repeat' first | intro _ | (with_reducible first | assumption | apply kept_setFn | apply kept_bumpFn | apply kept_ringCfg | apply kept_evHead | apply Kept.ite | apply Kept.foldl | apply Kept.foldl_fst) | split

theorem kept_exchangeA {s0 : State} {s : State} (hk : Kept w s0 s) (w_tables : w .tables = true) (w_fabric : w .fabric = true) (w_egress : w .egress = true) :
    Kept w s0 (State.exchangeA s) := by
  unfold State.exchangeA
  try dsimp only
  repeat' first | intro _ | (with_reducible first | assumption | apply kept_sendPlan | apply Kept.ite | apply Kept.foldl | apply Kept.foldl_fst | ((fail_if_success apply Kept.mk_same); first | apply Kept.mk_tables))

theorem kept_exchangeB {s0 : State} {s : State} (hk : Kept w s0 s) (w_tables : w .tables = true) (w_fabric : w .fabric = true) (w_egress : w .egress = true) :
    Kept w s0 (State.exchangeB s) := by
  unfold State.exchangeB
  try dsimp only
  repeat' first | intro _ | (with_reducible first | assumption | apply kept_sendPlan | apply Kept.ite | apply Kept.foldl | apply Kept.foldl_fst | ((fail_if_success apply Kept.mk_same); first | apply Kept.mk_tables))

theorem kept_exhausted {s0 : State} {s : State} {n : ℕ} (hk : Kept w s0 s) (w_host : w .host = true) (w_events : w .events = true) (w_fabric : w .fabric = true) (w_egress : w .egress = true) :
    Kept w s0 (State.exhausted s n) := by
  unfold State.exhausted
  try dsimp only
  repeat' first | intro _ | (with_reducible first | assumption | apply kept_connError | apply kept_mcastMark | apply Kept.ite | apply Kept.foldl | apply Kept.foldl_fst) | split

theorem kept_fetchRing {s0 : State} {s : State} {f : ℕ} {r : ℕ} {a3 : ℕ} (hk : Kept w s0 s) (w_host : w .host = true) (w_events : w .events = true) (w_obs : w .obs = true) :
    Kept w s0 (State.fetchRing s f r a3) := by
  induction a3 generalizing s with
  | zero => exact hk
  | succ fuel ih =>
    unfold State.fetchRing
    try dsimp only
    repeat' first | intro _ | (with_reducible first | assumption | apply ih | apply kept_haltRing | apply kept_admit | apply Kept.ite | exact KeptP.none | apply KeptP.some | apply KeptP.some' | apply KeptP.ite | apply KeptP.map | apply Kept.foldl | apply Kept.foldl_fst) | split | (with_reducible first | refine Kept.fst (by assumption) ?_ | refine KeptP.of (by assumption) ?_)

theorem kept_fetchAll {s0 : State} {s : State} (hk : Kept w s0 s) (w_host : w .host = true) (w_events : w .events = true) (w_obs : w .obs = true) :
    Kept w s0 (State.fetchAll s) := by
  unfold State.fetchAll
  try dsimp only
  repeat' first | intro _ | (with_reducible first | assumption | apply kept_fetchRing | apply Kept.ite | apply Kept.foldl)

theorem kept_finishFront {s0 : State} {s : State} {q : FrontQuery} (hk : Kept w s0 s) (w_host : w .host = true) (w_search : w .search = true) (w_obs : w .obs = true) (w_free : w .free = true) :
    Kept w s0 (State.finishFront s q) := by
  unfold State.finishFront
  try dsimp only
  repeat' first | intro _ | (with_reducible first | assumption | apply kept_finish | apply kept_dropFront | apply kept_tookMany | apply kept_mapWork | apply kept_fireStep | apply Kept.ite | apply Kept.foldl | apply Kept.foldl_fst) | split

theorem kept_giveResult {s0 : State} {s : State} {a : Ask} {own : Option ℕ} {r : ShardRes} (hk : Kept w s0 s) (w_search : w .search = true) :
    Kept w s0 (State.giveResult s a own r) := by
  unfold State.giveResult
  try dsimp only
  repeat' first | intro _ | (with_reducible first | assumption | apply Kept.ite | apply Kept.foldl | apply Kept.foldl_fst | ((fail_if_success apply Kept.mk_same); first | apply Kept.mk_search))

theorem kept_finishJob {s0 : State} {s : State} {j : ShardJob} {x : Index} (hk : Kept w s0 s) (w_search : w .search = true) (w_flash : w .flash = true) :
    Kept w s0 (State.finishJob s j x) := by
  unfold State.finishJob
  try dsimp only
  repeat' first | intro _ | (with_reducible first | assumption | apply kept_dropJob | apply kept_giveResult)

theorem kept_fireTicks {s0 : State} {s : State} (hk : Kept w s0 s) (w_host : w .host = true) (w_obs : w .obs = true) :
    Kept w s0 (State.fireTicks s) := by
  unfold State.fireTicks
  try dsimp only
  repeat' first | intro _ | (with_reducible first | assumption | apply kept_fireOne | apply kept_watchNone | apply Kept.ite | apply Kept.foldl | apply Kept.foldl_fst) | split

theorem kept_formatEnds {s0 : State} {s : State} (hk : Kept w s0 s) (w_host : w .host = true) (w_flash : w .flash = true) (w_free : w .free = true) :
    Kept w s0 (State.formatEnds s) := by
  unfold State.formatEnds
  try dsimp only
  repeat' first | intro _ | (with_reducible first | assumption | apply kept_tookFresh | apply kept_finish | apply Kept.ite | apply Kept.foldl | apply Kept.foldl_fst | ((fail_if_success apply Kept.mk_same); first | apply Kept.mk_flash))

theorem kept_frontIngest {s0 : State} {s : State} {q : FrontQuery} (hk : Kept w s0 s) (w_host : w .host = true) (w_search : w .search = true) (w_fabric : w .fabric = true) (w_egress : w .egress = true) (w_obs : w .obs = true) (w_free : w .free = true) :
    Kept w s0 (State.frontIngest s q) := by
  unfold State.frontIngest
  try dsimp only
  repeat' first | intro _ | (with_reducible first | assumption | apply kept_finishFront | apply kept_reissueAll | apply Kept.ite)

theorem kept_frontsEgress {s0 : State} {s : State} (hk : Kept w s0 s) (w_host : w .host = true) (w_obs : w .obs = true) :
    Kept w s0 (State.frontsEgress s) := by
  unfold State.frontsEgress
  try dsimp only
  repeat' first | intro _ | (with_reducible first | assumption | apply kept_carry | apply Kept.ite | apply Kept.foldl)

theorem kept_frontsIngest {s0 : State} {s : State} (hk : Kept w s0 s) (w_host : w .host = true) (w_search : w .search = true) (w_fabric : w .fabric = true) (w_egress : w .egress = true) (w_obs : w .obs = true) (w_free : w .free = true) :
    Kept w s0 (State.frontsIngest s) := by
  unfold State.frontsIngest
  try dsimp only
  repeat' first | intro _ | (with_reducible first | assumption | apply kept_frontIngest | apply Kept.ite | apply Kept.foldl)

theorem kept_gateOpens {s0 : State} {s : State} {index : ℕ} (hk : Kept w s0 s) (w_egress : w .egress = true) :
    Kept w s0 (State.gateOpens s index) := by
  unfold State.gateOpens
  try dsimp only
  repeat' first | intro _ | (with_reducible first | assumption | apply Kept.ite | apply Kept.foldl | apply Kept.foldl_fst | ((fail_if_success apply Kept.mk_same); first | apply Kept.mk_egress))

theorem kept_gateWaits {s0 : State} {s : State} {p : ℕ} {offPs : ℕ} (hk : Kept w s0 s) (w_egress : w .egress = true) :
    Kept w s0 (State.gateWaits s p offPs) := by
  unfold State.gateWaits
  try dsimp only
  repeat' first | intro _ | (with_reducible first | assumption | apply kept_setEgPort | apply Kept.ite | apply Kept.foldl | apply Kept.foldl_fst) | split

theorem kept_hostSets {s0 : State} {s : State} {a1 : HostBytes} (hk : Kept w s0 s) (w_hostMem : w .hostMem = true) :
    Kept w s0 (State.hostSets s a1) := by
  unfold State.hostSets
  try dsimp only
  repeat' first | intro _ | (with_reducible first | assumption | apply Kept.ite | apply Kept.foldl | apply Kept.foldl_fst | ((fail_if_success apply Kept.mk_same); first | refine Kept.mk_hostMem ?_ ?_ ?_) | exact ⟨rfl, rfl⟩ | exact id | apply memWrite_wf | apply memWriteBytes_wf | apply memWriteCells_wf)

theorem kept_hostWrite {s0 : State} {s : State} {a : ℕ} {bs : List Byte} (hk : Kept w s0 s) (w_hostMem : w .hostMem = true) :
    Kept w s0 (State.hostWrite s a bs) := by
  unfold State.hostWrite
  try dsimp only
  repeat' first | intro _ | (with_reducible first | assumption | apply Kept.ite | apply Kept.foldl | apply Kept.foldl_fst | ((fail_if_success apply Kept.mk_same); first | refine Kept.mk_hostMem ?_ ?_ ?_) | exact ⟨rfl, rfl⟩ | exact id | apply memWrite_wf | apply memWriteBytes_wf)

theorem kept_ignoreFrame {s0 : State} {s : State} {atNs : ℕ} (hk : Kept w s0 s) (w_tick : w .tick = true) :
    Kept w s0 (State.ignoreFrame s atNs) := by
  unfold State.ignoreFrame
  try dsimp only
  repeat' first | intro _ | (with_reducible first | assumption | apply kept_regenerate | apply Kept.ite | apply Kept.foldl | apply Kept.foldl_fst | ((fail_if_success apply Kept.mk_same); first | refine Kept.mk_tick ?_ ?_ ?_) | exact ⟨rfl, rfl⟩)

theorem kept_scanJob {s0 : State} {s : State} {id : ℕ} (hk : Kept w s0 s) (w_host : w .host = true) (w_search : w .search = true) (w_obs : w .obs = true) :
    Kept w s0 (State.scanJob s id) := by
  unfold State.scanJob
  try dsimp only
  repeat' first | intro _ | (with_reducible first | assumption | apply kept_setJob | apply kept_fireStep | apply Kept.ite | apply Kept.foldl | apply Kept.foldl_fst | apply Kept.foldl_L | apply Kept.foldl_G | ((fail_if_success apply Kept.mk_same); first | apply Kept.mk_search) | exact ⟨rfl, rfl⟩) | split

theorem kept_planReads {s0 : State} {s : State} {j : ShardJob} {i : ℕ} {vid : Word64} {ps : List FlashPlace} (hk : Kept w s0 s) (w_search : w .search = true) (w_flash : w .flash = true) :
    Kept w s0 (State.planReads s j i vid ps) := by
  unfold State.planReads
  try dsimp only
  repeat' first | intro _ | (with_reducible first | assumption | apply kept_setJob | apply Kept.ite | apply Kept.foldl | apply Kept.foldl_fst | ((fail_if_success apply Kept.mk_same); first | apply Kept.mk_flash))

theorem kept_planCand {s0 : State} {s : State} {x : Index} {id : ℕ} {i : ℕ} (hk : Kept w s0 s) (w_events : w .events = true) (w_search : w .search = true) (w_flash : w .flash = true) :
    Kept w s0 (State.planCand s x id i) := by
  unfold State.planCand
  try dsimp only
  repeat' first | intro _ | (with_reducible first | assumption | apply kept_planReads | apply kept_candLost | apply kept_raiseNamed | apply Kept.ite | apply Kept.foldl | apply Kept.foldl_fst) | split

theorem kept_mergeDone {s0 : State} {s : State} {id : ℕ} (hk : Kept w s0 s) (w_events : w .events = true) (w_search : w .search = true) (w_flash : w .flash = true) :
    Kept w s0 (State.mergeDone s id) := by
  unfold State.mergeDone
  try dsimp only
  repeat' first | intro _ | (with_reducible first | assumption | apply kept_setJob | apply kept_planCand | apply Kept.ite | apply Kept.foldl | apply Kept.foldl_fst | apply Kept.foldl_L | apply Kept.foldl_G) | split

theorem kept_replan {s0 : State} {s : State} {id : ℕ} (hk : Kept w s0 s) (w_events : w .events = true) (w_search : w .search = true) (w_flash : w .flash = true) :
    Kept w s0 (State.replan s id) := by
  unfold State.replan
  try dsimp only
  repeat' first | intro _ | (with_reducible first | assumption | apply kept_setJob | apply kept_planCand | apply Kept.ite | apply Kept.foldl | apply Kept.foldl_fst | apply Kept.foldl_L | apply Kept.foldl_G | ((fail_if_success apply Kept.mk_same); first | apply Kept.mk_flash) | exact ⟨rfl, rfl⟩) | split

theorem kept_ingestJob {s0 : State} {s : State} {id : ℕ} (hk : Kept w s0 s) (w_host : w .host = true) (w_events : w .events = true) (w_search : w .search = true) (w_flash : w .flash = true) (w_obs : w .obs = true) :
    Kept w s0 (State.ingestJob s id) := by
  unfold State.ingestJob
  try dsimp only
  repeat' first | intro _ | (with_reducible first | assumption | apply kept_scanJob | apply kept_mergeDone | apply kept_replan | apply Kept.ite | apply Kept.foldl | apply Kept.foldl_fst) | split

theorem kept_spillRows {s0 : State} {s : State} {left : List BurrowItem} (hk : Kept w s0 s) (w_tables : w .tables = true) :
    Kept w s0 (State.spillRows s left) := by
  unfold State.spillRows
  try dsimp only
  repeat' first | intro _ | (with_reducible first | assumption | apply Kept.ite | apply Kept.foldl | apply Kept.foldl_fst | ((fail_if_success apply Kept.mk_same); first | apply Kept.mk_tables))

theorem kept_splitAndBind {s0 : State} {s : State} {js : List ShardJob} (hk : Kept w s0 s) (w_warren : w .warren = true) (w_tiers : w .tiers = true) (w_tables : w .tables = true) (w_t1 : w .t1 = true) (w_obs : w .obs = true) :
    Kept w s0 (State.splitAndBind s js).1 := by
  unfold State.splitAndBind
  try dsimp only
  repeat' first | intro _ | (with_reducible first | assumption | apply kept_Split_bindChannel | apply kept_Split_spill | apply kept_spillRows | apply Kept.ite | apply Kept.ite_fst | apply Kept.ite_L | apply Kept.foldl | apply Kept.foldl_fst | apply Kept.foldl_L | apply Kept.foldl_G | ((fail_if_success apply Kept.mk_same); first | apply Kept.mk_tiers) | exact ⟨rfl, rfl⟩) | split

theorem kept_ingestShard {s0 : State} {s : State} (hk : Kept w s0 s) (w_host : w .host = true) (w_events : w .events = true) (w_warren : w .warren = true) (w_tiers : w .tiers = true) (w_search : w .search = true) (w_tables : w .tables = true) (w_flash : w .flash = true) (w_t1 : w .t1 = true) (w_obs : w .obs = true) :
    Kept w s0 (State.ingestShard s) := by
  unfold State.ingestShard
  try dsimp only
  repeat' first | intro _ | (with_reducible first | assumption | apply kept_splitAndBind | apply kept_ingestJob | apply Kept.ite | apply Kept.ite_fst | apply Kept.foldl | apply Kept.foldl_fst | ((fail_if_success apply Kept.mk_same); first | apply Kept.mk_search))

theorem kept_insertsOver {s0 : State} {s : State} {f : ℕ} {o : ℕ} {l : ℕ} (hk : Kept w s0 s) (w_tables : w .tables = true) :
    Kept w s0 (State.insertsOver s f o l) := by
  unfold State.insertsOver
  try dsimp only
  repeat' first | intro _ | (with_reducible first | assumption | apply kept_mapResult | apply Kept.ite | apply Kept.foldl | apply Kept.foldl_fst | ((fail_if_success apply Kept.mk_same); first | apply Kept.mk_tables))

theorem kept_tellFull {s0 : State} {s : State} (hk : Kept w s0 s) (w_events : w .events = true) (w_flash : w .flash = true) :
    Kept w s0 (State.tellFull s) := by
  unfold State.tellFull
  try dsimp only
  repeat' first | intro _ | (with_reducible first | assumption | apply kept_raiseNamed | apply Kept.ite | apply Kept.foldl | apply Kept.foldl_fst | ((fail_if_success apply Kept.mk_same); first | apply Kept.mk_flash))

theorem kept_installLists {s0 : State} {s : State} (hk : Kept w s0 s) (w_events : w .events = true) (w_tiers : w .tiers = true) (w_tables : w .tables = true) (w_flash : w .flash = true) (w_t1 : w .t1 = true) :
    Kept w s0 (State.installLists s) := by
  unfold State.installLists
  try dsimp only
  repeat' first | intro _ | (with_reducible first | assumption | apply kept_compactList | apply kept_insertsOver | apply kept_tellFull | apply Kept.ite | exact KeptO.none | apply KeptO.some | apply KeptO.ite | apply Kept.foldl | apply Kept.foldl_fst | ((fail_if_success apply Kept.mk_same); first | apply Kept.mk_tables) | exact ⟨rfl, rfl⟩) | split | (with_reducible first | refine Kept.fst (by assumption) ?_ | refine KeptO.of (by assumption) ?_)

theorem kept_jobEgress {s0 : State} {s : State} {j0 : ShardJob} (hk : Kept w s0 s) (w_search : w .search = true) (w_flash : w .flash = true) (w_obs : w .obs = true) :
    Kept w s0 (State.jobEgress s j0) := by
  unfold State.jobEgress
  try dsimp only
  repeat' first | intro _ | (with_reducible first | assumption | apply kept_dropJob | apply kept_giveResult | apply kept_finishJob | apply kept_carryJob | apply Kept.ite | apply Kept.foldl | apply Kept.foldl_fst | apply Kept.foldl_L | apply Kept.foldl_G) | split

theorem kept_joinPairs {s0 : State} {s : State} {j : ShardJob} {ch : ℕ} {ps : List (PairOut × Bool)} (hk : Kept w s0 s) (w_events : w .events = true) (w_search : w .search = true) (w_flash : w .flash = true) :
    Kept w s0 (State.joinPairs s j ch ps) := by
  unfold State.joinPairs
  try dsimp only
  repeat' first | intro _ | (with_reducible first | assumption | apply kept_setJob | apply kept_mergeDone | apply Kept.ite | apply Kept.foldl | apply Kept.foldl_fst | ((fail_if_success apply Kept.mk_same); first | apply Kept.mk_search))

theorem kept_landFlash {s0 : State} {s : State} {loc : ℕ} {h0 : SheafHdr} {p : List Byte} (hk : Kept w s0 s) (w_events : w .events = true) (w_flash : w .flash = true) (w_t1 : w .t1 = true) :
    Kept w s0 (State.landFlash s loc h0 p) := by
  unfold State.landFlash
  extract_lets hd
  clear_value hd
  split
  · split
    extract_lets
    clear_value *
    split
    · exact kept_tellFull hk w_events w_flash
    · exact Kept.mk_t1 (KeptP.of ‹_› (kept_writeSegWords hk w_flash)) w_t1 fun e => memWriteBytes_wf e _ _
  · clear_value *
    split
    · exact kept_tellFull hk w_events w_flash
    · exact Kept.mk_flash (KeptP.of ‹_› (kept_writeLogWords hk w_flash)) w_flash
  · exact hk

theorem kept_landAt {s0 : State} {s : State} {r : MoveRec} {m : Move} {hb : List Byte} {p : List Byte} (hk : Kept w s0 s) (w_events : w .events = true) (w_mesh : w .mesh = true) (w_flash : w .flash = true) (w_t1 : w .t1 = true) (w_hostMem : w .hostMem = true) :
    Kept w s0 (State.landAt s r m hb p) := by
  unfold State.landAt
  try dsimp only
  repeat' first | intro _ | (with_reducible first | assumption | apply kept_scratchPut | apply kept_landFlash | apply kept_hostWrite | apply Kept.ite | apply Kept.foldl | apply Kept.foldl_fst | ((fail_if_success apply Kept.mk_same); first | refine Kept.mk_t1 ?_ ?_ ?_) | exact ⟨rfl, rfl⟩ | exact id | apply memWrite_wf | apply memWriteBytes_wf | apply memWriteCells_wf | apply memWf_filter | apply memWf_foldl) | split

theorem kept_traceEnd {s0 : State} {s : State} {engine : ℕ} {opcode : ℕ} {phase : ℕ} {cycle : ℕ} {c : Counts} {hold : Bool} (hk : Kept w s0 s) (w_obs : w .obs = true) :
    Kept w s0 (State.traceEnd s engine opcode phase cycle c hold) := by
  unfold State.traceEnd
  try dsimp only
  repeat' first | intro _ | (with_reducible first | assumption | apply kept_traceRec)

theorem kept_latchItem {s0 : State} {s : State} {b : Burrow} (hk : Kept w s0 s) (w_obs : w .obs = true) :
    Kept w s0 (State.latchItem s b) := by
  unfold State.latchItem
  try dsimp only
  repeat' first | intro _ | (with_reducible first | assumption | apply kept_total | apply kept_traceEnd | apply Kept.ite | apply Kept.foldl | apply Kept.foldl_fst) | split

theorem kept_latchTile {s0 : State} {s : State} {c : Counts} {hold : Bool} (hk : Kept w s0 s) (w_obs : w .obs = true) :
    Kept w s0 (State.latchTile s c hold) := by
  unfold State.latchTile
  try dsimp only
  repeat' first | intro _ | (with_reducible first | assumption | apply kept_total)

theorem kept_lineLocks {s0 : State} {s : State} {f : ℕ} {atNs : ℕ} {raw : Word64} (hk : Kept w s0 s) (w_tick : w .tick = true) (w_events : w .events = true) :
    Kept w s0 (State.lineLocks s f atNs raw) := by
  unfold State.lineLocks
  try dsimp only
  repeat' first | intro _ | (with_reducible first | assumption | apply kept_acceptFrame | apply kept_setLine | apply kept_raiseNamed | apply Kept.ite)

theorem kept_loadTable {s0 : State} {s : State} {t : TableDef} {rows : List LoadRow} (hk : Kept w s0 s) (w_tables : w .tables = true) (w_t1 : w .t1 = true) :
    Kept w s0 (State.loadTable s t rows).1 := by
  unfold State.loadTable
  try dsimp only
  repeat' first | intro _ | (with_reducible first | assumption | apply kept_keepRow | apply kept_writeRow | apply kept_setSheafScale | apply kept_putRow | apply kept_putBit | apply Kept.ite | apply Kept.ite_fst | apply Kept.foldl | apply Kept.foldl_fst) | split

theorem kept_loadApply {s0 : State} {s : State} {j : LoadJob} (hk : Kept w s0 s) (w_search : w .search = true) (w_tables : w .tables = true) (w_t1 : w .t1 = true) :
    KeptP w s0 (State.loadApply s j) := by
  unfold State.loadApply
  try dsimp only
  repeat' first | intro _ | (with_reducible first | assumption | apply kept_setIndex | apply kept_loadTable | apply kept_setTable | apply Kept.ite | exact KeptP.none | apply KeptP.some | apply KeptP.some' | apply KeptP.ite | apply KeptP.map | apply Kept.ite_fst | apply Kept.foldl | apply Kept.foldl_fst) | split

theorem kept_loadDue {s0 : State} {s : State} {j : LoadJob} (hk : Kept w s0 s) (w_host : w .host = true) (w_search : w .search = true) (w_tables : w .tables = true) (w_t1 : w .t1 = true) :
    Kept w s0 (State.loadDue s j) := by
  unfold State.loadDue
  try dsimp only
  repeat' first | intro _ | (with_reducible first | assumption | apply kept_dropLoad | apply kept_finish | apply kept_loadApply | apply Kept.ite | exact KeptP.none | apply KeptP.some | apply KeptP.some' | apply KeptP.ite | apply KeptP.map | apply Kept.foldl | apply Kept.foldl_fst) | split | (with_reducible first | refine Kept.fst (by assumption) ?_ | refine KeptP.of (by assumption) ?_)

theorem kept_setLoad {s0 : State} {s : State} {j : LoadJob} (hk : Kept w s0 s) (w_tables : w .tables = true) :
    Kept w s0 (State.setLoad s j) := by
  unfold State.setLoad
  try dsimp only
  repeat' first | intro _ | (with_reducible first | assumption | apply Kept.ite | apply Kept.foldl | apply Kept.foldl_fst | ((fail_if_success apply Kept.mk_same); first | apply Kept.mk_tables))

theorem kept_loadLands {s0 : State} {s : State} {j : LoadJob} {good : Bool} (hk : Kept w s0 s) (w_host : w .host = true) (w_events : w .events = true) (w_tables : w .tables = true) :
    Kept w s0 (State.loadLands s j good) := by
  unfold State.loadLands
  try dsimp only
  repeat' first | intro _ | (with_reducible first | assumption | apply kept_finish | apply kept_dropLoad | apply kept_setLoad | apply kept_raiseNamed | apply Kept.ite | apply Kept.foldl | apply Kept.foldl_fst) | split

theorem kept_loadsDue {s0 : State} {s : State} (hk : Kept w s0 s) (w_host : w .host = true) (w_search : w .search = true) (w_tables : w .tables = true) (w_t1 : w .t1 = true) :
    Kept w s0 (State.loadsDue s) := by
  unfold State.loadsDue
  try dsimp only
  repeat' first | intro _ | (with_reducible first | assumption | apply kept_loadDue | apply Kept.ite | apply Kept.foldl)

theorem kept_loseWord {s0 : State} {s : State} {a1 : Codeword} (hk : Kept w s0 s) (w_events : w .events = true) (w_flash : w .flash = true) :
    Kept w s0 (State.loseWord s a1) := by
  unfold State.loseWord
  try dsimp only
  repeat' first | intro _ | (with_reducible first | assumption | apply kept_raiseNamed | apply kept_bumpFlash | apply kept_jot | apply Kept.ite | apply Kept.foldl | apply Kept.foldl_fst | ((fail_if_success apply Kept.mk_same); first | apply Kept.mk_flash) | exact ⟨rfl, rfl⟩) | split

theorem kept_pfcCheck {s0 : State} {s : State} {p : ℕ} {tc : ℕ} (hk : Kept w s0 s) (w_fabric : w .fabric = true) :
    Kept w s0 (State.pfcCheck s p tc) := by
  unfold State.pfcCheck
  try dsimp only
  repeat' first | intro _ | (with_reducible first | assumption | apply kept_setPort | apply Kept.ite)

theorem kept_takeIngress {s0 : State} {s : State} {p : ℕ} {tc : ℕ} {n : ℕ} (hk : Kept w s0 s) (w_fabric : w .fabric = true) :
    Kept w s0 (State.takeIngress s p tc n) := by
  unfold State.takeIngress
  try dsimp only
  repeat' first | intro _ | (with_reducible first | assumption | apply kept_pfcCheck | apply kept_setPort)

theorem kept_waitCtx {s0 : State} {s : State} {p : WaitPkt} {n : ℕ} (hk : Kept w s0 s) (w_fabric : w .fabric = true) :
    Kept w s0 (State.waitCtx s p n) := by
  unfold State.waitCtx
  try dsimp only
  repeat' first | intro _ | (with_reducible first | assumption | apply kept_bumpFabric | apply Kept.ite | apply Kept.foldl | apply Kept.foldl_fst | ((fail_if_success apply Kept.mk_same); first | apply Kept.mk_fabric))

theorem kept_ludomTake {s0 : State} {s : State} {port : ℕ} {tc : ℕ} {pkt : List Byte} {atNs : ℕ} (hk : Kept w s0 s) (w_fabric : w .fabric = true) :
    KeptT w s0 (State.ludomTake s port tc pkt atNs) := by
  unfold State.ludomTake
  try dsimp only
  repeat' first | intro _ | (with_reducible first | assumption | apply kept_takeIngress | apply kept_bumpFabric | apply kept_waitCtx | apply Kept.ite | apply KeptT.dropped | exact KeptT.ok | apply KeptT.ite | apply Kept.foldl | apply Kept.foldl_fst) | split

theorem kept_notReady {s0 : State} {s : State} {c : Conn} {p : LPkt} (hk : Kept w s0 s) (w_egress : w .egress = true) :
    Kept w s0 (State.notReady s c p) := by
  unfold State.notReady
  try dsimp only
  repeat' first | intro _ | (with_reducible first | assumption | apply kept_sendControl)

theorem kept_sendReads {s0 : State} {s : State} {c : Conn} {psn : ℕ} {a : ℕ} {len : ℕ} (hk : Kept w s0 s) (w_egress : w .egress = true) :
    Kept w s0 (State.sendReads s c psn a len) := by
  unfold State.sendReads
  try dsimp only
  repeat' first | intro _ | (with_reducible first | assumption | apply kept_sendOn | apply Kept.ite | apply Kept.foldl)

theorem kept_ludomRead {s0 : State} {s : State} {port : ℕ} {tc : ℕ} {pkt : List Byte} (hk : Kept w s0 s) (w_events : w .events = true) (w_fabric : w .fabric = true) (w_egress : w .egress = true) :
    Kept w s0 (State.ludomRead s port tc pkt) := by
  unfold State.ludomRead
  have ht := kept_ludomTake (port := port) (tc := tc) (pkt := pkt) (atNs := 0) hk w_fabric
  revert ht
  generalize s.ludomTake port tc pkt 0 = tk
  intro ht
  cases tk with
  | dropped t => exact ht
  | ok c p =>
    simp only []
    have h0 : Kept w s0 (s.takeIngress port tc pkt.length) := kept_takeIngress hk w_fabric
    generalize s.takeIngress port tc pkt.length = t0 at h0 ⊢
    repeat' first | intro _ | (with_reducible first | assumption | apply kept_ludomTake | apply kept_takeIngress | apply kept_notReady | apply kept_ackConn | apply kept_bumpFabric | apply kept_setConn | apply kept_refuse | apply kept_sendReads | apply kept_mapConn | apply Kept.ite | apply KeptT.dropped | exact KeptT.ok | apply KeptT.ite | apply Kept.foldl | apply Kept.foldl_fst) | split

theorem kept_plainWrite {s0 : State} {s : State} {n : ℕ} {p : LPkt} {offNs : ℕ} (hk : Kept w s0 s) (w_host : w .host = true) (w_events : w .events = true) (w_stiles : w .stiles = true) (w_mesh : w .mesh = true) (w_fabric : w .fabric = true) (w_egress : w .egress = true) (w_t1 : w .t1 = true) :
    Kept w s0 (State.plainWrite s n p offNs) := by
  unfold State.plainWrite
  try dsimp only
  repeat' first | intro _ | (with_reducible first | assumption | apply kept_tryWrite | apply kept_mapConn | apply kept_ackConn | apply kept_batchDone | apply Kept.ite | apply Kept.ite_fst | apply Kept.foldl | apply Kept.foldl_fst) | split

theorem kept_writeNow {s0 : State} {s : State} {c : Conn} {p : LPkt} {pkt : List Byte} {atNs : ℕ} (hk : Kept w s0 s) (w_host : w .host = true) (w_events : w .events = true) (w_stiles : w .stiles = true) (w_mesh : w .mesh = true) (w_fabric : w .fabric = true) (w_egress : w .egress = true) (w_t1 : w .t1 = true) :
    Kept w s0 (State.writeNow s c p pkt atNs) := by
  unfold State.writeNow
  try dsimp only
  repeat' first | intro _ | (with_reducible first | assumption | apply kept_ackConn | apply kept_mapConn | apply kept_placeFinal | apply kept_plainWrite | apply kept_setConn | apply Kept.ite | apply Kept.foldl | apply Kept.foldl_fst) | split

theorem kept_ludomWrite {s0 : State} {s : State} {port : ℕ} {tc : ℕ} {pkt : List Byte} {atNs : ℕ} (hk : Kept w s0 s) (w_host : w .host = true) (w_events : w .events = true) (w_stiles : w .stiles = true) (w_mesh : w .mesh = true) (w_fabric : w .fabric = true) (w_egress : w .egress = true) (w_t1 : w .t1 = true) :
    Kept w s0 (State.ludomWrite s port tc pkt atNs) := by
  unfold State.ludomWrite
  try dsimp only
  repeat' first | intro _ | (with_reducible first | assumption | apply kept_ludomTake | apply kept_takeIngress | apply kept_notReady | apply kept_ackConn | apply kept_bumpFabric | apply kept_writeNow | apply Kept.ite | apply KeptT.dropped | exact KeptT.ok | apply KeptT.ite | apply Kept.foldl | apply Kept.foldl_fst) | split | (with_reducible first | refine Kept.fst (by assumption) ?_ | refine KeptT.of (by assumption) ?_)

theorem kept_mbxCommand {s0 : State} {s : State} {op : ℕ} {f : ℕ} {arg : Word64} (hk : Kept w s0 s) (w_regs : w .regs = true) :
    Kept w s0 (State.mbxCommand s op f arg) := by
  unfold State.mbxCommand
  try dsimp only
  repeat' first | intro _ | (with_reducible first | assumption | apply kept_mbxGo | apply kept_mbxPutArg | apply kept_mbxPutCmd)

theorem kept_micro {s0 : State} {s : State} {i : ℕ} {op : ℕ} {f : State → Burrow → ℕ → State} (hk : Kept w s0 s) (w_warren : w .warren = true) (hf : ∀ x0 x1 x2, Kept w s0 x0 → Kept w s0 (f x0 x1 x2)) :
    Kept w s0 (State.micro s i op f) := by
  unfold State.micro
  try dsimp only
  repeat' first | intro _ | (with_reducible first | assumption | apply hf | apply kept_setBurrow | apply Kept.ite | apply Kept.foldl | apply Kept.foldl_fst) | split

theorem kept_planSignal {s0 : State} {s : State} {i : ℕ} {n : ℕ} (hk : Kept w s0 s) (w_host : w .host = true) (w_events : w .events = true) (w_stiles : w .stiles = true) :
    Kept w s0 (State.planSignal s i n) := by
  unfold State.planSignal
  try dsimp only
  repeat' first | intro _ | (with_reducible first | assumption | apply kept_stileApply)

theorem kept_microDone {s0 : State} {s : State} {a1 : ℕ} (hk : Kept w s0 s) (w_host : w .host = true) (w_events : w .events = true) (w_stiles : w .stiles = true) :
    Kept w s0 (State.microDone s a1) := by
  unfold State.microDone
  try dsimp only
  repeat' first | intro _ | (with_reducible first | assumption | apply kept_planSignal | apply Kept.ite)

theorem kept_mismatch {s0 : State} {s : State} {fn : ℕ} {table : ℕ} {owner : ℕ} {status : ℕ} (hk : Kept w s0 s) (w_events : w .events = true) (w_tables : w .tables = true) :
    Kept w s0 (State.mismatch s fn table owner status) := by
  unfold State.mismatch
  try dsimp only
  repeat' first | intro _ | (with_reducible first | assumption | apply kept_raise | apply Kept.ite | apply Kept.foldl | apply Kept.foldl_fst | ((fail_if_success apply Kept.mk_same); first | apply Kept.mk_tables))

theorem kept_setMove {s0 : State} {s : State} {m : Move} (hk : Kept w s0 s) (w_tiers : w .tiers = true) :
    Kept w s0 (State.setMove s m) := by
  unfold State.setMove
  try dsimp only
  repeat' first | intro _ | (with_reducible first | assumption | apply Kept.ite | apply Kept.foldl | apply Kept.foldl_fst | ((fail_if_success apply Kept.mk_same); first | apply Kept.mk_tiers))

theorem kept_moveFails {s0 : State} {s : State} {r : MoveRec} {m : Move} (hk : Kept w s0 s) (w_events : w .events = true) (w_warren : w .warren = true) (w_tiers : w .tiers = true) (w_search : w .search = true) (w_tables : w .tables = true) (w_flash : w .flash = true) (w_faults : w .faults = true) (w_obs : w .obs = true) :
    Kept w s0 (State.moveFails s r m) := by
  unfold State.moveFails
  try dsimp only
  repeat' first | intro _ | (with_reducible first | assumption | apply kept_badBlockAt | apply kept_dropMove | apply kept_classBump | apply kept_raiseNamed | apply kept_setMove | apply Kept.ite | apply Kept.foldl | apply Kept.foldl_fst) | split

theorem kept_moveSignals {s0 : State} {s : State} {m : Move} (hk : Kept w s0 s) (w_host : w .host = true) (w_events : w .events = true) (w_stiles : w .stiles = true) (w_mesh : w .mesh = true) :
    Kept w s0 (State.moveSignals s m) := by
  unfold State.moveSignals
  try dsimp only
  repeat' first | intro _ | (with_reducible first | assumption | apply kept_boardLanded | apply kept_planSignal | apply Kept.ite | apply Kept.foldl | apply Kept.foldl_fst) | split

theorem kept_moveLands {s0 : State} {s : State} {num : ℕ} {poisoned : Bool} (hk : Kept w s0 s) (w_host : w .host = true) (w_events : w .events = true) (w_stiles : w .stiles = true) (w_mesh : w .mesh = true) (w_warren : w .warren = true) (w_tiers : w .tiers = true) (w_search : w .search = true) (w_tables : w .tables = true) (w_flash : w .flash = true) (w_t1 : w .t1 = true) (w_hostMem : w .hostMem = true) (w_faults : w .faults = true) (w_obs : w .obs = true) :
    Kept w s0 (State.moveLands s num poisoned) := by
  unfold State.moveLands
  try dsimp only
  repeat' first | intro _ | (with_reducible first | assumption | apply kept_moveFails | apply kept_moveSignals | apply kept_landAt | apply kept_dropMove | apply Kept.ite | apply Kept.foldl | apply Kept.foldl_fst) | split

theorem kept_sendVector {s0 : State} {s : State} {f : ℕ} {v : ℕ} (hk : Kept w s0 s) (w_host : w .host = true) :
    Kept w s0 (State.sendVector s f v) := by
  unfold State.sendVector
  try dsimp only
  repeat' first | intro _ | (with_reducible first | assumption | apply kept_setFn | apply Kept.ite | apply Kept.foldl | apply Kept.foldl_fst | ((fail_if_success apply Kept.mk_same); first | apply Kept.mk_host))

theorem kept_msixWrite {s0 : State} {s : State} {f : ℕ} {off : ℕ} {size : ℕ} {v : Word64} (hk : Kept w s0 s) (w_host : w .host = true) :
    Kept w s0 (State.msixWrite s f off size v) := by
  unfold State.msixWrite
  try dsimp only
  repeat' first | intro _ | (with_reducible first | assumption | apply kept_setFn | apply kept_sendVector | apply Kept.ite)

theorem kept_ringPut {s0 : State} {s : State} {f : ℕ} {r : ℕ} {x : Ring} (hk : Kept w s0 s) (w_host : w .host = true) :
    Kept w s0 (State.ringPut s f r x) := by
  unfold State.ringPut
  try dsimp only
  repeat' first | intro _ | (with_reducible first | assumption | apply kept_setRing | apply kept_bumpFn | apply Kept.ite)

theorem kept_sqTail {s0 : State} {s : State} {fn : ℕ} {ring : ℕ} {value : Word64} (hk : Kept w s0 s) (w_host : w .host = true) (w_events : w .events = true) :
    Kept w s0 (State.sqTail s fn ring value) := by
  unfold State.sqTail
  try dsimp only
  repeat' first | intro _ | (with_reducible first | assumption | apply kept_setRing | apply kept_haltRing | apply kept_bumpFn | apply Kept.ite)

theorem kept_ringWrite {s0 : State} {s : State} {f : ℕ} {r : ℕ} {o : ℕ} {v : Word64} (hk : Kept w s0 s) (w_host : w .host = true) (w_events : w .events = true) :
    Kept w s0 (State.ringWrite s f r o v) := by
  unfold State.ringWrite
  try dsimp only
  repeat' first | intro _ | (with_reducible first | assumption | apply kept_ringPut | apply kept_ringCfg | apply kept_sqTail | apply kept_cqHead | apply Kept.ite | apply Kept.foldl | apply Kept.foldl_fst) | split

theorem kept_rxTail {s0 : State} {s : State} {fn : ℕ} {value : Word64} (hk : Kept w s0 s) (w_host : w .host = true) :
    Kept w s0 (State.rxTail s fn value) := by
  unfold State.rxTail
  try dsimp only
  repeat' first | intro _ | (with_reducible first | assumption | apply kept_setFn | apply kept_bumpFn | apply Kept.ite)

theorem kept_rxWrite {s0 : State} {s : State} {f : ℕ} {o : ℕ} {v : Word64} (hk : Kept w s0 s) (w_host : w .host = true) (w_events : w .events = true) :
    Kept w s0 (State.rxWrite s f o v) := by
  unfold State.rxWrite
  try dsimp only
  repeat' first | intro _ | (with_reducible first | assumption | apply kept_setFn | apply kept_bumpFn | apply kept_ringCfg | apply kept_rxTail | apply Kept.ite | apply Kept.foldl | apply Kept.foldl_fst) | split

theorem kept_pagePut {s0 : State} {f : ℕ} {s : State} {o : ℕ} {v : Word64} (hk : Kept w s0 s) (w_host : w .host = true) (w_events : w .events = true) (w_stiles : w .stiles = true) :
    Kept w s0 (State.pagePut f s o v) := by
  unfold State.pagePut
  try dsimp only
  repeat' first | intro _ | (with_reducible first | assumption | apply kept_ringWrite | apply kept_evWrite | apply kept_rxWrite | apply kept_stileOutside | apply kept_setFn | apply Kept.ite | apply Kept.foldl | apply Kept.foldl_fst) | split

theorem kept_pageReg {s0 : State} {f : ℕ} {s : State} {o : ℕ} (hk : Kept w s0 s) (w_host : w .host = true) :
    KeptV w s0 (State.pageReg f s o) := by
  unfold State.pageReg
  extract_lets g plain
  have hp : ∀ v, KeptV w s0 (plain v) := by
    intro v
    unfold plain
    split
    · exact kept_wideReg hk
    · exact KeptV.none
  clear_value plain
  have h5 : ∀ o, KeptV w s0 (match slotAt o 0x1100 8 9 with
      | some i => rcReg (g.counters.getD i 0) (s.setFn { g with counters := g.counters.set i 0 })
      | none => none) := by
    intro o
    split
    · exact kept_rcReg (kept_setFn hk w_host)
    · exact KeptV.none
  refine KeptV.ite (hp _) (KeptV.ite (hp _) (KeptV.ite (hp _) ?_))
  split
  all_goals first | exact kept_wideReg hk | exact h5 _

theorem kept_pageRead {s0 : State} {s : State} {f : ℕ} {off : ℕ} {size : ℕ} (hk : Kept w s0 s) (w_host : w .host = true) (w_regs : w .regs = true) :
    Kept w s0 (State.pageRead s f off size) := by
  unfold State.pageRead
  try dsimp only
  repeat' first | intro _ | (with_reducible first | assumption | apply kept_returned | apply kept_regAccess | apply kept_pageReg | apply kept_bumpFn | apply Kept.ite | exact KeptQ.none | apply KeptQ.some | exact KeptV.none | apply KeptV.some | apply KeptV.ite | apply Kept.foldl | apply Kept.foldl_fst) | split | (with_reducible first | refine Kept.fst (by assumption) ?_ | refine KeptQ.of (by assumption) ?_)

theorem kept_pageWrite {s0 : State} {s : State} {f : ℕ} {off : ℕ} {size : ℕ} {v : Word64} (hk : Kept w s0 s) (w_host : w .host = true) (w_events : w .events = true) (w_stiles : w .stiles = true) :
    Kept w s0 (State.pageWrite s f off size v) := by
  unfold State.pageWrite
  try dsimp only
  repeat' first | intro _ | (with_reducible first | assumption | apply kept_msixWrite | apply kept_regWrite | apply kept_pageReg | apply kept_pagePut | apply kept_bumpFn | apply Kept.ite | exact KeptO.none | apply KeptO.some | apply KeptO.ite | exact KeptV.none | apply KeptV.some | apply KeptV.ite | apply Kept.foldl | apply Kept.foldl_fst) | split | (with_reducible first | refine Kept.fst (by assumption) ?_ | refine KeptO.of (by assumption) ?_)

theorem kept_pieceHere {s0 : State} {s : State} {r : FlashRead} {cw : Codeword} (hk : Kept w s0 s) (w_events : w .events = true) (w_search : w .search = true) (w_flash : w .flash = true) :
    Kept w s0 (State.pieceHere s r cw) := by
  unfold State.pieceHere
  try dsimp only
  repeat' first | intro _ | (with_reducible first | assumption | apply kept_setJob | apply kept_blockHere | apply Kept.ite | apply Kept.foldl | apply Kept.foldl_fst) | split

theorem kept_police {s0 : State} {s : State} {f : ℕ} {len : ℕ} (hk : Kept w s0 s) (w_egress : w .egress = true) :
    Kept w s0 (State.police s f len).1 := by
  unfold State.police
  try dsimp only
  repeat' first | intro _ | (with_reducible first | assumption | apply kept_setPolicer | apply Kept.ite | apply Kept.ite_fst)

theorem kept_pruneHist {s0 : State} {s : State} {t : TableDef} (hk : Kept w s0 s) (w_tables : w .tables = true) :
    Kept w s0 (State.pruneHist s t) := by
  unfold State.pruneHist
  try dsimp only
  repeat' first | intro _ | (with_reducible first | assumption | apply kept_setTable)

theorem kept_pruneOld {s0 : State} {s : State} (hk : Kept w s0 s) (w_search : w .search = true) (w_tables : w .tables = true) :
    Kept w s0 (State.pruneOld s) := by
  unfold State.pruneOld
  try dsimp only
  repeat' first | intro _ | (with_reducible first | assumption | apply kept_pruneHist | apply Kept.ite | apply Kept.foldl | apply Kept.foldl_fst | ((fail_if_success apply Kept.mk_same); first | apply Kept.mk_search))

theorem kept_putComp {s0 : State} {s : State} {f : ℕ} {r : ℕ} {a3 : Work} {c : Comp} (hk : Kept w s0 s) (w_host : w .host = true) (w_hostMem : w .hostMem = true) (w_obs : w .obs = true) :
    Kept w s0 (State.putComp s f r a3 c) := by
  unfold State.putComp
  try dsimp only
  repeat' first | intro _ | (with_reducible first | assumption | apply kept_hostWrite | apply kept_countComp | apply kept_setRing | apply Kept.ite | apply Kept.foldl | apply Kept.foldl_fst | ((fail_if_success apply Kept.mk_same); first | apply Kept.mk_host))

theorem kept_suspendErases {s0 : State} {s : State} {set : ℕ} {on : Bool} (hk : Kept w s0 s) (w_flash : w .flash = true) :
    Kept w s0 (State.suspendErases s set on) := by
  unfold State.suspendErases
  try dsimp only
  repeat' first | intro _ | (with_reducible first | assumption | apply Kept.ite | apply Kept.foldl | apply Kept.foldl_fst | ((fail_if_success apply Kept.mk_same); first | apply Kept.mk_flash))

theorem kept_readOver {s0 : State} {s : State} {set : ℕ} {id : ℕ} (hk : Kept w s0 s) (w_flash : w .flash = true) :
    Kept w s0 (State.readOver s set id) := by
  unfold State.readOver
  try dsimp only
  repeat' first | intro _ | (with_reducible first | assumption | apply kept_suspendErases)

theorem kept_readResp {s0 : State} {s : State} {port : ℕ} {tc : ℕ} {pkt : List Byte} (hk : Kept w s0 s) (w_mesh : w .mesh = true) (w_warren : w .warren = true) (w_fabric : w .fabric = true) (w_egress : w .egress = true) (w_t1 : w .t1 = true) :
    Kept w s0 (State.readResp s port tc pkt) := by
  unfold State.readResp
  try dsimp only
  repeat' first | intro _ | (with_reducible first | assumption | apply kept_ludomTake | apply kept_takeIngress | apply kept_bumpFabric | apply kept_placeBytes | apply kept_mapConn | apply kept_pumpRefill | apply Kept.ite | apply KeptT.dropped | exact KeptT.ok | apply KeptT.ite | apply Kept.foldl | apply Kept.foldl_fst) | split | (with_reducible first | refine Kept.fst (by assumption) ?_ | refine KeptT.of (by assumption) ?_)

theorem kept_rebuild {s0 : State} {s : State} {d : Desc} (hk : Kept w s0 s) (w_host : w .host = true) :
    Kept w s0 (State.rebuild s d) := by
  unfold State.rebuild
  try dsimp only
  repeat' first | intro _ | (with_reducible first | assumption | apply kept_finish | apply kept_endWith | apply Kept.ite | apply Kept.foldl | apply Kept.foldl_fst) | split

theorem kept_refillRow {s0 : State} {s : State} {x : Index} {r : RefillRow} (hk : Kept w s0 s) (w_flash : w .flash = true) :
    Kept w s0 (State.refillRow s x r) := by
  unfold State.refillRow
  try dsimp only
  repeat' first | intro _ | (with_reducible first | assumption | apply kept_logRecord | apply kept_bumpFlash | apply kept_jot | apply Kept.ite | apply Kept.ite_fst | apply Kept.foldl | apply Kept.foldl_fst | ((fail_if_success apply Kept.mk_same); first | apply Kept.mk_flash) | exact ⟨rfl, rfl⟩) | split

theorem kept_rejectCommit {s0 : State} {s : State} {d : Desc} {count : ℕ} {fail : ℕ} {reason : ℕ} (hk : Kept w s0 s) (w_host : w .host = true) :
    Kept w s0 (State.rejectCommit s d count fail reason) := by
  unfold State.rejectCommit
  try dsimp only
  repeat' first | intro _ | (with_reducible first | assumption | apply kept_finish | apply kept_endTxn)

theorem kept_retry {s0 : State} {s : State} {n : ℕ} {psn : ℕ} (hk : Kept w s0 s) (w_host : w .host = true) (w_events : w .events = true) (w_fabric : w .fabric = true) (w_egress : w .egress = true) :
    Kept w s0 (State.retry s n psn) := by
  unfold State.retry
  try dsimp only
  repeat' first | intro _ | (with_reducible first | assumption | apply kept_exhausted | apply kept_resend | apply Kept.ite | apply Kept.foldl | apply Kept.foldl_fst) | split

theorem kept_retryReads {s0 : State} {s : State} (hk : Kept w s0 s) (w_host : w .host = true) :
    Kept w s0 (State.retryReads s) := by
  unfold State.retryReads
  try dsimp only
  repeat' first | intro _ | (with_reducible first | assumption | apply Kept.ite | apply Kept.foldl | apply Kept.foldl_fst | ((fail_if_success apply Kept.mk_same); first | apply Kept.mk_host))

theorem kept_ringStatus {s0 : State} {s : State} {f : ℕ} {r : ℕ} (hk : Kept w s0 s) (w_host : w .host = true) (w_hostMem : w .hostMem = true) :
    Kept w s0 (State.ringStatus s f r) := by
  unfold State.ringStatus
  try dsimp only
  repeat' first | intro _ | (with_reducible first | assumption | apply kept_hostWrite | apply kept_setRing | apply kept_sendVector | apply Kept.ite)

theorem kept_roceAck {s0 : State} {s : State} {c : Conn} {psn : ℕ} {syndrome : ℕ} (hk : Kept w s0 s) (w_egress : w .egress = true) :
    Kept w s0 (State.roceAck s c psn syndrome) := by
  unfold State.roceAck
  try dsimp only
  repeat' first | intro _ | (with_reducible first | assumption | apply kept_sendOn)

theorem kept_roceAcked {s0 : State} {s : State} {n : ℕ} {psn : ℕ} (hk : Kept w s0 s) (w_fabric : w .fabric = true) :
    Kept w s0 (State.roceAcked s n psn) := by
  unfold State.roceAcked
  try dsimp only
  repeat' first | intro _ | (with_reducible first | assumption | apply kept_mapConn)

theorem kept_roceTake {s0 : State} {s : State} {n : ℕ} {op : ℕ} {code : ℕ} {p : RocePkt} (hk : Kept w s0 s) (w_fabric : w .fabric = true) (w_egress : w .egress = true) :
    KeptS w s0 (State.roceTake s n op code p) := by
  unfold State.roceTake
  try dsimp only
  repeat' first | intro _ | (with_reducible first | assumption | apply kept_bumpFabric | apply kept_waitCtx | apply kept_roceAck | apply Kept.ite | exact KeptS.inr | apply KeptS.inl | apply Kept.foldl | apply Kept.foldl_fst) | split

theorem kept_roceFail {s0 : State} {s : State} {c : Conn} {psn : ℕ} {syndrome : ℕ} (hk : Kept w s0 s) (w_fabric : w .fabric = true) (w_egress : w .egress = true) :
    Kept w s0 (State.roceFail s c psn syndrome) := by
  unfold State.roceFail
  try dsimp only
  repeat' first | intro _ | (with_reducible first | assumption | apply kept_mapConn | apply kept_roceAck)

theorem kept_rocePsn {s0 : State} {s : State} {n : ℕ} {k : ℕ} (hk : Kept w s0 s) (w_fabric : w .fabric = true) :
    Kept w s0 (State.rocePsn s n k) := by
  unfold State.rocePsn
  try dsimp only
  repeat' first | intro _ | (with_reducible first | assumption | apply kept_mapConn)

theorem kept_roceAtomic {s0 : State} {s : State} {n : ℕ} {opn : ℕ} {p : RocePkt} {f : ℕ → ℕ} (hk : Kept w s0 s) (w_events : w .events = true) (w_mesh : w .mesh = true) (w_fabric : w .fabric = true) (w_egress : w .egress = true) (w_t1 : w .t1 = true) :
    Kept w s0 (State.roceAtomic s n opn p f) := by
  unfold State.roceAtomic
  try dsimp only
  repeat' first | intro _ | (with_reducible first | assumption | apply kept_roceTake | apply kept_roceFail | apply kept_refuse | apply kept_atomic | apply kept_rocePsn | apply kept_mapConn | apply kept_sendOn | apply Kept.ite | apply Kept.ite_fst | exact KeptS.inr | apply KeptS.inl | apply Kept.foldl | apply Kept.foldl_fst) | split | (with_reducible first | refine Kept.fst (by assumption) ?_ | dsimp only | refine KeptS.of (by assumption) ?_)

theorem kept_roceRead {s0 : State} {s : State} {n : ℕ} {p : RocePkt} (hk : Kept w s0 s) (w_events : w .events = true) (w_fabric : w .fabric = true) (w_egress : w .egress = true) :
    Kept w s0 (State.roceRead s n p) := by
  unfold State.roceRead
  try dsimp only
  repeat' first | intro _ | (with_reducible first | assumption | apply kept_roceTake | apply kept_roceFail | apply kept_refuse | apply kept_rocePsn | apply kept_mapConn | apply kept_sendOn | apply Kept.ite | exact KeptS.inr | apply KeptS.inl | apply Kept.foldl | apply Kept.foldl_fst) | split | (with_reducible first | refine Kept.fst (by assumption) ?_ | refine KeptS.of (by assumption) ?_)

theorem kept_rxPut {s0 : State} {s : State} {f : ℕ} {conn : ℕ} {entry : ℕ} {buf : ℕ} {bs : List Byte} (hk : Kept w s0 s) (w_host : w .host = true) (w_hostMem : w .hostMem = true) :
    Kept w s0 (State.rxPut s f conn entry buf bs) := by
  unfold State.rxPut
  try dsimp only
  repeat' first | intro _ | (with_reducible first | assumption | apply kept_hostWrite | apply kept_setFn | apply kept_sendVector | apply Kept.ite | apply Kept.foldl | apply Kept.foldl_fst | ((fail_if_success apply Kept.mk_same); first | apply Kept.mk_host))

theorem kept_roceSend {s0 : State} {s : State} {n : ℕ} {p : RocePkt} (hk : Kept w s0 s) (w_host : w .host = true) (w_fabric : w .fabric = true) (w_egress : w .egress = true) (w_hostMem : w .hostMem = true) :
    Kept w s0 (State.roceSend s n p) := by
  unfold State.roceSend
  try dsimp only
  repeat' first | intro _ | (with_reducible first | assumption | apply kept_roceTake | apply kept_setConn | apply kept_rocePsn | apply kept_roceAck | apply kept_roceFail | apply kept_rxPut | apply Kept.ite | exact KeptS.inr | apply KeptS.inl | apply Kept.foldl | apply Kept.foldl_fst) | split | (with_reducible first | refine Kept.fst (by assumption) ?_ | refine KeptS.of (by assumption) ?_)

theorem kept_roceWrite {s0 : State} {s : State} {n : ℕ} {p : RocePkt} {imm : Bool} (hk : Kept w s0 s) (w_host : w .host = true) (w_events : w .events = true) (w_stiles : w .stiles = true) (w_mesh : w .mesh = true) (w_fabric : w .fabric = true) (w_egress : w .egress = true) (w_t1 : w .t1 = true) :
    Kept w s0 (State.roceWrite s n p imm) := by
  unfold State.roceWrite
  try dsimp only
  repeat' first | intro _ | (with_reducible first | assumption | apply kept_roceTake | apply kept_roceFail | apply kept_refuse | apply kept_placeFn | apply kept_mapConn | apply kept_stileOutside | apply kept_rocePsn | apply kept_roceAck | apply Kept.ite | exact KeptS.inr | apply KeptS.inl | apply Kept.foldl | apply Kept.foldl_fst) | split | (with_reducible first | refine Kept.fst (by assumption) ?_ | refine KeptS.of (by assumption) ?_)

theorem kept_runDesc {s0 : State} {s : State} {d : Desc} {op : ℕ} {check : State → Desc → Option ℕ} {need : State → Desc → ℕ} {body : State → Desc → State} (hk : Kept w s0 s) (w_host : w .host = true) (w_events : w .events = true) (w_obs : w .obs = true) (hbody : ∀ x0 x1, Kept w s0 x0 → Kept w s0 (body x0 x1)) :
    Kept w s0 (State.runDesc s d op check need body) := by
  unfold State.runDesc
  try dsimp only
  repeat' first | intro _ | (with_reducible first | assumption | apply hbody | apply kept_mapWork | apply kept_endWith | apply kept_haltRing | apply kept_admit | apply Kept.ite | exact KeptP.none | apply KeptP.some | apply KeptP.some' | apply KeptP.ite | apply KeptP.map | apply Kept.foldl | apply Kept.foldl_fst) | split | (with_reducible first | refine Kept.fst (by assumption) ?_ | refine KeptP.of (by assumption) ?_)

theorem kept_sampleTails {s0 : State} {s : State} (hk : Kept w s0 s) (w_host : w .host = true) :
    Kept w s0 (State.sampleTails s) := by
  unfold State.sampleTails
  try dsimp only
  repeat' first | intro _ | (with_reducible first | assumption | apply Kept.ite | apply Kept.foldl | apply Kept.foldl_fst | ((fail_if_success apply Kept.mk_same); first | apply Kept.mk_host))

theorem kept_searchFrame {s0 : State} {s : State} {f : ℕ} {atNs : ℕ} {raw : Word64} (hk : Kept w s0 s) (w_tick : w .tick = true) (w_events : w .events = true) :
    Kept w s0 (State.searchFrame s f atNs raw) := by
  unfold State.searchFrame
  try dsimp only
  repeat' first | intro _ | (with_reducible first | assumption | apply kept_setLine | apply kept_lineLocks | apply Kept.ite)

theorem kept_seedList {s0 : State} {s : State} {r : SeedList} (hk : Kept w s0 s) (w_tiers : w .tiers = true) (w_flash : w .flash = true) (w_t1 : w .t1 = true) :
    Kept w s0 (State.seedList s r) := by
  unfold State.seedList
  try dsimp only
  repeat' first | intro _ | (with_reducible first | assumption | apply kept_putHdr | apply kept_writeVecs | apply kept_logRecord | apply Kept.ite | apply Kept.ite_fst | exact KeptP.none | apply KeptP.some | apply KeptP.some' | apply KeptP.ite | apply KeptP.map | apply Kept.foldl | apply Kept.foldl_fst) | split | (with_reducible first | refine Kept.fst (by assumption) ?_ | refine KeptP.of (by assumption) ?_)

theorem kept_selectDone {s0 : State} {s : State} {j : SelectJob} (hk : Kept w s0 s) (w_host : w .host = true) (w_search : w .search = true) :
    Kept w s0 (State.selectDone s j) := by
  unfold State.selectDone
  try dsimp only
  repeat' first | intro _ | (with_reducible first | assumption | apply kept_finish | apply kept_dropSelect)

theorem kept_selectEgress {s0 : State} {s : State} (hk : Kept w s0 s) (w_host : w .host = true) (w_search : w .search = true) :
    Kept w s0 (State.selectEgress s) := by
  unfold State.selectEgress
  try dsimp only
  repeat' first | intro _ | (with_reducible first | assumption | apply kept_selectDone | apply Kept.ite | apply Kept.foldl)

theorem kept_setSelect {s0 : State} {s : State} {j : SelectJob} (hk : Kept w s0 s) (w_search : w .search = true) :
    Kept w s0 (State.setSelect s j) := by
  unfold State.setSelect
  try dsimp only
  repeat' first | intro _ | (with_reducible first | assumption | apply Kept.ite | apply Kept.foldl | apply Kept.foldl_fst | ((fail_if_success apply Kept.mk_same); first | apply Kept.mk_search))

theorem kept_selectLands {s0 : State} {s : State} {j : SelectJob} {good : Bool} (hk : Kept w s0 s) (w_host : w .host = true) (w_events : w .events = true) (w_search : w .search = true) :
    Kept w s0 (State.selectLands s j good) := by
  unfold State.selectLands
  try dsimp only
  repeat' first | intro _ | (with_reducible first | assumption | apply kept_setSelect | apply kept_finish | apply kept_dropSelect | apply kept_raiseNamed | apply Kept.ite)

theorem kept_sendBeacon {s0 : State} {s : State} (hk : Kept w s0 s) (w_tick : w .tick = true) (w_egress : w .egress = true) :
    Kept w s0 (State.sendBeacon s) := by
  unfold State.sendBeacon
  try dsimp only
  repeat' first | intro _ | (with_reducible first | assumption | apply kept_enqueue | apply Kept.ite | apply Kept.foldl | apply Kept.foldl_fst | ((fail_if_success apply Kept.mk_same); first | refine Kept.mk_tick ?_ ?_ ?_) | exact ⟨rfl, rfl⟩)

theorem kept_sendFront {s0 : State} {s : State} {q : FrontQuery} (hk : Kept w s0 s) (w_host : w .host = true) (w_search : w .search = true) (w_fabric : w .fabric = true) (w_egress : w .egress = true) (w_obs : w .obs = true) :
    Kept w s0 (State.sendFront s q) := by
  unfold State.sendFront
  try dsimp only
  repeat' first | intro _ | (with_reducible first | assumption | apply kept_finish | apply kept_dropFront | apply kept_fireStep | apply kept_setFront | apply kept_addJob | apply kept_sendAsk | apply Kept.ite | apply Kept.foldl | apply Kept.foldl_fst) | split

theorem kept_sendReplication {s0 : State} {s : State} (hk : Kept w s0 s) (w_tables : w .tables = true) (w_fabric : w .fabric = true) (w_egress : w .egress = true) :
    Kept w s0 (State.sendReplication s) := by
  unfold State.sendReplication
  try dsimp only
  repeat' first | intro _ | (with_reducible first | assumption | apply kept_sendPlan | apply Kept.ite | apply Kept.foldl | apply Kept.foldl_fst | ((fail_if_success apply Kept.mk_same); first | apply Kept.mk_tables) | exact ⟨rfl, rfl⟩) | split

theorem kept_takeResult {s0 : State} {s : State} {f : ℕ} {q : Word64} {ring : Option ℕ} {r : ShardRes} (hk : Kept w s0 s) (w_search : w .search = true) :
    Kept w s0 (State.takeResult s f q ring r) := by
  unfold State.takeResult
  try dsimp only
  repeat' first | intro _ | (with_reducible first | assumption | apply kept_setFront | apply Kept.ite | apply Kept.foldl | apply Kept.foldl_fst) | split

theorem kept_sendResults {s0 : State} {s : State} (hk : Kept w s0 s) (w_search : w .search = true) (w_fabric : w .fabric = true) (w_egress : w .egress = true) :
    Kept w s0 (State.sendResults s) := by
  unfold State.sendResults
  try dsimp only
  repeat' first | intro _ | (with_reducible first | assumption | apply kept_takeResult | apply kept_sendPlan | apply Kept.ite | apply Kept.foldl | apply Kept.foldl_fst | ((fail_if_success apply Kept.mk_same); first | apply Kept.mk_search) | exact ⟨rfl, rfl⟩) | split

theorem kept_sendSearches {s0 : State} {s : State} (hk : Kept w s0 s) (w_host : w .host = true) (w_search : w .search = true) (w_fabric : w .fabric = true) (w_egress : w .egress = true) (w_obs : w .obs = true) :
    Kept w s0 (State.sendSearches s) := by
  unfold State.sendSearches
  try dsimp only
  repeat' first | intro _ | (with_reducible first | assumption | apply kept_sendFront | apply Kept.ite | apply Kept.foldl)

theorem kept_takeSlots {s0 : State} {s : State} {f : ℕ} {c : ℕ} {o : ℕ} {ls : List ℕ} (hk : Kept w s0 s) (w_tiers : w .tiers = true) :
    KeptO w s0 (State.takeSlots s f c o ls) := by
  unfold State.takeSlots
  try dsimp only
  repeat' first | intro _ | (with_reducible first | assumption | apply Kept.ite | exact KeptO.none | apply KeptO.some | apply KeptO.ite | apply Kept.foldl | apply Kept.foldl_fst | apply Kept.foldl_L | apply Kept.foldl_G | ((fail_if_success apply Kept.mk_same); first | apply Kept.mk_tiers))

theorem kept_serveBlock {s0 : State} {s : State} {a : Ask} (hk : Kept w s0 s) (w_tiers : w .tiers = true) :
    Kept w s0 (State.serveBlock s a).1 := by
  unfold State.serveBlock
  try dsimp only
  repeat' first | intro _ | (with_reducible first | assumption | apply kept_takeSlots | apply Kept.ite | apply Kept.ite_fst | exact KeptO.none | apply KeptO.some | apply KeptO.ite | apply Kept.foldl | apply Kept.foldl_fst) | split | (with_reducible first | refine Kept.fst (by assumption) ?_ | refine KeptO.of (by assumption) ?_)

theorem kept_serveBlocks {s0 : State} {s : State} {a1 : ℕ} {a2 : List Byte} (hk : Kept w s0 s) (w_tiers : w .tiers = true) :
    Kept w s0 (State.serveBlocks s a1 a2).1 := by
  induction a1 generalizing s a2 with
  | zero => exact hk
  | succ n ih =>
    unfold State.serveBlocks
    first | exact ih (kept_serveBlock hk) | exact ih (kept_serveBlock hk w_tiers)

theorem kept_setQuiesce {s0 : State} {s : State} {f : ℕ} {on : Bool} (hk : Kept w s0 s) (w_host : w .host = true) :
    Kept w s0 (State.setQuiesce s f on) := by
  unfold State.setQuiesce
  try dsimp only
  repeat' first | intro _ | (with_reducible first | assumption | apply kept_setFn)

theorem kept_setRead {s0 : State} {s : State} {r : FlashRead} (hk : Kept w s0 s) (w_flash : w .flash = true) :
    Kept w s0 (State.setRead s r) := by
  unfold State.setRead
  try dsimp only
  repeat' first | intro _ | (with_reducible first | assumption | apply Kept.ite | apply Kept.foldl | apply Kept.foldl_fst | ((fail_if_success apply Kept.mk_same); first | apply Kept.mk_flash))

theorem kept_setSeg {s0 : State} {s : State} {g : Segment} (hk : Kept w s0 s) (w_flash : w .flash = true) :
    Kept w s0 (State.setSeg s g) := by
  unfold State.setSeg
  try dsimp only
  repeat' first | intro _ | (with_reducible first | assumption | apply Kept.ite | apply Kept.foldl | apply Kept.foldl_fst | ((fail_if_success apply Kept.mk_same); first | apply Kept.mk_flash))

theorem kept_settleLog {s0 : State} {s : State} (hk : Kept w s0 s) (w_flash : w .flash = true) :
    Kept w s0 (State.settleLog s) := by
  unfold State.settleLog
  try dsimp only
  repeat' first | intro _ | (with_reducible first | assumption | apply Kept.ite | apply Kept.foldl | apply Kept.foldl_fst | ((fail_if_success apply Kept.mk_same); first | apply Kept.mk_flash))

theorem kept_settleQuiesces {s0 : State} {s : State} (hk : Kept w s0 s) (w_host : w .host = true) (w_events : w .events = true) :
    Kept w s0 (State.settleQuiesces s) := by
  unfold State.settleQuiesces
  try dsimp only
  repeat' first | intro _ | (with_reducible first | assumption | apply kept_finish | apply kept_raise | apply Kept.ite | apply Kept.foldl | apply Kept.foldl_fst | ((fail_if_success apply Kept.mk_same); first | apply Kept.mk_host))

theorem kept_settleWatches {s0 : State} {s : State} (hk : Kept w s0 s) (w_host : w .host = true) (w_obs : w .obs = true) :
    Kept w s0 (State.settleWatches s) := by
  unfold State.settleWatches
  try dsimp only
  repeat' first | intro _ | (with_reducible first | assumption | apply kept_watchNone | apply Kept.ite | apply Kept.foldl)

theorem kept_shardEgress {s0 : State} {s : State} (hk : Kept w s0 s) (w_search : w .search = true) (w_flash : w .flash = true) (w_obs : w .obs = true) :
    Kept w s0 (State.shardEgress s) := by
  unfold State.shardEgress
  try dsimp only
  repeat' first | intro _ | (with_reducible first | assumption | apply kept_jobEgress | apply Kept.ite | apply Kept.foldl)

theorem kept_smbusPut {s0 : State} {s : State} {off : ℕ} {v : Word32} (hk : Kept w s0 s) (w_tick : w .tick = true) (w_clock : w .clock = true) (w_ptp : w .ptp = true) (w_plan : w .plan = true) (w_items : w .items = true) (w_host : w .host = true) (w_events : w .events = true) (w_stiles : w .stiles = true) (w_mesh : w .mesh = true) (w_warren : w .warren = true) (w_tiers : w .tiers = true) (w_search : w .search = true) (w_tables : w .tables = true) (w_flash : w .flash = true) (w_fabric : w .fabric = true) (w_egress : w .egress = true) (w_faults : w .faults = true) (w_power : w .power = true) (w_test : w .test = true) (w_cycle : w .cycle = true) (w_regs : w .regs = true) (w_obs : w .obs = true) (w_free : w .free = true) :
    KeptO w s0 (State.smbusPut s off v) := by
  unfold State.smbusPut
  try dsimp only
  repeat' first | intro _ | (with_reducible first | assumption | apply kept_resetCtrl | apply kept_lcRequest | apply kept_putAuth | apply kept_boardWrite | apply Kept.ite | exact KeptO.none | apply KeptO.some | apply KeptO.ite | apply Kept.foldl | apply Kept.foldl_fst) | split

theorem kept_smbusWord {s0 : State} {s : State} {off : ℕ} (hk : Kept w s0 s) (w_tick : w .tick = true) (w_host : w .host = true) (w_stiles : w .stiles = true) (w_warren : w .warren = true) (w_flash : w .flash = true) (w_fabric : w .fabric = true) (w_egress : w .egress = true) (w_power : w .power = true) (w_test : w .test = true) (w_regs : w .regs = true) (w_free : w .free = true) :
    KeptQ w s0 (State.smbusWord s off) := by
  unfold State.smbusWord
  try dsimp only
  repeat' first | intro _ | (with_reducible first | assumption | apply kept_bar0 | apply kept_tookFresh | apply Kept.ite | exact KeptQ.none | apply KeptQ.some | exact KeptV.none | apply KeptV.some | apply KeptV.ite | apply Kept.foldl | apply Kept.foldl_fst | ((fail_if_success apply Kept.mk_same); first | apply Kept.mk_regs) | exact ⟨rfl, rfl⟩) | split | (with_reducible first | refine Kept.fst (by assumption) ?_ | refine KeptV.of (by assumption) ?_)

theorem kept_sourceCheck {s0 : State} {s : State} (hk : Kept w s0 s) (w_tick : w .tick = true) (w_events : w .events = true) :
    Kept w s0 (State.sourceCheck s) := by
  unfold State.sourceCheck
  try dsimp only
  repeat' first | intro _ | (with_reducible first | assumption | apply kept_raiseNamed | apply Kept.ite | apply Kept.foldl | apply Kept.foldl_fst | ((fail_if_success apply Kept.mk_same); first | refine Kept.mk_tick ?_ ?_ ?_) | exact ⟨rfl, rfl⟩)

theorem kept_sourceTicks {s0 : State} {s : State} (hk : Kept w s0 s) (w_tick : w .tick = true) :
    Kept w s0 (State.sourceTicks s) := by
  unfold State.sourceTicks
  try dsimp only
  repeat' first | intro _ | (with_reducible first | assumption | apply Kept.ite | apply Kept.foldl | apply Kept.foldl_fst | ((fail_if_success apply Kept.mk_same); first | refine Kept.mk_tick ?_ ?_ ?_) | exact ⟨rfl, rfl⟩)

theorem kept_startClock {s0 : State} {s : State} {atNs : ℕ} (hk : Kept w s0 s) (w_obs : w .obs = true) (w_free : w .free = true) :
    Kept w s0 (State.startClock s atNs) := by
  unfold State.startClock
  try dsimp only
  repeat' first | intro _ | (with_reducible first | assumption | apply kept_tookFresh | apply Kept.ite | apply Kept.foldl | apply Kept.foldl_fst | ((fail_if_success apply Kept.mk_same); first | apply Kept.mk_obs))

theorem kept_startFrame {s0 : State} {s : State} {p : ℕ} {tc : ℕ} {offPs : ℕ} {x : EgPort} {f : EgFrame} (hk : Kept w s0 s) (w_fabric : w .fabric = true) (w_egress : w .egress = true) :
    Kept w s0 (State.startFrame s p tc offPs x f) := by
  unfold State.startFrame
  try dsimp only
  repeat' first | intro _ | (with_reducible first | assumption | apply kept_bumpPort | apply kept_setEgPort | apply kept_mapConn | apply Kept.ite | apply Kept.foldl | apply Kept.foldl_fst) | split

theorem kept_syncDone {s0 : State} {s : State} {stamp : ℕ} {rx : ℕ} (hk : Kept w s0 s) (w_ptp : w .ptp = true) (w_events : w .events = true) :
    Kept w s0 (State.syncDone s stamp rx) := by
  unfold State.syncDone
  try dsimp only
  repeat' first | intro _ | (with_reducible first | assumption | apply kept_raiseNamed | apply Kept.ite | apply Kept.foldl | apply Kept.foldl_fst | ((fail_if_success apply Kept.mk_same); first | apply Kept.mk_ptp))

theorem kept_takeAnswer {s0 : State} {s : State} {ws : List Want} {e : Word64 × Word64} {w0 : ℕ} {w1 : ℕ} {row : List Byte} (hk : Kept w s0 s) (w_events : w .events = true) (w_tables : w .tables = true) :
    Kept w s0 (State.takeAnswer s ws e w0 w1 row) := by
  unfold State.takeAnswer
  try dsimp only
  repeat' first | intro _ | (with_reducible first | assumption | apply kept_placeRow | apply kept_mismatch | apply Kept.ite | apply Kept.foldl | apply Kept.foldl_fst) | split

theorem kept_takeAnswers {s0 : State} {s : State} {ws : List Want} {body : List Byte} {a3 : List ((Word64 × Word64) × ℕ)} {a4 : ℕ} (hk : Kept w s0 s) (w_events : w .events = true) (w_tables : w .tables = true) :
    Kept w s0 (State.takeAnswers s ws body a3 a4) := by
  induction a3 generalizing s a4 with
  | nil => exact hk
  | cons x r ih =>
    unfold State.takeAnswers
    try dsimp only
    repeat' first | intro _ | (with_reducible first | assumption | apply ih | apply kept_takeAnswer)

theorem kept_takeBlocks {s0 : State} {s : State} {ch : ℕ} {a2 : List (ShardJob × List ℕ)} {a3 : List Byte} (hk : Kept w s0 s) (w_events : w .events = true) (w_search : w .search = true) (w_flash : w .flash = true) :
    Kept w s0 (State.takeBlocks s ch a2 a3) := by
  induction a2 generalizing s a3 with
  | nil => exact hk
  | cons x r ih =>
    unfold State.takeBlocks
    try dsimp only
    repeat' first | intro _ | (with_reducible first | assumption | apply ih | apply kept_joinPairs | apply Kept.ite)

theorem kept_takeBoard {s0 : State} {s : State} {tile : ℕ} {id : ℕ} {base : ℕ} {len : ℕ} (hk : Kept w s0 s) (w_mesh : w .mesh = true) :
    Kept w s0 (State.takeBoard s tile id base len) := by
  unfold State.takeBoard
  try dsimp only
  repeat' first | intro _ | (with_reducible first | assumption | apply kept_setTile)

theorem kept_takeEdge {s0 : State} {s : State} {atNs : ℕ} (hk : Kept w s0 s) (w_tick : w .tick = true) (w_clock : w .clock = true) (w_events : w .events = true) (w_obs : w .obs = true) (w_free : w .free = true) :
    Kept w s0 (State.takeEdge s atNs) := by
  unfold State.takeEdge
  try dsimp only
  repeat' first | intro _ | (with_reducible first | assumption | apply kept_edgeCheck | apply kept_sourceCheck | apply kept_startClock | apply kept_raiseNamed | apply kept_sourceTicks | apply Kept.ite | apply Kept.foldl | apply Kept.foldl_fst | ((fail_if_success apply Kept.mk_same); first | apply Kept.mk_clock))

theorem kept_takeWaiting {s0 : State} {s : State} {a1 : WaitPkt} (hk : Kept w s0 s) (w_host : w .host = true) (w_events : w .events = true) (w_stiles : w .stiles = true) (w_mesh : w .mesh = true) (w_warren : w .warren = true) (w_fabric : w .fabric = true) (w_egress : w .egress = true) (w_t1 : w .t1 = true) (w_hostMem : w .hostMem = true) :
    Kept w s0 (State.takeWaiting s a1) := by
  unfold State.takeWaiting
  try dsimp only
  repeat' first | intro _ | (with_reducible first | assumption | apply kept_ludomWrite | apply kept_ludomRead | apply kept_readResp | apply kept_acked | apply kept_bumpFabric | apply kept_roceSend | apply kept_roceWrite | apply kept_roceRead | apply kept_roceAtomic | apply Kept.ite | apply Kept.foldl | apply Kept.foldl_fst) | split

theorem kept_tileBeyond {s0 : State} {s : State} {tile : ℕ} {t : TileIn} {r : CmdRec} (hk : Kept w s0 s) (w_host : w .host = true) (w_events : w .events = true) (w_stiles : w .stiles = true) (w_mesh : w .mesh = true) (w_tiers : w .tiers = true) :
    Kept w s0 (State.tileBeyond s tile t r) := by
  unfold State.tileBeyond
  try dsimp only
  repeat' first | (with_reducible first | exact fun _ => rfl | exact Kept.no (by assumption) | exact id | exact fun _ => ⟨rfl, rfl⟩) | intro _ | (with_reducible first | assumption | apply kept_planSignal | apply kept_takeBoard | apply kept_stileApply | apply Kept.ite | apply Kept.foldl | apply Kept.foldl_fst | ((fail_if_success apply Kept.mk_same); first | apply Kept.mk_mesh | apply Kept.mk_all) | exact ⟨rfl, rfl⟩) | split

theorem kept_traceBegin {s0 : State} {s : State} {engine : ℕ} {opcode : ℕ} {phase : ℕ} {cycle : ℕ} {slip : ℕ} (hk : Kept w s0 s) (w_obs : w .obs = true) :
    Kept w s0 (State.traceBegin s engine opcode phase cycle slip) := by
  unfold State.traceBegin
  try dsimp only
  repeat' first | intro _ | (with_reducible first | assumption | apply kept_traceRec)

theorem kept_tileRun {s0 : State} {s : State} {tile : ℕ} {cycle : ℕ} {held : Bool} {r : CmdRec} (hk : Kept w s0 s) (w_host : w .host = true) (w_events : w .events = true) (w_stiles : w .stiles = true) (w_mesh : w .mesh = true) (w_tiers : w .tiers = true) (w_obs : w .obs = true) :
    Kept w s0 (State.tileRun s tile cycle held r) := by
  unfold State.tileRun
  try dsimp only
  repeat' first | intro _ | (with_reducible first | assumption | apply kept_latchTile | apply kept_setTile | apply kept_tileBeyond | apply kept_traceEnd | apply kept_traceBegin | apply Kept.ite)

theorem kept_tileTry {s0 : State} {s : State} {tile : ℕ} {cycle : ℕ} {held : Bool} {r : CmdRec} (hk : Kept w s0 s) (w_host : w .host = true) (w_events : w .events = true) (w_stiles : w .stiles = true) (w_mesh : w .mesh = true) (w_tiers : w .tiers = true) (w_obs : w .obs = true) :
    KeptO w s0 (State.tileTry s tile cycle held r) := by
  unfold State.tileTry
  try dsimp only
  repeat' first | intro _ | (with_reducible first | assumption | apply kept_stileApply | apply kept_tileRun | apply Kept.ite | exact KeptO.none | apply KeptO.some | apply KeptO.ite)

theorem kept_tileDrain {s0 : State} {s : State} {tile : ℕ} {a2 : ℕ} {a3 : ℕ} (hk : Kept w s0 s) (w_host : w .host = true) (w_events : w .events = true) (w_stiles : w .stiles = true) (w_mesh : w .mesh = true) (w_tiers : w .tiers = true) (w_obs : w .obs = true) :
    Kept w s0 (State.tileDrain s tile a2 a3) := by
  induction a2 generalizing s a3 with
  | zero => exact hk
  | succ n ih =>
    unfold State.tileDrain
    try dsimp only
    repeat' first | intro _ | (with_reducible first | assumption | apply ih | apply kept_tileTry | apply kept_setTile | apply Kept.ite | exact KeptO.none | apply KeptO.some | apply KeptO.ite | apply Kept.foldl | apply Kept.foldl_fst) | split | (with_reducible first | refine Kept.fst (by assumption) ?_ | refine KeptO.of (by assumption) ?_)

theorem kept_tileIssue {s0 : State} {s : State} {tile : ℕ} {r : CmdRec} (hk : Kept w s0 s) (w_host : w .host = true) (w_events : w .events = true) (w_stiles : w .stiles = true) (w_mesh : w .mesh = true) (w_tiers : w .tiers = true) (w_obs : w .obs = true) :
    Kept w s0 (State.tileIssue s tile r) := by
  unfold State.tileIssue
  try dsimp only
  repeat' first | intro _ | (with_reducible first | assumption | apply kept_setTile | apply kept_tileTry | apply Kept.ite | exact KeptO.none | apply KeptO.some | apply KeptO.ite | apply Kept.foldl | apply Kept.foldl_fst) | split | (with_reducible first | refine Kept.fst (by assumption) ?_ | refine KeptO.of (by assumption) ?_)

theorem kept_traceWrite {s0 : State} {s : State} {r : ℕ × ℕ × Word64 × Word64} (hk : Kept w s0 s) (w_hostMem : w .hostMem = true) (w_obs : w .obs = true) :
    Kept w s0 (State.traceWrite s r) := by
  unfold State.traceWrite
  try dsimp only
  repeat' first | intro _ | (with_reducible first | assumption | apply kept_hostWrite | apply kept_total | apply Kept.ite | apply Kept.foldl | apply Kept.foldl_fst | ((fail_if_success apply Kept.mk_same); first | apply Kept.mk_obs))

theorem kept_valueFails {s0 : State} {s : State} {f : ℕ} {r : ℕ} {q : Word64} {item : ℕ} (hk : Kept w s0 s) (w_host : w .host = true) (w_obs : w .obs = true) :
    Kept w s0 (State.valueFails s f r q item) := by
  unfold State.valueFails
  try dsimp only
  repeat' first | intro _ | (with_reducible first | assumption | apply kept_carry | apply kept_mapWork | apply kept_rejectCommit | apply Kept.ite | apply Kept.foldl | apply Kept.foldl_fst) | split

theorem kept_beginBody {s0 : State} {s : State} {d : Desc} (hk : Kept w s0 s) (w_host : w .host = true) :
    Kept w s0 (beginBody s d) := by
  unfold beginBody
  try dsimp only
  repeat' first | intro _ | (with_reducible first | assumption | apply kept_endWith | apply Kept.ite | apply Kept.foldl | apply Kept.foldl_fst | ((fail_if_success apply Kept.mk_same); first | apply Kept.mk_host))

theorem kept_commitBody {s0 : State} {s : State} {d : Desc} (hk : Kept w s0 s) (w_plan : w .plan = true) (w_host : w .host = true) :
    Kept w s0 (commitBody s d) := by
  unfold commitBody
  try dsimp only
  repeat' first | (with_reducible first | exact fun _ => rfl | exact Kept.no (by assumption) | exact id | exact fun _ => ⟨rfl, rfl⟩) | intro _ | (with_reducible first | assumption | apply kept_endWith | apply kept_afterCommits | apply kept_endTxn | apply kept_rejectCommit | apply Kept.ite | apply Kept.foldl | apply Kept.foldl_fst | ((fail_if_success apply Kept.mk_same); first | apply Kept.mk_host | apply Kept.mk_plan) | exact ⟨rfl, rfl⟩) | split

theorem kept_connOpenBody {s0 : State} {s : State} {d : Desc} (hk : Kept w s0 s) (w_host : w .host = true) (w_fabric : w .fabric = true) (w_free : w .free = true) :
    Kept w s0 (connOpenBody s d) := by
  unfold connOpenBody
  try dsimp only
  repeat' first | intro _ | (with_reducible first | assumption | apply kept_endWith | apply kept_finish | apply kept_setConn | apply kept_tookFresh | apply Kept.ite | apply Kept.foldl | apply Kept.foldl_fst | ((fail_if_success apply Kept.mk_same); first | apply Kept.mk_fabric) | exact ⟨rfl, rfl⟩) | split

theorem kept_searchBody {s0 : State} {s : State} {d : Desc} (hk : Kept w s0 s) (w_host : w .host = true) (w_search : w .search = true) :
    Kept w s0 (searchBody s d) := by
  unfold searchBody
  try dsimp only
  repeat' first | intro _ | (with_reducible first | assumption | apply kept_endWith | apply Kept.ite | apply Kept.foldl | apply Kept.foldl_fst | ((fail_if_success apply Kept.mk_same); first | apply Kept.mk_search) | exact ⟨rfl, rfl⟩) | split

theorem kept_selectBody {s0 : State} {s : State} {d : Desc} (hk : Kept w s0 s) (w_search : w .search = true) :
    Kept w s0 (selectBody s d) := by
  unfold selectBody
  try dsimp only
  repeat' first | intro _ | (with_reducible first | assumption | apply Kept.ite | apply Kept.foldl | apply Kept.foldl_fst | ((fail_if_success apply Kept.mk_same); first | apply Kept.mk_search))

theorem kept_lookupBody {s0 : State} {pk : Bool} {s : State} {d : Desc} (hk : Kept w s0 s) (w_host : w .host = true) (w_tables : w .tables = true) (w_obs : w .obs = true) :
    Kept w s0 (lookupBody pk s d) := by
  unfold lookupBody
  try dsimp only
  repeat' first | intro _ | (with_reducible first | assumption | apply kept_endWith | apply kept_setLookup | apply kept_fireStep | apply Kept.ite | apply Kept.foldl | apply Kept.foldl_fst) | split

theorem kept_updateBody {s0 : State} {op : ℕ} {s : State} {d : Desc} (hk : Kept w s0 s) (w_host : w .host = true) (w_events : w .events = true) (w_tables : w .tables = true) (w_flash : w .flash = true) :
    Kept w s0 (updateBody op s d) := by
  unfold updateBody
  try dsimp only
  repeat' first | intro _ | (with_reducible first | assumption | apply kept_rebuild | apply kept_endWith | apply kept_tellFull | apply kept_logRecord | apply kept_mapResult | apply Kept.ite | apply Kept.ite_fst | apply Kept.foldl | apply Kept.foldl_fst | ((fail_if_success apply Kept.mk_same); first | apply Kept.mk_tables))

theorem kept_loadBody {s0 : State} {s : State} {d : Desc} (hk : Kept w s0 s) (w_host : w .host = true) (w_tables : w .tables = true) :
    Kept w s0 (loadBody s d) := by
  unfold loadBody
  try dsimp only
  repeat' first | intro _ | (with_reducible first | assumption | apply kept_rebuild | apply Kept.ite | apply Kept.foldl | apply Kept.foldl_fst | ((fail_if_success apply Kept.mk_same); first | apply Kept.mk_tables))

theorem kept_formatBody {s0 : State} {s : State} {d : Desc} (hk : Kept w s0 s) (w_host : w .host = true) (w_flash : w .flash = true) (w_free : w .free = true) :
    Kept w s0 (formatBody s d) := by
  unfold formatBody
  try dsimp only
  repeat' first | intro _ | (with_reducible first | assumption | apply kept_jot | apply kept_setSb | apply kept_formatEnds | apply Kept.ite | apply Kept.foldl | apply Kept.foldl_fst | ((fail_if_success apply Kept.mk_same); first | apply Kept.mk_flash))

theorem kept_setBody {s0 : State} {s : State} {d : Desc} (hk : Kept w s0 s) (w_host : w .host = true) :
    Kept w s0 (setBody s d) := by
  unfold setBody
  try dsimp only
  repeat' first | intro _ | (with_reducible first | assumption | apply kept_endWith | apply kept_endTxn | apply Kept.ite | apply Kept.foldl | apply Kept.foldl_fst | ((fail_if_success apply Kept.mk_same); first | apply Kept.mk_host))

theorem kept_rollbackBody {s0 : State} {s : State} {d : Desc} (hk : Kept w s0 s) (w_host : w .host = true) :
    Kept w s0 (rollbackBody s d) := by
  unfold rollbackBody
  try dsimp only
  repeat' first | intro _ | (with_reducible first | assumption | apply kept_endWith | apply kept_endTxn)

theorem kept_planStageBody {s0 : State} {s : State} {d : Desc} (hk : Kept w s0 s) (w_plan : w .plan = true) :
    Kept w s0 (planStageBody s d) := by
  unfold planStageBody
  try dsimp only
  repeat' first | intro _ | (with_reducible first | assumption | apply Kept.ite | apply Kept.foldl | apply Kept.foldl_fst | ((fail_if_success apply Kept.mk_same); first | apply Kept.mk_plan))

theorem kept_quiesceBody {s0 : State} {target : ℕ} {on : Bool} {s : State} {d : Desc} (hk : Kept w s0 s) (w_host : w .host = true) (w_fabric : w .fabric = true) (w_egress : w .egress = true) :
    Kept w s0 (quiesceBody target on s d) := by
  unfold quiesceBody
  try dsimp only
  repeat' first | intro _ | (with_reducible first | assumption | apply kept_endWith | apply kept_setQuiesce | apply kept_sendPlan | apply Kept.ite | apply Kept.foldl | apply Kept.foldl_fst | ((fail_if_success apply Kept.mk_same); first | apply Kept.mk_host) | exact ⟨rfl, rfl⟩) | split

theorem kept_watchBody {s0 : State} {s : State} {d : Desc} (hk : Kept w s0 s) (w_obs : w .obs = true) :
    Kept w s0 (watchBody s d) := by
  unfold watchBody
  try dsimp only
  repeat' first | intro _ | (with_reducible first | assumption | apply Kept.ite | apply Kept.foldl | apply Kept.foldl_fst | ((fail_if_success apply Kept.mk_same); first | apply Kept.mk_obs))

end Sys2Proof.Machine
end

