-- ==== Sys2Proof/Laws/KeptCommands.lean ====
section
/-! SUPPORT. The meaning of every command keeps what Kept says, for the parts that it writes. -/

set_option linter.unusedTactic false
set_option linter.unusedVariables false

namespace Sys2Proof.Machine

variable {w : Area → Bool}

theorem kept_execTickEdge {s0 : State} {atNs : ℕ} {s : State} (hk : Kept w s0 s) (w_tick : w .tick = true) (w_clock : w .clock = true) (w_plan : w .plan = true) (w_items : w .items = true) (w_host : w .host = true) (w_events : w .events = true) (w_stiles : w .stiles = true) (w_mesh : w .mesh = true) (w_warren : w .warren = true) (w_tiers : w .tiers = true) (w_search : w .search = true) (w_tables : w .tables = true) (w_flash : w .flash = true) (w_fabric : w .fabric = true) (w_egress : w .egress = true) (w_t1 : w .t1 = true) (w_faults : w .faults = true) (w_power : w .power = true) (w_obs : w .obs = true) (w_free : w .free = true) :
    KeptR w s0 (execTickEdge atNs s) := by
  unfold execTickEdge
  try dsimp only
  repeat' first | intro _ | (with_reducible first | assumption | apply kept_boundary | apply kept_takeEdge | apply kept_egressBoundary | apply kept_endSwath | apply Kept.ite | apply KeptR.next)

theorem kept_execQuarantineEnd {s0 : State} {stile : ℕ} {s : State} (hk : Kept w s0 s) (w_stiles : w .stiles = true) :
    KeptR w s0 (execQuarantineEnd stile s) := by
  unfold execQuarantineEnd
  try dsimp only
  repeat' first | intro _ | (with_reducible first | assumption | apply kept_setStile | apply Kept.ite | apply KeptR.next)

theorem kept_execRmaQuarantineEnd {s0 : State} {entry : ℕ} {s : State} (hk : Kept w s0 s) (w_fabric : w .fabric = true) :
    KeptR w s0 (execRmaQuarantineEnd entry s) := by
  unfold execRmaQuarantineEnd
  try dsimp only
  repeat' first | intro _ | (with_reducible first | assumption | apply Kept.ite | apply KeptR.next | apply KeptR.ite | apply Kept.foldl | apply Kept.foldl_fst | ((fail_if_success apply Kept.mk_same); first | apply Kept.mk_fabric))

theorem kept_execIngestStart {s0 : State} {s : State} (hk : Kept w s0 s) (w_tick : w .tick = true) (w_clock : w .clock = true) (w_host : w .host = true) (w_events : w .events = true) (w_obs : w .obs = true) :
    KeptR w s0 (execIngestStart s) := by
  unfold execIngestStart
  try dsimp only
  repeat' first | intro _ | (with_reducible first | assumption | apply kept_fetchAll | apply kept_sampleTails | apply kept_retryReads | apply Kept.ite | apply KeptR.next | apply KeptR.ite | apply Kept.foldl | apply Kept.foldl_fst | ((fail_if_success apply Kept.mk_same); first | apply Kept.mk_clock))

theorem kept_execIngestEnd {s0 : State} {s : State} (hk : Kept w s0 s) (w_tick : w .tick = true) (w_clock : w .clock = true) (w_host : w .host = true) (w_events : w .events = true) (w_warren : w .warren = true) (w_tiers : w .tiers = true) (w_search : w .search = true) (w_tables : w .tables = true) (w_flash : w .flash = true) (w_fabric : w .fabric = true) (w_egress : w .egress = true) (w_t1 : w .t1 = true) (w_obs : w .obs = true) (w_free : w .free = true) :
    KeptR w s0 (execIngestEnd s) := by
  unfold execIngestEnd
  try dsimp only
  repeat' first | intro _ | (with_reducible first | assumption | apply kept_frontsIngest | apply kept_ingestShard | apply kept_checkLagging | apply Kept.ite | apply KeptR.next | apply KeptR.ite | apply Kept.foldl | apply Kept.foldl_fst | ((fail_if_success apply Kept.mk_same); first | apply Kept.mk_clock))

theorem kept_execGuardPhaseStart {s0 : State} {lastEndNs : ℕ} {s : State} (hk : Kept w s0 s) (w_tick : w .tick = true) (w_clock : w .clock = true) (w_host : w .host = true) (w_events : w .events = true) (w_tiers : w .tiers = true) (w_search : w .search = true) (w_tables : w .tables = true) (w_flash : w .flash = true) (w_egress : w .egress = true) (w_t1 : w .t1 = true) (w_faults : w .faults = true) (w_obs : w .obs = true) :
    KeptR w s0 (execGuardPhaseStart lastEndNs s) := by
  unfold execGuardPhaseStart
  try dsimp only
  repeat' first | intro _ | (with_reducible first | assumption | apply kept_sendBeacon | apply kept_catchUpDone | apply kept_pruneOld | apply kept_applyUpdates | apply kept_loadsDue | apply kept_installLists | apply kept_fireTicks | apply Kept.ite | apply KeptR.next | apply KeptR.ite | apply Kept.foldl | apply Kept.foldl_fst | ((fail_if_success apply Kept.mk_same); first | apply Kept.mk_clock))

theorem kept_execEgressWindowStart {s0 : State} {s : State} (hk : Kept w s0 s) (w_tick : w .tick = true) (w_clock : w .clock = true) (w_host : w .host = true) (w_events : w .events = true) (w_search : w .search = true) (w_tables : w .tables = true) (w_flash : w .flash = true) (w_fabric : w .fabric = true) (w_egress : w .egress = true) (w_obs : w .obs = true) :
    KeptR w s0 (execEgressWindowStart s) := by
  unfold execEgressWindowStart
  try dsimp only
  repeat' first | intro _ | (with_reducible first | assumption | apply kept_settleQuiesces | apply kept_selectEgress | apply kept_shardEgress | apply kept_sendSearches | apply kept_settleWatches | apply kept_endUpdates | apply kept_sendReplication | apply kept_frontsEgress | apply kept_sendResults | apply Kept.ite | apply KeptR.next | apply KeptR.ite | apply Kept.foldl | apply Kept.foldl_fst | ((fail_if_success apply Kept.mk_same); first | apply Kept.mk_clock))

theorem kept_execCompletionWrite {s0 : State} {fn : ℕ} {ring : ℕ} {s : State} (hk : Kept w s0 s) (w_host : w .host = true) (w_hostMem : w .hostMem = true) (w_obs : w .obs = true) :
    KeptR w s0 (execCompletionWrite fn ring s) := by
  unfold execCompletionWrite
  try dsimp only
  repeat' first | intro _ | (with_reducible first | assumption | apply kept_putComp | apply kept_ringStatus | apply kept_setRing | apply Kept.ite | apply KeptR.next | apply KeptR.ite | apply Kept.foldl | apply Kept.foldl_fst) | split

theorem kept_execExchangeWindowBClose {s0 : State} {s : State} (hk : Kept w s0 s) (w_host : w .host = true) (w_tables : w .tables = true) (w_obs : w .obs = true) (w_free : w .free = true) :
    KeptR w s0 (execExchangeWindowBClose s) := by
  unfold execExchangeWindowBClose
  try dsimp only
  repeat' first | intro _ | (with_reducible first | assumption | apply kept_closeLookup | apply Kept.ite | apply KeptR.next | apply KeptR.ite | apply Kept.foldl)

theorem kept_execTickLineFrame {s0 : State} {frame : Word64} {atNs : ℕ} {s : State} (hk : Kept w s0 s) (w_tick : w .tick = true) (w_events : w .events = true) :
    KeptR w s0 (execTickLineFrame frame atNs s) := by
  unfold execTickLineFrame
  try dsimp only
  repeat' first | intro _ | (with_reducible first | assumption | apply kept_acceptFrame | apply kept_ignoreFrame | apply kept_searchFrame | apply Kept.ite | apply KeptR.next)

theorem kept_execLineLockLost {s0 : State} {s : State} (hk : Kept w s0 s) (w_tick : w .tick = true) (w_events : w .events = true) :
    KeptR w s0 (execLineLockLost s) := by
  unfold execLineLockLost
  try dsimp only
  repeat' first | intro _ | (with_reducible first | assumption | apply kept_raiseNamed | apply kept_setLine | apply Kept.ite | apply KeptR.next | apply KeptR.ite)

theorem kept_execRootEdgeAnnounce {s0 : State} {atNs : ℕ} {s : State} (hk : Kept w s0 s) (w_tick : w .tick = true) :
    KeptR w s0 (execRootEdgeAnnounce atNs s) := by
  unfold execRootEdgeAnnounce
  try dsimp only
  repeat' first | intro _ | (with_reducible first | assumption | apply Kept.ite | apply KeptR.next | apply KeptR.ite | apply Kept.foldl | apply Kept.foldl_fst | ((fail_if_success apply Kept.mk_same); first | refine Kept.mk_tick ?_ ?_ ?_) | exact ⟨rfl, rfl⟩)

theorem kept_execPpsPulse {s0 : State} {atNs : ℕ} {s : State} (hk : Kept w s0 s) (w_tick : w .tick = true) :
    KeptR w s0 (execPpsPulse atNs s) := by
  unfold execPpsPulse
  try dsimp only
  repeat' first | intro _ | (with_reducible first | assumption | apply Kept.ite | apply KeptR.next | apply KeptR.ite | apply Kept.foldl | apply Kept.foldl_fst | ((fail_if_success apply Kept.mk_same); first | refine Kept.mk_tick ?_ ?_ ?_) | exact ⟨rfl, rfl⟩)

theorem kept_execBeaconReceived {s0 : State} {port : ℕ} {payload : List Word64} {s : State} (hk : Kept w s0 s) (w_tick : w .tick = true) :
    KeptR w s0 (execBeaconReceived port payload s) := by
  unfold execBeaconReceived
  try dsimp only
  repeat' first | intro _ | (with_reducible first | assumption | apply Kept.ite | apply KeptR.next | apply KeptR.ite | apply Kept.foldl | apply Kept.foldl_fst | ((fail_if_success apply Kept.mk_same); first | refine Kept.mk_tick ?_ ?_ ?_) | exact ⟨rfl, rfl⟩)

theorem kept_execBeaconLost {s0 : State} {s : State} (hk : Kept w s0 s) (w_tick : w .tick = true) :
    KeptR w s0 (execBeaconLost s) := by
  unfold execBeaconLost
  try dsimp only
  repeat' first | intro _ | (with_reducible first | assumption | apply Kept.ite | apply KeptR.next | apply KeptR.ite | apply Kept.foldl | apply Kept.foldl_fst | ((fail_if_success apply Kept.mk_same); first | refine Kept.mk_tick ?_ ?_ ?_) | exact ⟨rfl, rfl⟩)

theorem kept_execSourceSwitchBack {s0 : State} {s : State} (hk : Kept w s0 s) (w_tick : w .tick = true) :
    KeptR w s0 (execSourceSwitchBack s) := by
  unfold execSourceSwitchBack
  try dsimp only
  repeat' first | intro _ | (with_reducible first | assumption | apply Kept.ite | apply KeptR.next | apply KeptR.ite | apply Kept.foldl | apply Kept.foldl_fst | ((fail_if_success apply Kept.mk_same); first | refine Kept.mk_tick ?_ ?_ ?_) | exact ⟨rfl, rfl⟩)

theorem kept_execHoldoverNotAligned {s0 : State} {s : State} (hk : Kept w s0 s) (w_tick : w .tick = true) :
    KeptR w s0 (execHoldoverNotAligned s) := by
  unfold execHoldoverNotAligned
  try dsimp only
  repeat' first | intro _ | (with_reducible first | assumption | apply Kept.ite | apply KeptR.next | apply KeptR.ite | apply Kept.foldl | apply Kept.foldl_fst | ((fail_if_success apply Kept.mk_same); first | refine Kept.mk_tick ?_ ?_ ?_) | exact ⟨rfl, rfl⟩)

theorem kept_execHoldoverEnd {s0 : State} {s : State} (hk : Kept w s0 s) (w_tick : w .tick = true) :
    KeptR w s0 (execHoldoverEnd s) := by
  unfold execHoldoverEnd
  try dsimp only
  repeat' first | intro _ | (with_reducible first | assumption | apply Kept.ite | apply KeptR.next | apply KeptR.ite | apply Kept.foldl | apply Kept.foldl_fst | ((fail_if_success apply Kept.mk_same); first | refine Kept.mk_tick ?_ ?_ ?_) | exact ⟨rfl, rfl⟩)

theorem kept_execPtpSync {s0 : State} {port : ℕ} {msg : PtpMsg} {s : State} (hk : Kept w s0 s) (w_ptp : w .ptp = true) (w_events : w .events = true) :
    KeptR w s0 (execPtpSync port msg s) := by
  unfold execPtpSync
  try dsimp only
  repeat' first | intro _ | (with_reducible first | assumption | apply kept_syncDone | apply Kept.ite | apply KeptR.next | apply KeptR.ite | apply Kept.foldl | apply Kept.foldl_fst | ((fail_if_success apply Kept.mk_same); first | apply Kept.mk_ptp))

theorem kept_execPtpFollowUp {s0 : State} {port : ℕ} {msg : PtpMsg} {s : State} (hk : Kept w s0 s) (w_ptp : w .ptp = true) (w_events : w .events = true) :
    KeptR w s0 (execPtpFollowUp port msg s) := by
  unfold execPtpFollowUp
  try dsimp only
  repeat' first | intro _ | (with_reducible first | assumption | apply kept_syncDone | apply Kept.ite | apply KeptR.next | apply KeptR.ite | apply Kept.foldl | apply Kept.foldl_fst) | split

theorem kept_execPtpAnnounce {s0 : State} {port : ℕ} {ann : PtpAnnounce} {s : State} (hk : Kept w s0 s) (w_ptp : w .ptp = true) :
    KeptR w s0 (execPtpAnnounce port ann s) := by
  unfold execPtpAnnounce
  try dsimp only
  repeat' first | intro _ | (with_reducible first | assumption | apply Kept.ite | apply KeptR.next | apply KeptR.ite | apply Kept.foldl | apply Kept.foldl_fst | ((fail_if_success apply Kept.mk_same); first | apply Kept.mk_ptp))

theorem kept_execPtpDelayResp {s0 : State} {port : ℕ} {msg : PtpMsg} {s : State} (hk : Kept w s0 s) (w_ptp : w .ptp = true) :
    KeptR w s0 (execPtpDelayResp port msg s) := by
  unfold execPtpDelayResp
  try dsimp only
  repeat' first | intro _ | (with_reducible first | assumption | apply Kept.ite | apply KeptR.next | apply KeptR.ite | apply Kept.foldl | apply Kept.foldl_fst | ((fail_if_success apply Kept.mk_same); first | apply Kept.mk_ptp) | exact ⟨rfl, rfl⟩) | split

theorem kept_execPtpLockLost {s0 : State} {s : State} (hk : Kept w s0 s) (w_ptp : w .ptp = true) (w_events : w .events = true) :
    KeptR w s0 (execPtpLockLost s) := by
  unfold execPtpLockLost
  try dsimp only
  repeat' first | intro _ | (with_reducible first | assumption | apply kept_raiseNamed | apply Kept.ite | apply KeptR.next | apply KeptR.ite | apply Kept.foldl | apply Kept.foldl_fst | ((fail_if_success apply Kept.mk_same); first | apply Kept.mk_ptp))

theorem kept_execPlanValidationDone {s0 : State} {s : State} (hk : Kept w s0 s) (w_plan : w .plan = true) (w_host : w .host = true) :
    KeptR w s0 (execPlanValidationDone s) := by
  unfold execPlanValidationDone
  try dsimp only
  repeat' first | intro _ | (with_reducible first | assumption | apply kept_finish | apply Kept.ite | apply KeptR.next | apply KeptR.ite | apply Kept.foldl | apply Kept.foldl_fst | ((fail_if_success apply Kept.mk_same); first | apply Kept.mk_plan) | exact ⟨rfl, rfl⟩) | split

theorem kept_execMatmul {s0 : State} {tile : ℕ} {r : CmdRec} {s : State} (hk : Kept w s0 s) (w_host : w .host = true) (w_events : w .events = true) (w_stiles : w .stiles = true) (w_mesh : w .mesh = true) (w_tiers : w .tiers = true) (w_obs : w .obs = true) :
    KeptR w s0 (execMatmul tile r s) := by
  unfold execMatmul
  try dsimp only
  repeat' first | intro _ | (with_reducible first | assumption | apply kept_tileIssue | apply Kept.ite | apply KeptR.next)

theorem kept_execDist {s0 : State} {tile : ℕ} {r : CmdRec} {s : State} (hk : Kept w s0 s) (w_host : w .host = true) (w_events : w .events = true) (w_stiles : w .stiles = true) (w_mesh : w .mesh = true) (w_tiers : w .tiers = true) (w_obs : w .obs = true) :
    KeptR w s0 (execDist tile r s) := by
  unfold execDist
  try dsimp only
  repeat' first | intro _ | (with_reducible first | assumption | apply kept_tileIssue | apply Kept.ite | apply KeptR.next)

theorem kept_execLutb {s0 : State} {tile : ℕ} {r : CmdRec} {s : State} (hk : Kept w s0 s) (w_host : w .host = true) (w_events : w .events = true) (w_stiles : w .stiles = true) (w_mesh : w .mesh = true) (w_tiers : w .tiers = true) (w_obs : w .obs = true) :
    KeptR w s0 (execLutb tile r s) := by
  unfold execLutb
  try dsimp only
  repeat' first | intro _ | (with_reducible first | assumption | apply kept_tileIssue | apply Kept.ite | apply KeptR.next)

theorem kept_execScan {s0 : State} {tile : ℕ} {r : CmdRec} {s : State} (hk : Kept w s0 s) (w_host : w .host = true) (w_events : w .events = true) (w_stiles : w .stiles = true) (w_mesh : w .mesh = true) (w_tiers : w .tiers = true) (w_obs : w .obs = true) :
    KeptR w s0 (execScan tile r s) := by
  unfold execScan
  try dsimp only
  repeat' first | intro _ | (with_reducible first | assumption | apply kept_tileIssue | apply Kept.ite | apply KeptR.next)

theorem kept_execFilter {s0 : State} {tile : ℕ} {r : CmdRec} {s : State} (hk : Kept w s0 s) (w_host : w .host = true) (w_events : w .events = true) (w_stiles : w .stiles = true) (w_mesh : w .mesh = true) (w_tiers : w .tiers = true) (w_obs : w .obs = true) :
    KeptR w s0 (execFilter tile r s) := by
  unfold execFilter
  try dsimp only
  repeat' first | intro _ | (with_reducible first | assumption | apply kept_tileIssue | apply Kept.ite | apply KeptR.next)

theorem kept_execQuant {s0 : State} {tile : ℕ} {r : CmdRec} {s : State} (hk : Kept w s0 s) (w_host : w .host = true) (w_events : w .events = true) (w_stiles : w .stiles = true) (w_mesh : w .mesh = true) (w_tiers : w .tiers = true) (w_obs : w .obs = true) :
    KeptR w s0 (execQuant tile r s) := by
  unfold execQuant
  try dsimp only
  repeat' first | intro _ | (with_reducible first | assumption | apply kept_tileIssue | apply Kept.ite | apply KeptR.next)

theorem kept_execDqacc {s0 : State} {tile : ℕ} {r : CmdRec} {s : State} (hk : Kept w s0 s) (w_host : w .host = true) (w_events : w .events = true) (w_stiles : w .stiles = true) (w_mesh : w .mesh = true) (w_tiers : w .tiers = true) (w_obs : w .obs = true) :
    KeptR w s0 (execDqacc tile r s) := by
  unfold execDqacc
  try dsimp only
  repeat' first | intro _ | (with_reducible first | assumption | apply kept_tileIssue | apply Kept.ite | apply KeptR.next)

theorem kept_execScaleRow {s0 : State} {tile : ℕ} {r : CmdRec} {s : State} (hk : Kept w s0 s) (w_host : w .host = true) (w_events : w .events = true) (w_stiles : w .stiles = true) (w_mesh : w .mesh = true) (w_tiers : w .tiers = true) (w_obs : w .obs = true) :
    KeptR w s0 (execScaleRow tile r s) := by
  unfold execScaleRow
  try dsimp only
  repeat' first | intro _ | (with_reducible first | assumption | apply kept_tileIssue | apply Kept.ite | apply KeptR.next)

theorem kept_execScaleScalar {s0 : State} {tile : ℕ} {r : CmdRec} {s : State} (hk : Kept w s0 s) (w_host : w .host = true) (w_events : w .events = true) (w_stiles : w .stiles = true) (w_mesh : w .mesh = true) (w_tiers : w .tiers = true) (w_obs : w .obs = true) :
    KeptR w s0 (execScaleScalar tile r s) := by
  unfold execScaleScalar
  try dsimp only
  repeat' first | intro _ | (with_reducible first | assumption | apply kept_tileIssue | apply Kept.ite | apply KeptR.next)

theorem kept_execScaleNorm {s0 : State} {tile : ℕ} {r : CmdRec} {s : State} (hk : Kept w s0 s) (w_host : w .host = true) (w_events : w .events = true) (w_stiles : w .stiles = true) (w_mesh : w .mesh = true) (w_tiers : w .tiers = true) (w_obs : w .obs = true) :
    KeptR w s0 (execScaleNorm tile r s) := by
  unfold execScaleNorm
  try dsimp only
  repeat' first | intro _ | (with_reducible first | assumption | apply kept_tileIssue | apply Kept.ite | apply KeptR.next)

theorem kept_execTopkArray {s0 : State} {tile : ℕ} {r : CmdRec} {s : State} (hk : Kept w s0 s) (w_host : w .host = true) (w_events : w .events = true) (w_stiles : w .stiles = true) (w_mesh : w .mesh = true) (w_tiers : w .tiers = true) (w_obs : w .obs = true) :
    KeptR w s0 (execTopkArray tile r s) := by
  unfold execTopkArray
  try dsimp only
  repeat' first | intro _ | (with_reducible first | assumption | apply kept_tileIssue | apply Kept.ite | apply KeptR.next)

theorem kept_execTopkRegister {s0 : State} {tile : ℕ} {r : CmdRec} {s : State} (hk : Kept w s0 s) (w_host : w .host = true) (w_events : w .events = true) (w_stiles : w .stiles = true) (w_mesh : w .mesh = true) (w_tiers : w .tiers = true) (w_obs : w .obs = true) :
    KeptR w s0 (execTopkRegister tile r s) := by
  unfold execTopkRegister
  try dsimp only
  repeat' first | intro _ | (with_reducible first | assumption | apply kept_tileIssue | apply Kept.ite | apply KeptR.next)

theorem kept_execMerge {s0 : State} {tile : ℕ} {r : CmdRec} {s : State} (hk : Kept w s0 s) (w_host : w .host = true) (w_events : w .events = true) (w_stiles : w .stiles = true) (w_mesh : w .mesh = true) (w_tiers : w .tiers = true) (w_obs : w .obs = true) :
    KeptR w s0 (execMerge tile r s) := by
  unfold execMerge
  try dsimp only
  repeat' first | intro _ | (with_reducible first | assumption | apply kept_tileIssue | apply Kept.ite | apply KeptR.next)

theorem kept_execTileGather {s0 : State} {tile : ℕ} {r : CmdRec} {s : State} (hk : Kept w s0 s) (w_host : w .host = true) (w_events : w .events = true) (w_stiles : w .stiles = true) (w_mesh : w .mesh = true) (w_tiers : w .tiers = true) (w_obs : w .obs = true) :
    KeptR w s0 (execTileGather tile r s) := by
  unfold execTileGather
  try dsimp only
  repeat' first | intro _ | (with_reducible first | assumption | apply kept_tileIssue | apply Kept.ite | apply KeptR.next)

theorem kept_execReduce {s0 : State} {tile : ℕ} {r : CmdRec} {s : State} (hk : Kept w s0 s) (w_host : w .host = true) (w_events : w .events = true) (w_stiles : w .stiles = true) (w_mesh : w .mesh = true) (w_tiers : w .tiers = true) (w_obs : w .obs = true) :
    KeptR w s0 (execReduce tile r s) := by
  unfold execReduce
  try dsimp only
  repeat' first | intro _ | (with_reducible first | assumption | apply kept_tileIssue | apply Kept.ite | apply KeptR.next)

theorem kept_execCopyLocal {s0 : State} {tile : ℕ} {r : CmdRec} {s : State} (hk : Kept w s0 s) (w_host : w .host = true) (w_events : w .events = true) (w_stiles : w .stiles = true) (w_mesh : w .mesh = true) (w_tiers : w .tiers = true) (w_obs : w .obs = true) :
    KeptR w s0 (execCopyLocal tile r s) := by
  unfold execCopyLocal
  try dsimp only
  repeat' first | intro _ | (with_reducible first | assumption | apply kept_tileIssue | apply Kept.ite | apply KeptR.next)

theorem kept_execCopyRemote {s0 : State} {tile : ℕ} {r : CmdRec} {s : State} (hk : Kept w s0 s) (w_host : w .host = true) (w_events : w .events = true) (w_stiles : w .stiles = true) (w_mesh : w .mesh = true) (w_tiers : w .tiers = true) (w_obs : w .obs = true) :
    KeptR w s0 (execCopyRemote tile r s) := by
  unfold execCopyRemote
  try dsimp only
  repeat' first | intro _ | (with_reducible first | assumption | apply kept_tileIssue | apply Kept.ite | apply KeptR.next)

theorem kept_execRemoteCopyLanding {s0 : State} {id : ℕ} {s : State} (hk : Kept w s0 s) (w_host : w .host = true) (w_events : w .events = true) (w_stiles : w .stiles = true) (w_mesh : w .mesh = true) :
    KeptR w s0 (execRemoteCopyLanding id s) := by
  unfold execRemoteCopyLanding
  try dsimp only
  repeat' first | intro _ | (with_reducible first | assumption | apply kept_setTile | apply kept_boardLanded | apply kept_planSignal | apply Kept.ite | apply KeptR.next | apply KeptR.ite | apply Kept.foldl | apply Kept.foldl_fst | ((fail_if_success apply Kept.mk_same); first | apply Kept.mk_mesh) | exact ⟨rfl, rfl⟩) | split

theorem kept_execShload {s0 : State} {tile : ℕ} {r : CmdRec} {s : State} (hk : Kept w s0 s) (w_host : w .host = true) (w_events : w .events = true) (w_stiles : w .stiles = true) (w_mesh : w .mesh = true) (w_tiers : w .tiers = true) (w_obs : w .obs = true) :
    KeptR w s0 (execShload tile r s) := by
  unfold execShload
  try dsimp only
  repeat' first | intro _ | (with_reducible first | assumption | apply kept_tileIssue | apply Kept.ite | apply KeptR.next)

theorem kept_execShstore {s0 : State} {tile : ℕ} {r : CmdRec} {s : State} (hk : Kept w s0 s) (w_host : w .host = true) (w_events : w .events = true) (w_stiles : w .stiles = true) (w_mesh : w .mesh = true) (w_tiers : w .tiers = true) (w_obs : w .obs = true) :
    KeptR w s0 (execShstore tile r s) := by
  unfold execShstore
  try dsimp only
  repeat' first | intro _ | (with_reducible first | assumption | apply kept_tileIssue | apply Kept.ite | apply KeptR.next)

theorem kept_execSheafCommit {s0 : State} {num : ℕ} {s : State} (hk : Kept w s0 s) (w_host : w .host = true) (w_events : w .events = true) (w_stiles : w .stiles = true) (w_mesh : w .mesh = true) (w_tiers : w .tiers = true) (w_flash : w .flash = true) (w_t1 : w .t1 = true) (w_hostMem : w .hostMem = true) (w_obs : w .obs = true) :
    KeptR w s0 (execSheafCommit num s) := by
  unfold execSheafCommit
  try dsimp only
  repeat' first | intro _ | (with_reducible first | assumption | apply kept_dropMove | apply kept_moveSignals | apply kept_landAt | apply kept_setTile | apply kept_raiseNamed | apply kept_total | apply Kept.ite | apply KeptR.next | apply KeptR.ite | apply Kept.foldl | apply Kept.foldl_fst) | split

theorem kept_execTileSignal {s0 : State} {tile : ℕ} {r : CmdRec} {s : State} (hk : Kept w s0 s) (w_host : w .host = true) (w_events : w .events = true) (w_stiles : w .stiles = true) (w_mesh : w .mesh = true) (w_tiers : w .tiers = true) (w_obs : w .obs = true) :
    KeptR w s0 (execTileSignal tile r s) := by
  unfold execTileSignal
  try dsimp only
  repeat' first | intro _ | (with_reducible first | assumption | apply kept_tileIssue | apply Kept.ite | apply KeptR.next)

theorem kept_execTileConsume {s0 : State} {tile : ℕ} {r : CmdRec} {s : State} (hk : Kept w s0 s) (w_host : w .host = true) (w_events : w .events = true) (w_stiles : w .stiles = true) (w_mesh : w .mesh = true) (w_tiers : w .tiers = true) (w_obs : w .obs = true) :
    KeptR w s0 (execTileConsume tile r s) := by
  unfold execTileConsume
  try dsimp only
  repeat' first | intro _ | (with_reducible first | assumption | apply kept_tileIssue | apply Kept.ite | apply KeptR.next)

theorem kept_execTileSet {s0 : State} {tile : ℕ} {r : CmdRec} {s : State} (hk : Kept w s0 s) (w_host : w .host = true) (w_events : w .events = true) (w_stiles : w .stiles = true) (w_mesh : w .mesh = true) (w_tiers : w .tiers = true) (w_obs : w .obs = true) :
    KeptR w s0 (execTileSet tile r s) := by
  unfold execTileSet
  try dsimp only
  repeat' first | intro _ | (with_reducible first | assumption | apply kept_tileIssue | apply Kept.ite | apply KeptR.next)

theorem kept_execTileWait {s0 : State} {tile : ℕ} {r : CmdRec} {s : State} (hk : Kept w s0 s) (w_host : w .host = true) (w_events : w .events = true) (w_stiles : w .stiles = true) (w_mesh : w .mesh = true) (w_tiers : w .tiers = true) (w_obs : w .obs = true) :
    KeptR w s0 (execTileWait tile r s) := by
  unfold execTileWait
  try dsimp only
  repeat' first | intro _ | (with_reducible first | assumption | apply kept_tileIssue | apply Kept.ite | apply KeptR.next)

theorem kept_execTileWaitConsume {s0 : State} {tile : ℕ} {r : CmdRec} {s : State} (hk : Kept w s0 s) (w_host : w .host = true) (w_events : w .events = true) (w_stiles : w .stiles = true) (w_mesh : w .mesh = true) (w_tiers : w .tiers = true) (w_obs : w .obs = true) :
    KeptR w s0 (execTileWaitConsume tile r s) := by
  unfold execTileWaitConsume
  try dsimp only
  repeat' first | intro _ | (with_reducible first | assumption | apply kept_tileIssue | apply Kept.ite | apply KeptR.next)

theorem kept_execStileWaitSatisfied {s0 : State} {eng : Engine} {cycle : ℕ} {s : State} (hk : Kept w s0 s) (w_host : w .host = true) (w_events : w .events = true) (w_stiles : w .stiles = true) (w_mesh : w .mesh = true) (w_warren : w .warren = true) (w_tiers : w .tiers = true) (w_obs : w .obs = true) :
    KeptR w s0 (execStileWaitSatisfied eng cycle s) := by
  unfold execStileWaitSatisfied
  try dsimp only
  repeat' first | intro _ | (with_reducible first | assumption | apply kept_tileDrain | apply kept_setBurrow | apply Kept.ite | apply KeptR.next | apply KeptR.ite | apply Kept.foldl | apply Kept.foldl_fst) | split

theorem kept_execScoreboardRelease {s0 : State} {tile : ℕ} {cycle : ℕ} {s : State} (hk : Kept w s0 s) (w_host : w .host = true) (w_events : w .events = true) (w_stiles : w .stiles = true) (w_mesh : w .mesh = true) (w_tiers : w .tiers = true) (w_obs : w .obs = true) :
    KeptR w s0 (execScoreboardRelease tile cycle s) := by
  unfold execScoreboardRelease
  try dsimp only
  repeat' first | intro _ | (with_reducible first | assumption | apply kept_setTile | apply kept_tileDrain | apply Kept.ite | apply KeptR.next)

theorem kept_execTileFault {s0 : State} {tile : ℕ} {kind : TileFaultKind} {s : State} (hk : Kept w s0 s) (w_events : w .events = true) (w_mesh : w .mesh = true) (w_faults : w .faults = true) (w_power : w .power = true) (w_obs : w .obs = true) :
    KeptR w s0 (execTileFault tile kind s) := by
  unfold execTileFault
  try dsimp only
  repeat' first | intro _ | (with_reducible first | assumption | apply kept_raiseNamed | apply kept_fence | apply kept_setTile | apply kept_total | apply kept_nodeFault | apply Kept.ite | apply KeptR.next | apply KeptR.ite | apply Kept.foldl | apply Kept.foldl_fst | ((fail_if_success apply Kept.mk_same); first | apply Kept.mk_mesh) | exact ⟨rfl, rfl⟩) | split

theorem kept_execBurrowSlotStart {s0 : State} {burrow : ℕ} {slot : ℕ} {s : State} (hk : Kept w s0 s) (w_warren : w .warren = true) :
    KeptR w s0 (execBurrowSlotStart burrow slot s) := by
  unfold execBurrowSlotStart
  try dsimp only
  repeat' first | intro _ | (with_reducible first | assumption | apply kept_setBurrow | apply Kept.ite | apply KeptR.next | apply KeptR.ite | apply Kept.foldl | apply Kept.foldl_fst) | split

theorem kept_execNextItem {s0 : State} {burrow : ℕ} {s : State} (hk : Kept w s0 s) (w_warren : w .warren = true) (w_obs : w .obs = true) :
    KeptR w s0 (execNextItem burrow s) := by
  unfold execNextItem
  try dsimp only
  repeat' first | intro _ | (with_reducible first | assumption | apply kept_micro | apply kept_latchItem | apply kept_setBurrow | apply kept_traceBegin | apply Kept.ite | apply KeptR.next | apply KeptR.ite | apply Kept.foldl | apply Kept.foldl_fst) | split

theorem kept_execLutget {s0 : State} {burrow : ℕ} {s : State} (hk : Kept w s0 s) (w_warren : w .warren = true) :
    KeptR w s0 (execLutget burrow s) := by
  unfold execLutget
  try dsimp only
  repeat' first | intro _ | (with_reducible first | assumption | apply kept_micro | apply kept_setBurrow | apply Kept.ite | apply KeptR.next | apply KeptR.ite | apply Kept.foldl | apply Kept.foldl_fst) | split

theorem kept_execLutPullLanded {s0 : State} {burrow : ℕ} {half : ℕ} {s : State} (hk : Kept w s0 s) (w_warren : w .warren = true) :
    KeptR w s0 (execLutPullLanded burrow half s) := by
  unfold execLutPullLanded
  try dsimp only
  repeat' first | intro _ | (with_reducible first | assumption | apply kept_setBurrow | apply Kept.ite | apply KeptR.next | apply KeptR.ite | apply Kept.foldl | apply Kept.foldl_fst) | split

theorem kept_execLutw {s0 : State} {burrow : ℕ} {s : State} (hk : Kept w s0 s) (w_warren : w .warren = true) :
    KeptR w s0 (execLutw burrow s) := by
  unfold execLutw
  try dsimp only
  repeat' first | intro _ | (with_reducible first | assumption | apply kept_micro | apply kept_setBurrow | apply Kept.ite | apply KeptR.next)

theorem kept_execScanl {s0 : State} {burrow : ℕ} {s : State} (hk : Kept w s0 s) (w_warren : w .warren = true) :
    KeptR w s0 (execScanl burrow s) := by
  unfold execScanl
  try dsimp only
  repeat' first | intro _ | (with_reducible first | assumption | apply kept_micro | apply kept_setBurrow | apply Kept.ite | apply KeptR.next | apply KeptR.ite | apply Kept.foldl | apply Kept.foldl_fst) | split

theorem kept_execEmit {s0 : State} {burrow : ℕ} {s : State} (hk : Kept w s0 s) (w_host : w .host = true) (w_events : w .events = true) (w_stiles : w .stiles = true) (w_mesh : w .mesh = true) (w_warren : w .warren = true) :
    KeptR w s0 (execEmit burrow s) := by
  unfold execEmit
  try dsimp only
  repeat' first | intro _ | (with_reducible first | assumption | apply kept_micro | apply kept_planSignal | apply kept_scratchPut | apply Kept.ite | apply KeptR.next | apply KeptR.ite | apply Kept.foldl | apply Kept.foldl_fst) | split

theorem kept_execGath {s0 : State} {burrow : ℕ} {s : State} (hk : Kept w s0 s) (w_host : w .host = true) (w_events : w .events = true) (w_stiles : w .stiles = true) (w_mesh : w .mesh = true) (w_warren : w .warren = true) :
    KeptR w s0 (execGath burrow s) := by
  unfold execGath
  try dsimp only
  repeat' first | intro _ | (with_reducible first | assumption | apply kept_micro | apply kept_scratchPut | apply kept_microDone | apply Kept.ite | apply KeptR.next | apply KeptR.ite | apply Kept.foldl | apply Kept.foldl_fst) | split

theorem kept_execRsub {s0 : State} {burrow : ℕ} {s : State} (hk : Kept w s0 s) (w_host : w .host = true) (w_events : w .events = true) (w_stiles : w .stiles = true) (w_mesh : w .mesh = true) (w_warren : w .warren = true) :
    KeptR w s0 (execRsub burrow s) := by
  unfold execRsub
  try dsimp only
  repeat' first | intro _ | (with_reducible first | assumption | apply kept_micro | apply kept_scratchPut | apply kept_microDone | apply kept_setBurrow | apply Kept.ite | apply KeptR.next | apply KeptR.ite | apply Kept.foldl | apply Kept.foldl_fst) | split

theorem kept_execSig {s0 : State} {burrow : ℕ} {s : State} (hk : Kept w s0 s) (w_host : w .host = true) (w_events : w .events = true) (w_stiles : w .stiles = true) (w_warren : w .warren = true) :
    KeptR w s0 (execSig burrow s) := by
  unfold execSig
  try dsimp only
  repeat' first | intro _ | (with_reducible first | assumption | apply kept_micro | apply kept_planSignal | apply Kept.ite | apply KeptR.next)

theorem kept_execWaits {s0 : State} {burrow : ℕ} {s : State} (hk : Kept w s0 s) (w_warren : w .warren = true) :
    KeptR w s0 (execWaits burrow s) := by
  unfold execWaits
  try dsimp only
  repeat' first | intro _ | (with_reducible first | assumption | apply kept_micro | apply kept_setBurrow | apply Kept.ite | apply KeptR.next)

theorem kept_execBcopy {s0 : State} {burrow : ℕ} {s : State} (hk : Kept w s0 s) (w_host : w .host = true) (w_events : w .events = true) (w_stiles : w .stiles = true) (w_warren : w .warren = true) :
    KeptR w s0 (execBcopy burrow s) := by
  unfold execBcopy
  try dsimp only
  repeat' first | intro _ | (with_reducible first | assumption | apply kept_micro | apply kept_microDone | apply kept_setBurrow | apply Kept.ite | apply KeptR.next)

theorem kept_execJump {s0 : State} {burrow : ℕ} {s : State} (hk : Kept w s0 s) (w_warren : w .warren = true) :
    KeptR w s0 (execJump burrow s) := by
  unfold execJump
  try dsimp only
  repeat' first | intro _ | (with_reducible first | assumption | apply kept_micro | apply kept_setBurrow | apply Kept.ite | apply KeptR.next)

theorem kept_execEndSlot {s0 : State} {burrow : ℕ} {s : State} (hk : Kept w s0 s) (w_warren : w .warren = true) (w_obs : w .obs = true) :
    KeptR w s0 (execEndSlot burrow s) := by
  unfold execEndSlot
  try dsimp only
  repeat' first | intro _ | (with_reducible first | assumption | apply kept_micro | apply kept_setBurrow | apply kept_latchItem | apply Kept.ite | apply KeptR.next)

theorem kept_execThrottleLevelChange {s0 : State} {stack : ℕ} {temp : ℕ} {power : ℕ} {cool : Bool} {calm : Bool} {s : State} (hk : Kept w s0 s) (w_events : w .events = true) (w_warren : w .warren = true) :
    KeptR w s0 (execThrottleLevelChange stack temp power cool calm s) := by
  unfold execThrottleLevelChange
  try dsimp only
  repeat' first | intro _ | (with_reducible first | assumption | apply kept_setStack | apply kept_raise | apply Kept.ite | apply KeptR.next | apply KeptR.ite)

theorem kept_execRefreshRateChange {s0 : State} {stack : ℕ} {temp : ℕ} {s : State} (hk : Kept w s0 s) (w_warren : w .warren = true) :
    KeptR w s0 (execRefreshRateChange stack temp s) := by
  unfold execRefreshRateChange
  try dsimp only
  repeat' first | intro _ | (with_reducible first | assumption | apply kept_setStack | apply Kept.ite | apply KeptR.next | apply KeptR.ite)

theorem kept_execWarrenFault {s0 : State} {stack : ℕ} {unit : ℕ} {kind : WarrenKind} {s : State} (hk : Kept w s0 s) (w_events : w .events = true) (w_warren : w .warren = true) (w_search : w .search = true) (w_tables : w .tables = true) (w_flash : w .flash = true) (w_faults : w .faults = true) (w_power : w .power = true) (w_obs : w .obs = true) :
    KeptR w s0 (execWarrenFault stack unit kind s) := by
  unfold execWarrenFault
  try dsimp only
  repeat' first | intro _ | (with_reducible first | assumption | apply kept_setStack | apply kept_badBlockAt | apply kept_unitFails | apply kept_raiseNamed | apply kept_nodeFault | apply Kept.ite | apply KeptR.next | apply KeptR.ite | apply Kept.foldl | apply Kept.foldl_fst | ((fail_if_success apply Kept.mk_same); first | apply Kept.mk_warren) | exact ⟨rfl, rfl⟩) | split

theorem kept_execUnitRefillComplete {s0 : State} {stack : ℕ} {s : State} (hk : Kept w s0 s) (w_warren : w .warren = true) :
    KeptR w s0 (execUnitRefillComplete stack s) := by
  unfold execUnitRefillComplete
  try dsimp only
  repeat' first | intro _ | (with_reducible first | assumption | apply kept_setStack | apply Kept.ite | apply KeptR.next | apply KeptR.ite)

theorem kept_execSheafMoveStart {s0 : State} {num : ℕ} {s : State} (hk : Kept w s0 s) (w_tiers : w .tiers = true) :
    KeptR w s0 (execSheafMoveStart num s) := by
  unfold execSheafMoveStart
  try dsimp only
  repeat' first | intro _ | (with_reducible first | assumption | apply Kept.ite | apply KeptR.next | apply KeptR.ite | apply Kept.foldl | apply Kept.foldl_fst | ((fail_if_success apply Kept.mk_same); first | apply Kept.mk_tiers) | exact ⟨rfl, rfl⟩) | split

theorem kept_execSheafLanding {s0 : State} {m : MoveRef} {poisoned : Bool} {s : State} (hk : Kept w s0 s) (w_host : w .host = true) (w_events : w .events = true) (w_stiles : w .stiles = true) (w_mesh : w .mesh = true) (w_warren : w .warren = true) (w_tiers : w .tiers = true) (w_search : w .search = true) (w_tables : w .tables = true) (w_flash : w .flash = true) (w_t1 : w .t1 = true) (w_hostMem : w .hostMem = true) (w_faults : w .faults = true) (w_obs : w .obs = true) :
    KeptR w s0 (execSheafLanding m poisoned s) := by
  unfold execSheafLanding
  try dsimp only
  repeat' first | intro _ | (with_reducible first | assumption | apply kept_moveLands | apply kept_loadLands | apply kept_selectLands | apply Kept.ite | apply KeptR.next | apply KeptR.ite | apply Kept.foldl | apply Kept.foldl_fst) | split

theorem kept_execSheafMoveDeadline {s0 : State} {m : MoveRef} {s : State} (hk : Kept w s0 s) (w_host : w .host = true) (w_events : w .events = true) (w_warren : w .warren = true) (w_tiers : w .tiers = true) (w_search : w .search = true) (w_tables : w .tables = true) (w_flash : w .flash = true) (w_faults : w .faults = true) (w_obs : w .obs = true) :
    KeptR w s0 (execSheafMoveDeadline m s) := by
  unfold execSheafMoveDeadline
  try dsimp only
  repeat' first | intro _ | (with_reducible first | assumption | apply kept_moveFails | apply kept_loadLands | apply kept_selectLands | apply Kept.ite | apply KeptR.next | apply KeptR.ite | apply Kept.foldl | apply Kept.foldl_fst) | split

theorem kept_execSearch {s0 : State} {d : Desc} {s : State} (hk : Kept w s0 s) (w_host : w .host = true) (w_events : w .events = true) (w_search : w .search = true) (w_obs : w .obs = true) :
    KeptR w s0 (execSearch d s) := by
  unfold execSearch
  try dsimp only
  repeat' first | intro _ | (with_reducible first | assumption | apply kept_runDesc | apply kept_searchBody | apply Kept.ite | apply KeptR.next)

theorem kept_execShardQuery {s0 : State} {payload : List Byte} {s : State} (hk : Kept w s0 s) (w_search : w .search = true) :
    KeptR w s0 (execShardQuery payload s) := by
  unfold execShardQuery
  try dsimp only
  repeat' first | intro _ | (with_reducible first | assumption | apply kept_addJob | apply kept_giveResult | apply Kept.ite | apply KeptR.next | apply KeptR.ite | apply Kept.foldl | apply Kept.foldl_fst) | split

theorem kept_execShardResult {s0 : State} {payload : List Byte} {s : State} (hk : Kept w s0 s) (w_search : w .search = true) :
    KeptR w s0 (execShardResult payload s) := by
  unfold execShardResult
  try dsimp only
  repeat' first | intro _ | (with_reducible first | assumption | apply kept_takeResult | apply Kept.ite | apply KeptR.next)

theorem kept_execFlashReadIssue {s0 : State} {id : ℕ} {s : State} (hk : Kept w s0 s) (w_flash : w .flash = true) :
    KeptR w s0 (execFlashReadIssue id s) := by
  unfold execFlashReadIssue
  try dsimp only
  repeat' first | intro _ | (with_reducible first | assumption | apply kept_suspendErases | apply kept_bumpFlash | apply kept_setRead | apply Kept.ite | apply KeptR.next | apply KeptR.ite | apply Kept.foldl | apply Kept.foldl_fst | ((fail_if_success apply Kept.mk_same); first | apply Kept.mk_flash) | exact ⟨rfl, rfl⟩) | split

theorem kept_execFlashReadNotIssued {s0 : State} {id : ℕ} {s : State} (hk : Kept w s0 s) (w_search : w .search = true) (w_flash : w .flash = true) :
    KeptR w s0 (execFlashReadNotIssued id s) := by
  unfold execFlashReadNotIssued
  try dsimp only
  repeat' first | intro _ | (with_reducible first | assumption | apply kept_readMissed | apply kept_bumpFlash | apply Kept.ite | apply KeptR.next | apply KeptR.ite | apply Kept.foldl | apply Kept.foldl_fst) | split

theorem kept_execFlashReadReturn {s0 : State} {id : ℕ} {errors : ℕ} {decoded : Bool} {s : State} (hk : Kept w s0 s) (w_events : w .events = true) (w_search : w .search = true) (w_flash : w .flash = true) :
    KeptR w s0 (execFlashReadReturn id errors decoded s) := by
  unfold execFlashReadReturn
  try dsimp only
  repeat' first | intro _ | (with_reducible first | assumption | apply kept_readOver | apply kept_readMissed | apply kept_readBad | apply kept_bumpFlash | apply kept_setRead | apply kept_pieceHere | apply Kept.ite | apply KeptR.next | apply KeptR.ite | apply Kept.foldl | apply Kept.foldl_fst) | split

theorem kept_execFlashReadDeadline {s0 : State} {id : ℕ} {s : State} (hk : Kept w s0 s) (w_search : w .search = true) (w_flash : w .flash = true) :
    KeptR w s0 (execFlashReadDeadline id s) := by
  unfold execFlashReadDeadline
  try dsimp only
  repeat' first | intro _ | (with_reducible first | assumption | apply kept_readMissed | apply kept_bumpFlash | apply Kept.ite | apply KeptR.next | apply KeptR.ite | apply Kept.foldl | apply Kept.foldl_fst) | split

theorem kept_execFlashReconstructDone {s0 : State} {cw : FlashPlace} {unreadable : List ℕ} {s : State} (hk : Kept w s0 s) (w_events : w .events = true) (w_flash : w .flash = true) :
    KeptR w s0 (execFlashReconstructDone cw unreadable s) := by
  unfold execFlashReconstructDone
  try dsimp only
  repeat' first | intro _ | (with_reducible first | assumption | apply kept_endRecon | apply kept_bumpFlash | apply kept_loseWord | apply Kept.ite | apply KeptR.next | apply KeptR.ite | apply Kept.foldl | apply Kept.foldl_fst | ((fail_if_success apply Kept.mk_same); first | apply Kept.mk_flash) | exact ⟨rfl, rfl⟩) | split

theorem kept_execProgramDone {s0 : State} {cw : FlashPlace} {ok : Bool} {s : State} (hk : Kept w s0 s) (w_events : w .events = true) (w_flash : w .flash = true) (w_t1 : w .t1 = true) :
    KeptR w s0 (execProgramDone cw ok s) := by
  unfold execProgramDone
  try dsimp only
  repeat' first | intro _ | (with_reducible first | assumption | apply kept_settleLog | apply kept_jot | apply kept_setSb | apply kept_badBlock | apply kept_moveSb | apply Kept.ite | apply KeptR.next | apply KeptR.ite | apply Kept.foldl | apply Kept.foldl_fst) | split

theorem kept_execEraseDone {s0 : State} {cw : FlashPlace} {bad : List ℕ} {s : State} (hk : Kept w s0 s) (w_host : w .host = true) (w_events : w .events = true) (w_flash : w .flash = true) (w_free : w .free = true) :
    KeptR w s0 (execEraseDone cw bad s) := by
  unfold execEraseDone
  try dsimp only
  repeat' first | intro _ | (with_reducible first | assumption | apply kept_bumpFlash | apply kept_jot | apply kept_setSb | apply kept_badBlock | apply kept_formatEnds | apply Kept.ite | apply KeptR.next | apply KeptR.ite | apply Kept.foldl)

theorem kept_execDieFailed {s0 : State} {die : ℕ} {s : State} (hk : Kept w s0 s) (w_events : w .events = true) (w_flash : w .flash = true) :
    KeptR w s0 (execDieFailed die s) := by
  unfold execDieFailed
  try dsimp only
  repeat' first | intro _ | (with_reducible first | assumption | apply kept_dieFails | apply Kept.ite | apply KeptR.next)

theorem kept_execDieRetired {s0 : State} {die : ℕ} {s : State} (hk : Kept w s0 s) (w_events : w .events = true) (w_flash : w .flash = true) (w_t1 : w .t1 = true) :
    KeptR w s0 (execDieRetired die s) := by
  unfold execDieRetired
  try dsimp only
  repeat' first | intro _ | (with_reducible first | assumption | apply kept_setSb | apply kept_moveSb | apply kept_dieTo | apply Kept.ite | apply KeptR.next | apply KeptR.ite | apply Kept.foldl | apply Kept.foldl_fst | ((fail_if_success apply Kept.mk_same); first | apply Kept.mk_flash) | exact ⟨rfl, rfl⟩) | split

theorem kept_execSegmentAgeWarn {s0 : State} {fn : ℕ} {index : ℕ} {list : ℕ} {s : State} (hk : Kept w s0 s) (w_events : w .events = true) (w_flash : w .flash = true) :
    KeptR w s0 (execSegmentAgeWarn fn index list s) := by
  unfold execSegmentAgeWarn
  try dsimp only
  repeat' first | intro _ | (with_reducible first | assumption | apply kept_raiseNamed | apply kept_setSeg | apply Kept.ite | apply KeptR.next | apply KeptR.ite | apply Kept.foldl | apply Kept.foldl_fst) | split

theorem kept_execSegmentPastBound {s0 : State} {fn : ℕ} {index : ℕ} {list : ℕ} {s : State} (hk : Kept w s0 s) (w_events : w .events = true) (w_flash : w .flash = true) :
    KeptR w s0 (execSegmentPastBound fn index list s) := by
  unfold execSegmentPastBound
  try dsimp only
  repeat' first | intro _ | (with_reducible first | assumption | apply kept_raiseNamed | apply kept_bumpFlash | apply kept_setSeg | apply Kept.ite | apply KeptR.next | apply KeptR.ite | apply Kept.foldl | apply Kept.foldl_fst) | split

theorem kept_execCheckpoint {s0 : State} {s : State} (hk : Kept w s0 s) (w_flash : w .flash = true) :
    KeptR w s0 (execCheckpoint s) := by
  unfold execCheckpoint
  try dsimp only
  repeat' first | intro _ | (with_reducible first | assumption | apply kept_jot | apply Kept.ite | apply KeptR.next | apply KeptR.ite | apply Kept.foldl | apply Kept.foldl_fst | ((fail_if_success apply Kept.mk_same); first | apply Kept.mk_flash))

theorem kept_execRootPageWrite {s0 : State} {s : State} (hk : Kept w s0 s) (w_flash : w .flash = true) :
    KeptR w s0 (execRootPageWrite s) := by
  unfold execRootPageWrite
  try dsimp only
  repeat' first | intro _ | (with_reducible first | assumption | apply Kept.ite | apply KeptR.next | apply KeptR.ite | apply Kept.foldl | apply Kept.foldl_fst | ((fail_if_success apply Kept.mk_same); first | apply Kept.mk_flash))

theorem kept_execFlashReadServiceRequest {s0 : State} {fn : ℕ} {index : ℕ} {ids : List Word64} {s : State} (hk : Kept w s0 s) (w_fabric : w .fabric = true) (w_egress : w .egress = true) :
    KeptR w s0 (execFlashReadServiceRequest fn index ids s) := by
  unfold execFlashReadServiceRequest
  try dsimp only
  repeat' first | intro _ | (with_reducible first | assumption | apply kept_sendPlan | apply Kept.ite | apply KeptR.next | apply KeptR.ite | apply Kept.foldl | apply Kept.foldl_fst) | split

theorem kept_execRefillResponse {s0 : State} {fn : ℕ} {index : ℕ} {rows : List RefillRow} {s : State} (hk : Kept w s0 s) (w_flash : w .flash = true) :
    KeptR w s0 (execRefillResponse fn index rows s) := by
  unfold execRefillResponse
  try dsimp only
  repeat' first | intro _ | (with_reducible first | assumption | apply kept_refillRow | apply Kept.ite | apply KeptR.next | apply KeptR.ite | apply Kept.foldl | apply Kept.foldl_fst) | split

theorem kept_execSelect {s0 : State} {d : Desc} {s : State} (hk : Kept w s0 s) (w_host : w .host = true) (w_events : w .events = true) (w_search : w .search = true) (w_obs : w .obs = true) :
    KeptR w s0 (execSelect d s) := by
  unfold execSelect
  try dsimp only
  repeat' first | intro _ | (with_reducible first | assumption | apply kept_runDesc | apply kept_selectBody | apply Kept.ite | apply KeptR.next)

theorem kept_execGather {s0 : State} {d : Desc} {s : State} (hk : Kept w s0 s) (w_host : w .host = true) (w_events : w .events = true) (w_tables : w .tables = true) (w_obs : w .obs = true) :
    KeptR w s0 (execGather d s) := by
  unfold execGather
  try dsimp only
  repeat' first | intro _ | (with_reducible first | assumption | apply kept_runDesc | apply kept_lookupBody | apply Kept.ite | apply KeptR.next)

theorem kept_execPklookup {s0 : State} {d : Desc} {s : State} (hk : Kept w s0 s) (w_host : w .host = true) (w_events : w .events = true) (w_tables : w .tables = true) (w_obs : w .obs = true) :
    KeptR w s0 (execPklookup d s) := by
  unfold execPklookup
  try dsimp only
  repeat' first | intro _ | (with_reducible first | assumption | apply kept_runDesc | apply kept_lookupBody | apply Kept.ite | apply KeptR.next)

theorem kept_execExchangeRequest {s0 : State} {payload : List Byte} {atNs : ℕ} {s : State} (hk : Kept w s0 s) (w_tables : w .tables = true) (w_fabric : w .fabric = true) :
    KeptR w s0 (execExchangeRequest payload atNs s) := by
  unfold execExchangeRequest
  try dsimp only
  repeat' first | intro _ | (with_reducible first | assumption | apply kept_bumpFabric | apply Kept.ite | apply KeptR.next | apply KeptR.ite | apply Kept.foldl | apply Kept.foldl_fst | ((fail_if_success apply Kept.mk_same); first | apply Kept.mk_tables) | exact ⟨rfl, rfl⟩) | split

theorem kept_execExchangeResponse {s0 : State} {payload : List Byte} {atNs : ℕ} {s : State} (hk : Kept w s0 s) (w_events : w .events = true) (w_tables : w .tables = true) (w_fabric : w .fabric = true) :
    KeptR w s0 (execExchangeResponse payload atNs s) := by
  unfold execExchangeResponse
  try dsimp only
  repeat' first | intro _ | (with_reducible first | assumption | apply kept_takeAnswers | apply kept_bumpFabric | apply Kept.ite | apply KeptR.next | apply KeptR.ite | apply Kept.foldl | apply Kept.foldl_fst) | split

theorem kept_execInsert {s0 : State} {d : Desc} {s : State} (hk : Kept w s0 s) (w_host : w .host = true) (w_events : w .events = true) (w_tables : w .tables = true) (w_flash : w .flash = true) (w_obs : w .obs = true) :
    KeptR w s0 (execInsert d s) := by
  unfold execInsert
  try dsimp only
  repeat' first | intro _ | (with_reducible first | assumption | apply kept_runDesc | apply kept_updateBody | apply Kept.ite | apply KeptR.next)

theorem kept_execDelete {s0 : State} {d : Desc} {s : State} (hk : Kept w s0 s) (w_host : w .host = true) (w_events : w .events = true) (w_tables : w .tables = true) (w_flash : w .flash = true) (w_obs : w .obs = true) :
    KeptR w s0 (execDelete d s) := by
  unfold execDelete
  try dsimp only
  repeat' first | intro _ | (with_reducible first | assumption | apply kept_runDesc | apply kept_updateBody | apply Kept.ite | apply KeptR.next)

theorem kept_execLoad {s0 : State} {d : Desc} {s : State} (hk : Kept w s0 s) (w_host : w .host = true) (w_events : w .events = true) (w_tables : w .tables = true) (w_obs : w .obs = true) :
    KeptR w s0 (execLoad d s) := by
  unfold execLoad
  try dsimp only
  repeat' first | intro _ | (with_reducible first | assumption | apply kept_runDesc | apply kept_loadBody | apply Kept.ite | apply KeptR.next)

theorem kept_execRowwrite {s0 : State} {d : Desc} {s : State} (hk : Kept w s0 s) (w_host : w .host = true) (w_events : w .events = true) (w_tables : w .tables = true) (w_flash : w .flash = true) (w_obs : w .obs = true) :
    KeptR w s0 (execRowwrite d s) := by
  unfold execRowwrite
  try dsimp only
  repeat' first | intro _ | (with_reducible first | assumption | apply kept_runDesc | apply kept_updateBody | apply Kept.ite | apply KeptR.next)

theorem kept_execRowdelete {s0 : State} {d : Desc} {s : State} (hk : Kept w s0 s) (w_host : w .host = true) (w_events : w .events = true) (w_tables : w .tables = true) (w_flash : w .flash = true) (w_obs : w .obs = true) :
    KeptR w s0 (execRowdelete d s) := by
  unfold execRowdelete
  try dsimp only
  repeat' first | intro _ | (with_reducible first | assumption | apply kept_runDesc | apply kept_updateBody | apply Kept.ite | apply KeptR.next)

theorem kept_execReplicationBatch {s0 : State} {tick : Word64} {logged : Option Word64} {recs : List LogRec} {s : State} (hk : Kept w s0 s) (w_events : w .events = true) (w_tables : w .tables = true) (w_flash : w .flash = true) (w_faults : w .faults = true) :
    KeptR w s0 (execReplicationBatch tick logged recs s) := by
  unfold execReplicationBatch
  try dsimp only
  repeat' first | intro _ | (with_reducible first | assumption | apply kept_catchUpBatch | apply kept_takeBatch | apply Kept.ite | apply KeptR.next | apply KeptR.ite | apply Kept.foldl | apply Kept.foldl_fst) | split

theorem kept_execFormat {s0 : State} {d : Desc} {s : State} (hk : Kept w s0 s) (w_host : w .host = true) (w_events : w .events = true) (w_flash : w .flash = true) (w_obs : w .obs = true) (w_free : w .free = true) :
    KeptR w s0 (execFormat d s) := by
  unfold execFormat
  try dsimp only
  repeat' first | intro _ | (with_reducible first | assumption | apply kept_runDesc | apply kept_formatBody | apply Kept.ite | apply KeptR.next)

theorem kept_execStileSignal {s0 : State} {src : StileSource} {fn : ℕ} {addressed : Option ℕ} {a3 : Word64} {s : State} (hk : Kept w s0 s) (w_host : w .host = true) (w_events : w .events = true) (w_stiles : w .stiles = true) :
    KeptR w s0 (execStileSignal src fn addressed a3 s) := by
  unfold execStileSignal
  try dsimp only
  repeat' first | intro _ | (with_reducible first | assumption | apply kept_stileOutside | apply Kept.ite | apply KeptR.next)

theorem kept_execStileConsume {s0 : State} {src : StileSource} {fn : ℕ} {addressed : Option ℕ} {a3 : Word64} {s : State} (hk : Kept w s0 s) (w_host : w .host = true) (w_events : w .events = true) (w_stiles : w .stiles = true) :
    KeptR w s0 (execStileConsume src fn addressed a3 s) := by
  unfold execStileConsume
  try dsimp only
  repeat' first | intro _ | (with_reducible first | assumption | apply kept_stileOutside | apply Kept.ite | apply KeptR.next)

theorem kept_execStileSet {s0 : State} {src : StileSource} {fn : ℕ} {addressed : Option ℕ} {a3 : Word64} {s : State} (hk : Kept w s0 s) (w_host : w .host = true) (w_events : w .events = true) (w_stiles : w .stiles = true) :
    KeptR w s0 (execStileSet src fn addressed a3 s) := by
  unfold execStileSet
  try dsimp only
  repeat' first | intro _ | (with_reducible first | assumption | apply kept_stileOutside | apply Kept.ite | apply KeptR.next)

theorem kept_execStileClearFlags {s0 : State} {src : StileSource} {fn : ℕ} {addressed : Option ℕ} {a3 : Word64} {s : State} (hk : Kept w s0 s) (w_host : w .host = true) (w_events : w .events = true) (w_stiles : w .stiles = true) :
    KeptR w s0 (execStileClearFlags src fn addressed a3 s) := by
  unfold execStileClearFlags
  try dsimp only
  repeat' first | intro _ | (with_reducible first | assumption | apply kept_stileOutside | apply Kept.ite | apply KeptR.next)

theorem kept_execStileRead {s0 : State} {fn : ℕ} {off : ℕ} {size : ℕ} {stile : ℕ} {s : State} (hk : Kept w s0 s) (w_regs : w .regs = true) :
    KeptR w s0 (execStileRead fn off size stile s) := by
  unfold execStileRead
  try dsimp only
  repeat' first | intro _ | (with_reducible first | assumption | apply Kept.ite | apply KeptR.next | apply KeptR.ite | apply Kept.foldl | apply Kept.foldl_fst | ((fail_if_success apply Kept.mk_same); first | apply Kept.mk_regs))

theorem kept_execStileEccError {s0 : State} {stile : ℕ} {double : Bool} {s : State} (hk : Kept w s0 s) (w_stiles : w .stiles = true) :
    KeptR w s0 (execStileEccError stile double s) := by
  unfold execStileEccError
  try dsimp only
  repeat' first | intro _ | (with_reducible first | assumption | apply kept_bumpStile | apply Kept.ite | apply KeptR.next | apply KeptR.ite | apply Kept.foldl | apply Kept.foldl_fst | ((fail_if_success apply Kept.mk_same); first | apply Kept.mk_stiles))

theorem kept_execFrameReceived {s0 : State} {port : ℕ} {frame : Frame} {s : State} (hk : Kept w s0 s) (w_fabric : w .fabric = true) (w_egress : w .egress = true) :
    KeptR w s0 (execFrameReceived port frame s) := by
  unfold execFrameReceived
  try dsimp only
  repeat' first | intro _ | (with_reducible first | assumption | apply kept_bumpPort | apply kept_bumpFabric | apply kept_pfcCheck | apply kept_setPort | apply kept_police | apply Kept.ite | apply KeptR.next | apply KeptR.ite | apply Kept.ite_fst | apply Kept.foldl | apply Kept.foldl_fst) | split

theorem kept_execPfcPauseReceived {s0 : State} {port : ℕ} {tc : ℕ} {pause : Bool} {s : State} (hk : Kept w s0 s) (w_fabric : w .fabric = true) :
    KeptR w s0 (execPfcPauseReceived port tc pause s) := by
  unfold execPfcPauseReceived
  try dsimp only
  repeat' first | intro _ | (with_reducible first | assumption | apply kept_bumpPort | apply kept_setPort | apply Kept.ite | apply KeptR.next | apply KeptR.ite)

theorem kept_execPfcStorm {s0 : State} {port : ℕ} {tc : ℕ} {s : State} (hk : Kept w s0 s) (w_events : w .events = true) (w_fabric : w .fabric = true) :
    KeptR w s0 (execPfcStorm port tc s) := by
  unfold execPfcStorm
  try dsimp only
  repeat' first | intro _ | (with_reducible first | assumption | apply kept_setPort | apply kept_raisePort | apply Kept.ite | apply KeptR.next | apply KeptR.ite)

theorem kept_execPfcStormEnd {s0 : State} {port : ℕ} {tc : ℕ} {s : State} (hk : Kept w s0 s) (w_events : w .events = true) (w_fabric : w .fabric = true) :
    KeptR w s0 (execPfcStormEnd port tc s) := by
  unfold execPfcStormEnd
  try dsimp only
  repeat' first | intro _ | (with_reducible first | assumption | apply kept_raisePort | apply kept_setPort | apply Kept.ite | apply KeptR.next | apply KeptR.ite)

theorem kept_execLaneFailure {s0 : State} {port : ℕ} {lane : ℕ} {s : State} (hk : Kept w s0 s) (w_events : w .events = true) (w_fabric : w .fabric = true) (w_egress : w .egress = true) :
    KeptR w s0 (execLaneFailure port lane s) := by
  unfold execLaneFailure
  try dsimp only
  repeat' first | intro _ | (with_reducible first | assumption | apply kept_portDown | apply kept_setPort | apply kept_raisePort | apply Kept.ite | apply KeptR.next | apply KeptR.ite)

theorem kept_execPortDown {s0 : State} {port : ℕ} {s : State} (hk : Kept w s0 s) (w_events : w .events = true) (w_fabric : w .fabric = true) (w_egress : w .egress = true) :
    KeptR w s0 (execPortDown port s) := by
  unfold execPortDown
  try dsimp only
  repeat' first | intro _ | (with_reducible first | assumption | apply kept_portDown | apply Kept.ite | apply KeptR.next)

theorem kept_execPortUp {s0 : State} {port : ℕ} {s : State} (hk : Kept w s0 s) (w_events : w .events = true) (w_fabric : w .fabric = true) (w_egress : w .egress = true) :
    KeptR w s0 (execPortUp port s) := by
  unfold execPortUp
  try dsimp only
  repeat' first | intro _ | (with_reducible first | assumption | apply kept_raisePort | apply kept_setPort | apply kept_connect | apply Kept.ite | apply KeptR.next | apply KeptR.ite | apply Kept.foldl)

theorem kept_execConnect {s0 : State} {port : ℕ} {tc : ℕ} {pkt : List Byte} {s : State} (hk : Kept w s0 s) (w_events : w .events = true) (w_fabric : w .fabric = true) (w_egress : w .egress = true) :
    KeptR w s0 (execConnect port tc pkt s) := by
  unfold execConnect
  try dsimp only
  repeat' first | intro _ | (with_reducible first | assumption | apply kept_ludomTake | apply kept_takeIngress | apply kept_sendControl | apply kept_setConn | apply kept_raise | apply Kept.ite | apply KeptR.next | apply KeptR.ite | apply KeptT.dropped | exact KeptT.ok | apply KeptT.ite | apply Kept.foldl | apply Kept.foldl_fst) | split | (with_reducible first | refine Kept.fst (by assumption) ?_ | refine KeptT.of (by assumption) ?_)

theorem kept_execConnectAck {s0 : State} {port : ℕ} {tc : ℕ} {pkt : List Byte} {s : State} (hk : Kept w s0 s) (w_fabric : w .fabric = true) :
    KeptR w s0 (execConnectAck port tc pkt s) := by
  unfold execConnectAck
  try dsimp only
  repeat' first | intro _ | (with_reducible first | assumption | apply kept_ludomTake | apply kept_takeIngress | apply kept_setConn | apply Kept.ite | apply KeptR.next | apply KeptR.ite | apply KeptT.dropped | exact KeptT.ok | apply KeptT.ite | apply Kept.foldl | apply Kept.foldl_fst) | split | (with_reducible first | refine Kept.fst (by assumption) ?_ | refine KeptT.of (by assumption) ?_)

theorem kept_execLudomWrite {s0 : State} {port : ℕ} {tc : ℕ} {pkt : List Byte} {atNs : ℕ} {s : State} (hk : Kept w s0 s) (w_host : w .host = true) (w_events : w .events = true) (w_stiles : w .stiles = true) (w_mesh : w .mesh = true) (w_fabric : w .fabric = true) (w_egress : w .egress = true) (w_t1 : w .t1 = true) :
    KeptR w s0 (execLudomWrite port tc pkt atNs s) := by
  unfold execLudomWrite
  try dsimp only
  repeat' first | intro _ | (with_reducible first | assumption | apply kept_ludomWrite | apply Kept.ite | apply KeptR.next)

theorem kept_execReadReq {s0 : State} {port : ℕ} {tc : ℕ} {pkt : List Byte} {s : State} (hk : Kept w s0 s) (w_events : w .events = true) (w_fabric : w .fabric = true) (w_egress : w .egress = true) :
    KeptR w s0 (execReadReq port tc pkt s) := by
  unfold execReadReq
  try dsimp only
  repeat' first | intro _ | (with_reducible first | assumption | apply kept_ludomRead | apply Kept.ite | apply KeptR.next)

theorem kept_execReadResp {s0 : State} {port : ℕ} {tc : ℕ} {pkt : List Byte} {s : State} (hk : Kept w s0 s) (w_mesh : w .mesh = true) (w_warren : w .warren = true) (w_fabric : w .fabric = true) (w_egress : w .egress = true) (w_t1 : w .t1 = true) :
    KeptR w s0 (execReadResp port tc pkt s) := by
  unfold execReadResp
  try dsimp only
  repeat' first | intro _ | (with_reducible first | assumption | apply kept_readResp | apply Kept.ite | apply KeptR.next)

theorem kept_execLudomAck {s0 : State} {port : ℕ} {tc : ℕ} {pkt : List Byte} {s : State} (hk : Kept w s0 s) (w_events : w .events = true) (w_fabric : w .fabric = true) (w_egress : w .egress = true) :
    KeptR w s0 (execLudomAck port tc pkt s) := by
  unfold execLudomAck
  try dsimp only
  repeat' first | intro _ | (with_reducible first | assumption | apply kept_ludomTake | apply kept_takeIngress | apply kept_acked | apply kept_congested | apply Kept.ite | apply KeptR.next | apply KeptR.ite | apply KeptT.dropped | exact KeptT.ok | apply KeptT.ite | apply Kept.foldl | apply Kept.foldl_fst) | split | (with_reducible first | refine Kept.fst (by assumption) ?_ | refine KeptT.of (by assumption) ?_)

theorem kept_execLudomNak {s0 : State} {port : ℕ} {tc : ℕ} {pkt : List Byte} {s : State} (hk : Kept w s0 s) (w_host : w .host = true) (w_events : w .events = true) (w_fabric : w .fabric = true) (w_egress : w .egress = true) :
    KeptR w s0 (execLudomNak port tc pkt s) := by
  unfold execLudomNak
  try dsimp only
  repeat' first | intro _ | (with_reducible first | assumption | apply kept_ludomTake | apply kept_takeIngress | apply kept_acked | apply kept_retry | apply Kept.ite | apply KeptR.next | apply KeptR.ite | apply KeptT.dropped | exact KeptT.ok | apply KeptT.ite | apply Kept.foldl | apply Kept.foldl_fst) | split | (with_reducible first | refine Kept.fst (by assumption) ?_ | refine KeptT.of (by assumption) ?_)

theorem kept_execNotReady {s0 : State} {port : ℕ} {tc : ℕ} {pkt : List Byte} {s : State} (hk : Kept w s0 s) (w_fabric : w .fabric = true) :
    KeptR w s0 (execNotReady port tc pkt s) := by
  unfold execNotReady
  try dsimp only
  repeat' first | intro _ | (with_reducible first | assumption | apply kept_ludomTake | apply kept_takeIngress | apply kept_mapConn | apply Kept.ite | apply KeptR.next | apply KeptR.ite | apply KeptT.dropped | exact KeptT.ok | apply KeptT.ite | apply Kept.foldl | apply Kept.foldl_fst) | split | (with_reducible first | refine Kept.fst (by assumption) ?_ | refine KeptT.of (by assumption) ?_)

theorem kept_execLudomClose {s0 : State} {port : ℕ} {tc : ℕ} {pkt : List Byte} {s : State} (hk : Kept w s0 s) (w_fabric : w .fabric = true) (w_egress : w .egress = true) :
    KeptR w s0 (execLudomClose port tc pkt s) := by
  unfold execLudomClose
  try dsimp only
  repeat' first | intro _ | (with_reducible first | assumption | apply kept_ludomTake | apply kept_takeIngress | apply kept_connect | apply kept_releaseConn | apply Kept.ite | apply KeptR.next | apply KeptR.ite | apply KeptT.dropped | exact KeptT.ok | apply KeptT.ite | apply Kept.foldl | apply Kept.foldl_fst) | split | (with_reducible first | refine Kept.fst (by assumption) ?_ | refine KeptT.of (by assumption) ?_)

theorem kept_execLudomRtoExpiry {s0 : State} {conn : ℕ} {psn : ℕ} {s : State} (hk : Kept w s0 s) (w_host : w .host = true) (w_events : w .events = true) (w_fabric : w .fabric = true) (w_egress : w .egress = true) :
    KeptR w s0 (execLudomRtoExpiry conn psn s) := by
  unfold execLudomRtoExpiry
  try dsimp only
  repeat' first | intro _ | (with_reducible first | assumption | apply kept_mapConn | apply kept_retry | apply Kept.ite | apply KeptR.next)

theorem kept_execNrWaitExpiry {s0 : State} {conn : ℕ} {psn : ℕ} {s : State} (hk : Kept w s0 s) (w_host : w .host = true) (w_events : w .events = true) (w_fabric : w .fabric = true) (w_egress : w .egress = true) :
    KeptR w s0 (execNrWaitExpiry conn psn s) := by
  unfold execNrWaitExpiry
  try dsimp only
  repeat' first | intro _ | (with_reducible first | assumption | apply kept_retry | apply Kept.ite | apply KeptR.next)

theorem kept_execBatchAged {s0 : State} {conn : ℕ} {batch : ℕ} {s : State} (hk : Kept w s0 s) (w_fabric : w .fabric = true) :
    KeptR w s0 (execBatchAged conn batch s) := by
  unfold execBatchAged
  try dsimp only
  repeat' first | intro _ | (with_reducible first | assumption | apply kept_bumpFabric | apply kept_setConn | apply Kept.ite | apply KeptR.next | apply KeptR.ite | apply Kept.foldl | apply Kept.foldl_fst) | split

theorem kept_execRoceSend {s0 : State} {conn : ℕ} {p : RocePkt} {s : State} (hk : Kept w s0 s) (w_host : w .host = true) (w_fabric : w .fabric = true) (w_egress : w .egress = true) (w_hostMem : w .hostMem = true) :
    KeptR w s0 (execRoceSend conn p s) := by
  unfold execRoceSend
  try dsimp only
  repeat' first | intro _ | (with_reducible first | assumption | apply kept_roceSend | apply Kept.ite | apply KeptR.next)

theorem kept_execRdmaWrite {s0 : State} {conn : ℕ} {p : RocePkt} {s : State} (hk : Kept w s0 s) (w_host : w .host = true) (w_events : w .events = true) (w_stiles : w .stiles = true) (w_mesh : w .mesh = true) (w_fabric : w .fabric = true) (w_egress : w .egress = true) (w_t1 : w .t1 = true) :
    KeptR w s0 (execRdmaWrite conn p s) := by
  unfold execRdmaWrite
  try dsimp only
  repeat' first | intro _ | (with_reducible first | assumption | apply kept_roceWrite | apply Kept.ite | apply KeptR.next)

theorem kept_execRdmaWriteWithImmediate {s0 : State} {conn : ℕ} {p : RocePkt} {s : State} (hk : Kept w s0 s) (w_host : w .host = true) (w_events : w .events = true) (w_stiles : w .stiles = true) (w_mesh : w .mesh = true) (w_fabric : w .fabric = true) (w_egress : w .egress = true) (w_t1 : w .t1 = true) :
    KeptR w s0 (execRdmaWriteWithImmediate conn p s) := by
  unfold execRdmaWriteWithImmediate
  try dsimp only
  repeat' first | intro _ | (with_reducible first | assumption | apply kept_roceWrite | apply Kept.ite | apply KeptR.next)

theorem kept_execRdmaRead {s0 : State} {conn : ℕ} {p : RocePkt} {s : State} (hk : Kept w s0 s) (w_events : w .events = true) (w_fabric : w .fabric = true) (w_egress : w .egress = true) :
    KeptR w s0 (execRdmaRead conn p s) := by
  unfold execRdmaRead
  try dsimp only
  repeat' first | intro _ | (with_reducible first | assumption | apply kept_roceRead | apply Kept.ite | apply KeptR.next)

theorem kept_execFetchAdd {s0 : State} {conn : ℕ} {p : RocePkt} {s : State} (hk : Kept w s0 s) (w_events : w .events = true) (w_mesh : w .mesh = true) (w_fabric : w .fabric = true) (w_egress : w .egress = true) (w_t1 : w .t1 = true) :
    KeptR w s0 (execFetchAdd conn p s) := by
  unfold execFetchAdd
  try dsimp only
  repeat' first | intro _ | (with_reducible first | assumption | apply kept_roceAtomic | apply Kept.ite | apply KeptR.next)

theorem kept_execCmpSwap {s0 : State} {conn : ℕ} {p : RocePkt} {s : State} (hk : Kept w s0 s) (w_events : w .events = true) (w_mesh : w .mesh = true) (w_fabric : w .fabric = true) (w_egress : w .egress = true) (w_t1 : w .t1 = true) :
    KeptR w s0 (execCmpSwap conn p s) := by
  unfold execCmpSwap
  try dsimp only
  repeat' first | intro _ | (with_reducible first | assumption | apply kept_roceAtomic | apply Kept.ite | apply KeptR.next)

theorem kept_execRoceAck {s0 : State} {conn : ℕ} {p : RocePkt} {s : State} (hk : Kept w s0 s) (w_fabric : w .fabric = true) :
    KeptR w s0 (execRoceAck conn p s) := by
  unfold execRoceAck
  try dsimp only
  repeat' first | intro _ | (with_reducible first | assumption | apply kept_roceAcked | apply Kept.ite | apply KeptR.next)

theorem kept_execRoceNak {s0 : State} {conn : ℕ} {p : RocePkt} {code : ℕ} {s : State} (hk : Kept w s0 s) (w_fabric : w .fabric = true) (w_egress : w .egress = true) :
    KeptR w s0 (execRoceNak conn p code s) := by
  unfold execRoceNak
  try dsimp only
  repeat' first | intro _ | (with_reducible first | assumption | apply kept_resendAll | apply kept_roceAcked | apply kept_setConn | apply Kept.ite | apply KeptR.next | apply KeptR.ite | apply Kept.foldl | apply Kept.foldl_fst) | split

theorem kept_execRnrNak {s0 : State} {conn : ℕ} {p : RocePkt} {s : State} (hk : Kept w s0 s) (w_fabric : w .fabric = true) (w_egress : w .egress = true) :
    KeptR w s0 (execRnrNak conn p s) := by
  unfold execRnrNak
  try dsimp only
  repeat' first | intro _ | (with_reducible first | assumption | apply kept_resendAll | apply kept_roceAcked | apply Kept.ite | apply KeptR.next)

theorem kept_execUdSend {s0 : State} {conn : ℕ} {qkey : ℕ} {payload : List Byte} {s : State} (hk : Kept w s0 s) (w_host : w .host = true) (w_fabric : w .fabric = true) (w_hostMem : w .hostMem = true) :
    KeptR w s0 (execUdSend conn qkey payload s) := by
  unfold execUdSend
  try dsimp only
  repeat' first | intro _ | (with_reducible first | assumption | apply kept_bumpFabric | apply kept_rxPut | apply Kept.ite | apply KeptR.next | apply KeptR.ite | apply Kept.foldl | apply Kept.foldl_fst) | split

theorem kept_execCeMark {s0 : State} {conn : ℕ} {atNs : ℕ} {s : State} (hk : Kept w s0 s) (w_fabric : w .fabric = true) (w_egress : w .egress = true) :
    KeptR w s0 (execCeMark conn atNs s) := by
  unfold execCeMark
  try dsimp only
  repeat' first | intro _ | (with_reducible first | assumption | apply kept_bumpFabric | apply kept_sendOn | apply kept_setConn | apply Kept.ite | apply KeptR.next | apply KeptR.ite | apply Kept.foldl | apply Kept.foldl_fst) | split

theorem kept_execCnp {s0 : State} {conn : ℕ} {s : State} (hk : Kept w s0 s) (w_fabric : w .fabric = true) :
    KeptR w s0 (execCnp conn s) := by
  unfold execCnp
  try dsimp only
  repeat' first | intro _ | (with_reducible first | assumption | apply kept_congested | apply Kept.ite | apply KeptR.next)

theorem kept_execCeRateRecovery {s0 : State} {conn : ℕ} {s : State} (hk : Kept w s0 s) (w_fabric : w .fabric = true) :
    KeptR w s0 (execCeRateRecovery conn s) := by
  unfold execCeRateRecovery
  try dsimp only
  repeat' first | intro _ | (with_reducible first | assumption | apply kept_setConn | apply Kept.ite | apply KeptR.next | apply KeptR.ite | apply Kept.foldl | apply Kept.foldl_fst) | split

theorem kept_execContextFetchDone {s0 : State} {conn : ℕ} {s : State} (hk : Kept w s0 s) (w_host : w .host = true) (w_events : w .events = true) (w_stiles : w .stiles = true) (w_mesh : w .mesh = true) (w_warren : w .warren = true) (w_fabric : w .fabric = true) (w_egress : w .egress = true) (w_t1 : w .t1 = true) (w_hostMem : w .hostMem = true) :
    KeptR w s0 (execContextFetchDone conn s) := by
  unfold execContextFetchDone
  try dsimp only
  repeat' first | intro _ | (with_reducible first | assumption | apply kept_takeWaiting | apply kept_cacheCtx | apply Kept.ite | apply KeptR.next | apply KeptR.ite | apply Kept.foldl | apply Kept.foldl_fst | ((fail_if_success apply Kept.mk_same); first | apply Kept.mk_fabric))

theorem kept_execSysconnRetry {s0 : State} {conn : ℕ} {s : State} (hk : Kept w s0 s) (w_fabric : w .fabric = true) (w_egress : w .egress = true) :
    KeptR w s0 (execSysconnRetry conn s) := by
  unfold execSysconnRetry
  try dsimp only
  repeat' first | intro _ | (with_reducible first | assumption | apply kept_connect | apply Kept.ite | apply KeptR.next | apply KeptR.ite | apply Kept.foldl | apply Kept.foldl_fst) | split

theorem kept_execEgressFrameStart {s0 : State} {port : ℕ} {offPs : ℕ} {s : State} (hk : Kept w s0 s) (w_fabric : w .fabric = true) (w_egress : w .egress = true) :
    KeptR w s0 (execEgressFrameStart port offPs s) := by
  unfold execEgressFrameStart
  refine KeptR.ite hk ?_
  extract_lets t
  have h0 : Kept w s0 t := kept_gateWaits hk w_egress
  clear_value t
  split
  · exact h0
  · split
    · exact h0
    · exact kept_startFrame h0 w_fabric w_egress

theorem kept_execShaperRefill {s0 : State} {us : ℕ} {s : State} (hk : Kept w s0 s) (w_egress : w .egress = true) :
    KeptR w s0 (execShaperRefill us s) := by
  unfold execShaperRefill
  try dsimp only
  repeat' first | intro _ | (with_reducible first | assumption | apply Kept.ite | apply KeptR.next | apply KeptR.ite | apply Kept.foldl | apply Kept.foldl_fst | ((fail_if_success apply Kept.mk_same); first | apply Kept.mk_egress))

theorem kept_execPolicerRefill {s0 : State} {us : ℕ} {s : State} (hk : Kept w s0 s) (w_egress : w .egress = true) :
    KeptR w s0 (execPolicerRefill us s) := by
  unfold execPolicerRefill
  try dsimp only
  repeat' first | intro _ | (with_reducible first | assumption | apply Kept.ite | apply KeptR.next | apply KeptR.ite | apply Kept.foldl | apply Kept.foldl_fst | ((fail_if_success apply Kept.mk_same); first | apply Kept.mk_egress))

theorem kept_execGateOpen {s0 : State} {index : ℕ} {s : State} (hk : Kept w s0 s) (w_tables : w .tables = true) (w_fabric : w .fabric = true) (w_egress : w .egress = true) (w_faults : w .faults = true) :
    KeptR w s0 (execGateOpen index s) := by
  unfold execGateOpen
  try dsimp only
  repeat' first | intro _ | (with_reducible first | assumption | apply kept_gateOpens | apply kept_askPartner | apply kept_exchangeA | apply kept_answerPartner | apply kept_exchangeB | apply Kept.ite | apply KeptR.next | apply KeptR.ite | apply Kept.foldl | apply Kept.foldl_fst) | split

theorem kept_execGateClose {s0 : State} {index : ℕ} {s : State} (hk : Kept w s0 s) (w_egress : w .egress = true) :
    KeptR w s0 (execGateClose index s) := by
  unfold execGateClose
  try dsimp only
  repeat' first | intro _ | (with_reducible first | assumption | apply kept_discardClass | apply Kept.ite | apply KeptR.next | apply KeptR.ite | apply Kept.foldl | apply Kept.foldl_fst | ((fail_if_success apply Kept.mk_same); first | apply Kept.mk_egress) | exact ⟨rfl, rfl⟩) | split

theorem kept_execScanRequest {s0 : State} {payload : List Byte} {atNs : ℕ} {s : State} (hk : Kept w s0 s) (w_tiers : w .tiers = true) (w_fabric : w .fabric = true) (w_faults : w .faults = true) :
    KeptR w s0 (execScanRequest payload atNs s) := by
  unfold execScanRequest
  try dsimp only
  repeat' first | intro _ | (with_reducible first | assumption | apply kept_serveBlocks | apply kept_bumpFabric | apply Kept.ite | apply KeptR.next | apply KeptR.ite | apply Kept.ite_fst | apply Kept.foldl | apply Kept.foldl_fst | ((fail_if_success apply Kept.mk_same); first | apply Kept.mk_faults) | exact ⟨rfl, rfl⟩) | split

theorem kept_execScanResponse {s0 : State} {payload : List Byte} {atNs : ℕ} {s : State} (hk : Kept w s0 s) (w_events : w .events = true) (w_search : w .search = true) (w_flash : w .flash = true) (w_fabric : w .fabric = true) :
    KeptR w s0 (execScanResponse payload atNs s) := by
  unfold execScanResponse
  try dsimp only
  repeat' first | intro _ | (with_reducible first | assumption | apply kept_takeBlocks | apply kept_bumpFabric | apply Kept.ite | apply KeptR.next | apply KeptR.ite | apply Kept.foldl | apply Kept.foldl_fst) | split

theorem kept_execNodeFault {s0 : State} {row : ℕ} {part : ℕ} {s : State} (hk : Kept w s0 s) (w_events : w .events = true) (w_power : w .power = true) :
    KeptR w s0 (execNodeFault row part s) := by
  unfold execNodeFault
  try dsimp only
  repeat' first | intro _ | (with_reducible first | assumption | apply kept_nodeFault | apply Kept.ite | apply KeptR.next)

theorem kept_execRejoinWindowExpiry {s0 : State} {s : State} (hk : Kept w s0 s) (w_faults : w .faults = true) :
    KeptR w s0 (execRejoinWindowExpiry s) := by
  unfold execRejoinWindowExpiry
  try dsimp only
  repeat' first | intro _ | (with_reducible first | assumption | apply Kept.ite | apply KeptR.next | apply KeptR.ite | apply Kept.foldl | apply Kept.foldl_fst | ((fail_if_success apply Kept.mk_same); first | apply Kept.mk_faults))

theorem kept_execSeedComplete {s0 : State} {seed : Seed} {s : State} (hk : Kept w s0 s) (w_tiers : w .tiers = true) (w_tables : w .tables = true) (w_flash : w .flash = true) (w_fabric : w .fabric = true) (w_egress : w .egress = true) (w_t1 : w .t1 = true) (w_faults : w .faults = true) :
    KeptR w s0 (execSeedComplete seed s) := by
  unfold execSeedComplete
  try dsimp only
  repeat' first | (with_reducible first | exact fun _ => rfl | exact Kept.no (by assumption) | exact id | exact fun _ => ⟨rfl, rfl⟩) | intro _ | (with_reducible first | assumption | apply kept_seedList | apply kept_startRejoin | apply Kept.ite | apply KeptR.next | apply KeptR.ite | apply Kept.foldl | apply Kept.foldl_fst | ((fail_if_success apply Kept.mk_same); first | apply Kept.mk_tables | refine Kept.mk_t1 ?_ ?_ ?_ | apply Kept.mk_all) | exact ⟨rfl, rfl⟩ | exact id | apply memWrite_wf | apply memWriteBytes_wf | apply memWriteCells_wf | apply memWf_filter | apply memWf_foldl) | split

theorem kept_execSqTailDoorbell {s0 : State} {fn : ℕ} {ring : ℕ} {value : Word64} {host : HostBytes} {s : State} (hk : Kept w s0 s) (w_host : w .host = true) (w_events : w .events = true) (w_hostMem : w .hostMem = true) :
    KeptR w s0 (execSqTailDoorbell fn ring value host s) := by
  unfold execSqTailDoorbell
  try dsimp only
  repeat' first | intro _ | (with_reducible first | assumption | apply kept_sqTail | apply kept_hostSets | apply Kept.ite | apply KeptR.next)

theorem kept_execCqHeadDoorbell {s0 : State} {fn : ℕ} {ring : ℕ} {value : Word64} {s : State} (hk : Kept w s0 s) (w_host : w .host = true) (w_events : w .events = true) :
    KeptR w s0 (execCqHeadDoorbell fn ring value s) := by
  unfold execCqHeadDoorbell
  try dsimp only
  repeat' first | intro _ | (with_reducible first | assumption | apply kept_cqHead | apply Kept.ite | apply KeptR.next)

theorem kept_execEvHeadDoorbell {s0 : State} {fn : ℕ} {value : Word64} {s : State} (hk : Kept w s0 s) (w_host : w .host = true) :
    KeptR w s0 (execEvHeadDoorbell fn value s) := by
  unfold execEvHeadDoorbell
  try dsimp only
  repeat' first | intro _ | (with_reducible first | assumption | apply kept_evHead | apply Kept.ite | apply KeptR.next)

theorem kept_execRxTailDoorbell {s0 : State} {fn : ℕ} {value : Word64} {host : HostBytes} {s : State} (hk : Kept w s0 s) (w_host : w .host = true) (w_hostMem : w .hostMem = true) :
    KeptR w s0 (execRxTailDoorbell fn value host s) := by
  unfold execRxTailDoorbell
  try dsimp only
  repeat' first | intro _ | (with_reducible first | assumption | apply kept_rxTail | apply kept_hostSets | apply Kept.ite | apply KeptR.next)

theorem kept_execRingCfgWrite {s0 : State} {fn : ℕ} {ring : RingName} {value : Word64} {s : State} (hk : Kept w s0 s) (w_host : w .host = true) (w_events : w .events = true) :
    KeptR w s0 (execRingCfgWrite fn ring value s) := by
  unfold execRingCfgWrite
  try dsimp only
  repeat' first | intro _ | (with_reducible first | assumption | apply kept_ringCfg | apply Kept.ite | apply KeptR.next)

theorem kept_execHostReadFail {s0 : State} {fn : ℕ} {what : HostRead} {s : State} (hk : Kept w s0 s) (w_host : w .host = true) (w_events : w .events = true) (w_warren : w .warren = true) (w_tiers : w .tiers = true) (w_search : w .search = true) (w_tables : w .tables = true) (w_flash : w .flash = true) (w_faults : w .faults = true) (w_obs : w .obs = true) :
    KeptR w s0 (execHostReadFail fn what s) := by
  unfold execHostReadFail
  try dsimp only
  repeat' first | intro _ | (with_reducible first | assumption | apply kept_bumpFn | apply kept_haltRing | apply kept_dataFails | apply kept_valueFails | apply kept_moveFails | apply kept_loadLands | apply kept_selectLands | apply Kept.ite | apply KeptR.next | apply KeptR.ite | apply Kept.foldl | apply Kept.foldl_fst) | split

theorem kept_execEventRecordWrite {s0 : State} {s : State} (hk : Kept w s0 s) (w_host : w .host = true) (w_events : w .events = true) (w_hostMem : w .hostMem = true) :
    KeptR w s0 (execEventRecordWrite s) := by
  unfold execEventRecordWrite
  try dsimp only
  repeat' first | intro _ | (with_reducible first | assumption | apply kept_hostWrite | apply kept_setFn | apply kept_sendVector | apply Kept.ite | apply KeptR.next | apply KeptR.ite | apply Kept.foldl | apply Kept.foldl_fst | ((fail_if_success apply Kept.mk_same); first | apply Kept.mk_events) | exact ⟨rfl, rfl⟩) | split

theorem kept_execBeginTxn {s0 : State} {d : Desc} {s : State} (hk : Kept w s0 s) (w_host : w .host = true) (w_events : w .events = true) (w_obs : w .obs = true) :
    KeptR w s0 (execBeginTxn d s) := by
  unfold execBeginTxn
  try dsimp only
  repeat' first | intro _ | (with_reducible first | assumption | apply kept_runDesc | apply kept_beginBody | apply Kept.ite | apply KeptR.next)

theorem kept_execSetItem {s0 : State} {d : Desc} {s : State} (hk : Kept w s0 s) (w_host : w .host = true) (w_events : w .events = true) (w_obs : w .obs = true) :
    KeptR w s0 (execSetItem d s) := by
  unfold execSetItem
  try dsimp only
  repeat' first | intro _ | (with_reducible first | assumption | apply kept_runDesc | apply kept_setBody | apply Kept.ite | apply KeptR.next)

theorem kept_execCommit {s0 : State} {d : Desc} {s : State} (hk : Kept w s0 s) (w_plan : w .plan = true) (w_host : w .host = true) (w_events : w .events = true) (w_obs : w .obs = true) :
    KeptR w s0 (execCommit d s) := by
  unfold execCommit
  try dsimp only
  repeat' first | intro _ | (with_reducible first | assumption | apply kept_runDesc | apply kept_commitBody | apply Kept.ite | apply KeptR.next)

theorem kept_execRollback {s0 : State} {d : Desc} {s : State} (hk : Kept w s0 s) (w_host : w .host = true) (w_events : w .events = true) (w_obs : w .obs = true) :
    KeptR w s0 (execRollback d s) := by
  unfold execRollback
  try dsimp only
  repeat' first | intro _ | (with_reducible first | assumption | apply kept_runDesc | apply kept_rollbackBody | apply Kept.ite | apply KeptR.next)

theorem kept_execPlanStage {s0 : State} {d : Desc} {s : State} (hk : Kept w s0 s) (w_plan : w .plan = true) (w_host : w .host = true) (w_events : w .events = true) (w_obs : w .obs = true) :
    KeptR w s0 (execPlanStage d s) := by
  unfold execPlanStage
  try dsimp only
  repeat' first | intro _ | (with_reducible first | assumption | apply kept_runDesc | apply kept_planStageBody | apply Kept.ite | apply KeptR.next)

theorem kept_execConnOpen {s0 : State} {d : Desc} {s : State} (hk : Kept w s0 s) (w_host : w .host = true) (w_events : w .events = true) (w_fabric : w .fabric = true) (w_obs : w .obs = true) (w_free : w .free = true) :
    KeptR w s0 (execConnOpen d s) := by
  unfold execConnOpen
  try dsimp only
  repeat' first | intro _ | (with_reducible first | assumption | apply kept_runDesc | apply kept_connOpenBody | apply Kept.ite | apply KeptR.next)

theorem kept_execConnClose {s0 : State} {d : Desc} {s : State} (hk : Kept w s0 s) (w_host : w .host = true) (w_events : w .events = true) (w_fabric : w .fabric = true) (w_obs : w .obs = true) :
    KeptR w s0 (execConnClose d s) := by
  unfold execConnClose
  try dsimp only
  repeat' first | intro _ | (with_reducible first | assumption | apply kept_runDesc | apply kept_endWith | apply kept_mapConn | apply Kept.ite | apply KeptR.next)

theorem kept_execQuiesceOwn {s0 : State} {d : Desc} {s : State} (hk : Kept w s0 s) (w_host : w .host = true) (w_events : w .events = true) (w_fabric : w .fabric = true) (w_egress : w .egress = true) (w_obs : w .obs = true) :
    KeptR w s0 (execQuiesceOwn d s) := by
  unfold execQuiesceOwn
  try dsimp only
  repeat' first | intro _ | (with_reducible first | assumption | apply kept_runDesc | apply kept_quiesceBody | apply Kept.ite | apply KeptR.next)

theorem kept_execQuiesceAll {s0 : State} {d : Desc} {s : State} (hk : Kept w s0 s) (w_host : w .host = true) (w_events : w .events = true) (w_fabric : w .fabric = true) (w_egress : w .egress = true) (w_obs : w .obs = true) :
    KeptR w s0 (execQuiesceAll d s) := by
  unfold execQuiesceAll
  try dsimp only
  repeat' first | intro _ | (with_reducible first | assumption | apply kept_runDesc | apply kept_quiesceBody | apply Kept.ite | apply KeptR.next)

theorem kept_execQuiesceRemote {s0 : State} {d : Desc} {s : State} (hk : Kept w s0 s) (w_host : w .host = true) (w_events : w .events = true) (w_fabric : w .fabric = true) (w_egress : w .egress = true) (w_obs : w .obs = true) :
    KeptR w s0 (execQuiesceRemote d s) := by
  unfold execQuiesceRemote
  try dsimp only
  repeat' first | intro _ | (with_reducible first | assumption | apply kept_runDesc | apply kept_quiesceBody | apply Kept.ite | apply KeptR.next)

theorem kept_execQuiesceMessage {s0 : State} {sender : ℕ} {func : ℕ} {quiesce : Bool} {s : State} (hk : Kept w s0 s) (w_host : w .host = true) :
    KeptR w s0 (execQuiesceMessage sender func quiesce s) := by
  unfold execQuiesceMessage
  try dsimp only
  repeat' first | intro _ | (with_reducible first | assumption | apply kept_setQuiesce | apply Kept.ite | apply KeptR.next | apply KeptR.ite | apply Kept.foldl | apply Kept.foldl_fst | ((fail_if_success apply Kept.mk_same); first | apply Kept.mk_host))

theorem kept_execResume {s0 : State} {d : Desc} {s : State} (hk : Kept w s0 s) (w_host : w .host = true) (w_events : w .events = true) (w_fabric : w .fabric = true) (w_egress : w .egress = true) (w_obs : w .obs = true) :
    KeptR w s0 (execResume d s) := by
  unfold execResume
  try dsimp only
  repeat' first | intro _ | (with_reducible first | assumption | apply kept_runDesc | apply kept_quiesceBody | apply Kept.ite | apply KeptR.next)

theorem kept_execWatch {s0 : State} {d : Desc} {s : State} (hk : Kept w s0 s) (w_host : w .host = true) (w_events : w .events = true) (w_obs : w .obs = true) :
    KeptR w s0 (execWatch d s) := by
  unfold execWatch
  try dsimp only
  repeat' first | intro _ | (with_reducible first | assumption | apply kept_runDesc | apply kept_watchBody | apply Kept.ite | apply KeptR.next)

theorem kept_execWatchDumpDone {s0 : State} {s : State} (hk : Kept w s0 s) (w_host : w .host = true) (w_hostMem : w .hostMem = true) (w_obs : w .obs = true) :
    KeptR w s0 (execWatchDumpDone s) := by
  unfold execWatchDumpDone
  try dsimp only
  repeat' first | intro _ | (with_reducible first | assumption | apply kept_endWatch | apply kept_hostWrite | apply Kept.ite | apply KeptR.next | apply KeptR.ite | apply Kept.foldl | apply Kept.foldl_fst) | split

theorem kept_execCompositionLoad {s0 : State} {host : HostBytes} {domains : List DomainRec} {s : State} (hk : Kept w s0 s) (w_host : w .host = true) (w_hostMem : w .hostMem = true) (w_faults : w .faults = true) :
    KeptR w s0 (execCompositionLoad host domains s) := by
  unfold execCompositionLoad
  try dsimp only
  repeat' first | intro _ | (with_reducible first | assumption | apply kept_compLoad | apply kept_hostSets | apply Kept.ite | apply KeptR.next)

theorem kept_execCompositionCheckDone {s0 : State} {s : State} (hk : Kept w s0 s) (w_host : w .host = true) :
    KeptR w s0 (execCompositionCheckDone s) := by
  unfold execCompositionCheckDone
  try dsimp only
  repeat' first | intro _ | (with_reducible first | assumption | apply Kept.ite | apply KeptR.next | apply KeptR.ite | apply Kept.foldl | apply Kept.foldl_fst | ((fail_if_success apply Kept.mk_same); first | apply Kept.mk_host) | exact ⟨rfl, rfl⟩) | split

theorem kept_execFlr {s0 : State} {fn : ℕ} {s : State} (hk : Kept w s0 s) (w_plan : w .plan = true) (w_host : w .host = true) (w_events : w .events = true) (w_stiles : w .stiles = true) (w_search : w .search = true) (w_tables : w .tables = true) (w_flash : w .flash = true) (w_fabric : w .fabric = true) (w_egress : w .egress = true) (w_obs : w .obs = true) :
    KeptR w s0 (execFlr fn s) := by
  unfold execFlr
  try dsimp only
  repeat' first | intro _ | (with_reducible first | assumption | apply kept_flrOne | apply Kept.ite | apply KeptR.next | apply KeptR.ite | apply Kept.foldl)

theorem kept_execPerstN {s0 : State} {s : State} (hk : Kept w s0 s) (w_plan : w .plan = true) (w_host : w .host = true) (w_events : w .events = true) (w_stiles : w .stiles = true) (w_search : w .search = true) (w_tables : w .tables = true) (w_flash : w .flash = true) (w_fabric : w .fabric = true) (w_egress : w .egress = true) (w_obs : w .obs = true) :
    KeptR w s0 (execPerstN s) := by
  unfold execPerstN
  try dsimp only
  repeat' first | intro _ | (with_reducible first | assumption | apply kept_flrOne | apply Kept.ite | apply KeptR.next | apply KeptR.ite | apply Kept.foldl | apply Kept.foldl_fst | ((fail_if_success apply Kept.mk_same); first | apply Kept.mk_host))

theorem kept_execPwrGoodRise {s0 : State} {rails : List (ℕ × ℕ)} {s : State} (hk : Kept w s0 s) (w_tick : w .tick = true) (w_clock : w .clock = true) (w_ptp : w .ptp = true) (w_plan : w .plan = true) (w_items : w .items = true) (w_host : w .host = true) (w_events : w .events = true) (w_stiles : w .stiles = true) (w_mesh : w .mesh = true) (w_warren : w .warren = true) (w_tiers : w .tiers = true) (w_search : w .search = true) (w_tables : w .tables = true) (w_flash : w .flash = true) (w_fabric : w .fabric = true) (w_egress : w .egress = true) (w_t1 : w .t1 = true) (w_faults : w .faults = true) (w_power : w .power = true) (w_test : w .test = true) (w_cycle : w .cycle = true) (w_regs : w .regs = true) (w_obs : w .obs = true) :
    KeptR w s0 (execPwrGoodRise rails s) := by
  unfold execPwrGoodRise
  try dsimp only
  repeat' first | (with_reducible first | exact fun _ => rfl | exact Kept.no (by assumption) | exact id | exact fun _ => ⟨rfl, rfl⟩) | intro _ | (with_reducible first | assumption | apply kept_coldState | apply Kept.ite | apply KeptR.next | apply KeptR.ite | apply Kept.foldl | apply Kept.foldl_fst | ((fail_if_success apply Kept.mk_same); first | apply Kept.mk_power | apply Kept.mk_all) | exact ⟨rfl, rfl⟩) | split

theorem kept_execPwrGoodFall {s0 : State} {s : State} (hk : Kept w s0 s) (w_flash : w .flash = true) (w_power : w .power = true) :
    KeptR w s0 (execPwrGoodFall s) := by
  unfold execPwrGoodFall
  try dsimp only
  repeat' first | (with_reducible first | exact fun _ => rfl | exact Kept.no (by assumption) | exact id | exact fun _ => ⟨rfl, rfl⟩) | intro _ | (with_reducible first | assumption | apply Kept.ite | apply KeptR.next | apply KeptR.ite | apply Kept.foldl | apply Kept.foldl_fst | ((fail_if_success apply Kept.mk_same); first | apply Kept.mk_all))

theorem kept_execSupplyFault {s0 : State} {rail : ℕ} {mv : ℕ} {us : ℕ} {s : State} (hk : Kept w s0 s) (w_events : w .events = true) (w_power : w .power = true) :
    KeptR w s0 (execSupplyFault rail mv us s) := by
  unfold execSupplyFault
  try dsimp only
  repeat' first | intro _ | (with_reducible first | assumption | apply kept_faultHold | apply kept_raise | apply Kept.ite | apply KeptR.next | apply KeptR.ite | apply Kept.foldl | apply Kept.foldl_fst | ((fail_if_success apply Kept.mk_same); first | apply Kept.mk_power))

theorem kept_execPllLockTimeout {s0 : State} {pll : ℕ} {s : State} (hk : Kept w s0 s) (w_power : w .power = true) :
    KeptR w s0 (execPllLockTimeout pll s) := by
  unfold execPllLockTimeout
  try dsimp only
  repeat' first | intro _ | (with_reducible first | assumption | apply Kept.ite | apply KeptR.next | apply KeptR.ite | apply Kept.foldl | apply Kept.foldl_fst | ((fail_if_success apply Kept.mk_same); first | apply Kept.mk_power))

theorem kept_execPllLockLoss {s0 : State} {pll : ℕ} {s : State} (hk : Kept w s0 s) (w_events : w .events = true) (w_power : w .power = true) (w_free : w .free = true) :
    KeptR w s0 (execPllLockLoss pll s) := by
  unfold execPllLockLoss
  try dsimp only
  repeat' first | intro _ | (with_reducible first | assumption | apply kept_faultHold | apply kept_tookFresh | apply Kept.ite | apply KeptR.next)

theorem kept_execAvsChange {s0 : State} {temp : ℕ} {target : ℕ} {s : State} (hk : Kept w s0 s) (w_events : w .events = true) (w_power : w .power = true) :
    KeptR w s0 (execAvsChange temp target s) := by
  unfold execAvsChange
  try dsimp only
  repeat' first | intro _ | (with_reducible first | assumption | apply kept_raise | apply Kept.ite | apply KeptR.next | apply KeptR.ite | apply Kept.foldl | apply Kept.foldl_fst | ((fail_if_success apply Kept.mk_same); first | apply Kept.mk_power))

theorem kept_execAvsLate {s0 : State} {mv : ℕ} {s : State} (hk : Kept w s0 s) (w_events : w .events = true) (w_power : w .power = true) :
    KeptR w s0 (execAvsLate mv s) := by
  unfold execAvsLate
  try dsimp only
  repeat' first | intro _ | (with_reducible first | assumption | apply kept_raise | apply Kept.ite | apply KeptR.next | apply KeptR.ite | apply Kept.foldl | apply Kept.foldl_fst | ((fail_if_success apply Kept.mk_same); first | apply Kept.mk_power))

theorem kept_execDieWarn {s0 : State} {sensor : ℕ} {temp : ℕ} {s : State} (hk : Kept w s0 s) (w_events : w .events = true) (w_power : w .power = true) :
    KeptR w s0 (execDieWarn sensor temp s) := by
  unfold execDieWarn
  try dsimp only
  repeat' first | intro _ | (with_reducible first | assumption | apply kept_raise | apply Kept.ite | apply KeptR.next | apply KeptR.ite | apply Kept.foldl | apply Kept.foldl_fst | ((fail_if_success apply Kept.mk_same); first | apply Kept.mk_power))

theorem kept_execDieWarnEnd {s0 : State} {sensor : ℕ} {temp : ℕ} {s : State} (hk : Kept w s0 s) (w_events : w .events = true) (w_power : w .power = true) :
    KeptR w s0 (execDieWarnEnd sensor temp s) := by
  unfold execDieWarnEnd
  try dsimp only
  repeat' first | intro _ | (with_reducible first | assumption | apply kept_raise | apply Kept.ite | apply KeptR.next | apply KeptR.ite | apply Kept.foldl | apply Kept.foldl_fst | ((fail_if_success apply Kept.mk_same); first | apply Kept.mk_power))

theorem kept_execThermalTrip {s0 : State} {onStack : Bool} {sensor : ℕ} {temp : ℕ} {s : State} (hk : Kept w s0 s) (w_events : w .events = true) (w_warren : w .warren = true) (w_power : w .power = true) :
    KeptR w s0 (execThermalTrip onStack sensor temp s) := by
  unfold execThermalTrip
  try dsimp only
  repeat' first | intro _ | (with_reducible first | assumption | apply kept_setStack | apply kept_raise | apply kept_faultHold | apply Kept.ite | apply KeptR.next | apply KeptR.ite | apply Kept.foldl | apply Kept.foldl_fst | ((fail_if_success apply Kept.mk_same); first | apply Kept.mk_power))

theorem kept_execColdReset {s0 : State} {s : State} (hk : Kept w s0 s) (w_tick : w .tick = true) (w_clock : w .clock = true) (w_ptp : w .ptp = true) (w_plan : w .plan = true) (w_items : w .items = true) (w_host : w .host = true) (w_events : w .events = true) (w_stiles : w .stiles = true) (w_mesh : w .mesh = true) (w_warren : w .warren = true) (w_tiers : w .tiers = true) (w_search : w .search = true) (w_tables : w .tables = true) (w_flash : w .flash = true) (w_fabric : w .fabric = true) (w_egress : w .egress = true) (w_t1 : w .t1 = true) (w_faults : w .faults = true) (w_power : w .power = true) (w_test : w .test = true) (w_cycle : w .cycle = true) (w_regs : w .regs = true) (w_obs : w .obs = true) :
    KeptR w s0 (execColdReset s) := by
  unfold execColdReset
  try dsimp only
  repeat' first | intro _ | (with_reducible first | assumption | apply kept_coldState | apply Kept.ite | apply KeptR.next | apply KeptR.ite | apply Kept.foldl | apply Kept.foldl_fst | ((fail_if_success apply Kept.mk_same); first | apply Kept.mk_power))

theorem kept_execWarmReset {s0 : State} {s : State} (hk : Kept w s0 s) (w_tick : w .tick = true) (w_clock : w .clock = true) (w_ptp : w .ptp = true) (w_plan : w .plan = true) (w_items : w .items = true) (w_host : w .host = true) (w_events : w .events = true) (w_stiles : w .stiles = true) (w_mesh : w .mesh = true) (w_warren : w .warren = true) (w_tiers : w .tiers = true) (w_search : w .search = true) (w_tables : w .tables = true) (w_flash : w .flash = true) (w_fabric : w .fabric = true) (w_egress : w .egress = true) (w_faults : w .faults = true) (w_power : w .power = true) (w_regs : w .regs = true) (w_obs : w .obs = true) :
    KeptR w s0 (execWarmReset s) := by
  unfold execWarmReset
  try dsimp only
  repeat' first | intro _ | (with_reducible first | assumption | apply kept_warmReset | apply Kept.ite | apply KeptR.next)

theorem kept_execBootStepComplete {s0 : State} {r : BootReport} {s : State} (hk : Kept w s0 s) (w_tick : w .tick = true) (w_clock : w .clock = true) (w_plan : w .plan = true) (w_events : w .events = true) (w_mesh : w .mesh = true) (w_warren : w .warren = true) (w_tables : w .tables = true) (w_flash : w .flash = true) (w_faults : w .faults = true) (w_power : w .power = true) (w_test : w .test = true) (w_free : w .free = true) :
    KeptR w s0 (execBootStepComplete r s) := by
  unfold execBootStepComplete
  try dsimp only
  repeat' first | intro _ | (with_reducible first | assumption | apply kept_bootRom | apply kept_bootSram | apply kept_bootStacks | apply kept_bootFlash | apply kept_bootLock | apply kept_bootStep | apply kept_bootPlan | apply Kept.ite | apply KeptR.next | apply KeptR.ite | apply Kept.foldl | apply Kept.foldl_fst) | split

theorem kept_execShepherdSolo {s0 : State} {core : ℕ} {kind : ℕ} {s : State} (hk : Kept w s0 s) (w_events : w .events = true) (w_power : w .power = true) :
    KeptR w s0 (execShepherdSolo core kind s) := by
  unfold execShepherdSolo
  try dsimp only
  repeat' first | intro _ | (with_reducible first | assumption | apply kept_raise | apply kept_faultHold | apply Kept.ite | apply KeptR.next | apply KeptR.ite | apply Kept.foldl | apply Kept.foldl_fst | ((fail_if_success apply Kept.mk_same); first | apply Kept.mk_power))

theorem kept_execFallowEnter {s0 : State} {s : State} (hk : Kept w s0 s) (w_events : w .events = true) (w_mesh : w .mesh = true) (w_warren : w .warren = true) (w_power : w .power = true) :
    KeptR w s0 (execFallowEnter s) := by
  unfold execFallowEnter
  try dsimp only
  repeat' first | (with_reducible first | exact fun _ => rfl | exact Kept.no (by assumption) | exact id | exact fun _ => ⟨rfl, rfl⟩) | intro _ | (with_reducible first | assumption | apply kept_raise | apply Kept.ite | apply KeptR.next | apply KeptR.ite | apply Kept.foldl | apply Kept.foldl_fst | ((fail_if_success apply Kept.mk_same); first | apply Kept.mk_all))

theorem kept_execWakeComplete {s0 : State} {s : State} (hk : Kept w s0 s) (w_host : w .host = true) (w_warren : w .warren = true) (w_power : w .power = true) (w_obs : w .obs = true) :
    KeptR w s0 (execWakeComplete s) := by
  unfold execWakeComplete
  try dsimp only
  repeat' first | intro _ | (with_reducible first | assumption | apply kept_setBurrow | apply kept_watchNone | apply Kept.ite | apply KeptR.next | apply KeptR.ite | apply Kept.foldl | apply Kept.foldl_fst | ((fail_if_success apply Kept.mk_same); first | apply Kept.mk_power))

theorem kept_execBistCurrentSample {s0 : State} {amps : ℕ} {mv : ℕ} {mhz : ℕ} {s : State} (hk : Kept w s0 s) (w_power : w .power = true) (w_test : w .test = true) :
    KeptR w s0 (execBistCurrentSample amps mv mhz s) := by
  unfold execBistCurrentSample
  try dsimp only
  repeat' first | intro _ | (with_reducible first | assumption | apply kept_bistStops | apply Kept.ite | apply KeptR.next | apply KeptR.ite | apply Kept.foldl | apply Kept.foldl_fst | ((fail_if_success apply Kept.mk_same); first | refine Kept.mk_test ?_ ?_ ?_) | exact ⟨rfl, rfl⟩) | split | (with_reducible first | refine Kept.fst (by assumption) ?_) | exact rfl

theorem kept_execBistComplete {s0 : State} {r : BistReport} {s : State} (hk : Kept w s0 s) (w_events : w .events = true) (w_mesh : w .mesh = true) (w_faults : w .faults = true) (w_power : w .power = true) (w_test : w .test = true) (w_free : w .free = true) :
    KeptR w s0 (execBistComplete r s) := by
  unfold execBistComplete
  try dsimp only
  repeat' first | intro _ | (with_reducible first | assumption | apply kept_tookFresh | apply kept_bistSafe | apply kept_bistPass | apply Kept.ite | apply KeptR.next | apply KeptR.ite | apply Kept.foldl | apply Kept.foldl_fst | ((fail_if_success apply Kept.mk_same); first | refine Kept.mk_test ?_ ?_ ?_) | exact ⟨rfl, rfl⟩) | split | (with_reducible first | refine Kept.fst (by assumption) ?_) | exact rfl

theorem kept_execToTest {s0 : State} {s : State} (hk : Kept w s0 s) (w_power : w .power = true) (w_test : w .test = true) (w_cycle : w .cycle = true) (w_free : w .free = true) :
    KeptR w s0 (execToTest s) := by
  unfold execToTest
  try dsimp only
  repeat' first | intro _ | (with_reducible first | assumption | apply kept_lcRequest | apply Kept.ite | apply KeptR.next)

theorem kept_execToProvisioned {s0 : State} {s : State} (hk : Kept w s0 s) (w_power : w .power = true) (w_test : w .test = true) (w_cycle : w .cycle = true) (w_free : w .free = true) :
    KeptR w s0 (execToProvisioned s) := by
  unfold execToProvisioned
  try dsimp only
  repeat' first | intro _ | (with_reducible first | assumption | apply kept_lcRequest | apply Kept.ite | apply KeptR.next)

theorem kept_execToDeployed {s0 : State} {s : State} (hk : Kept w s0 s) (w_power : w .power = true) (w_test : w .test = true) (w_cycle : w .cycle = true) (w_free : w .free = true) :
    KeptR w s0 (execToDeployed s) := by
  unfold execToDeployed
  try dsimp only
  repeat' first | intro _ | (with_reducible first | assumption | apply kept_lcRequest | apply Kept.ite | apply KeptR.next)

theorem kept_execToReturned {s0 : State} {s : State} (hk : Kept w s0 s) (w_power : w .power = true) (w_test : w .test = true) (w_cycle : w .cycle = true) (w_free : w .free = true) :
    KeptR w s0 (execToReturned s) := by
  unfold execToReturned
  try dsimp only
  repeat' first | intro _ | (with_reducible first | assumption | apply kept_lcRequest | apply Kept.ite | apply KeptR.next)

theorem kept_execToDead {s0 : State} {s : State} (hk : Kept w s0 s) (w_power : w .power = true) (w_test : w .test = true) (w_cycle : w .cycle = true) (w_free : w .free = true) :
    KeptR w s0 (execToDead s) := by
  unfold execToDead
  try dsimp only
  repeat' first | intro _ | (with_reducible first | assumption | apply kept_lcRequest | apply Kept.ite | apply KeptR.next)

theorem kept_execLcEraseComplete {s0 : State} {bad : List (ℕ × ℕ × ℕ)} {s : State} (hk : Kept w s0 s) (w_plan : w .plan = true) (w_host : w .host = true) (w_stiles : w .stiles = true) (w_tiers : w .tiers = true) (w_search : w .search = true) (w_tables : w .tables = true) (w_flash : w .flash = true) (w_fabric : w .fabric = true) (w_t1 : w .t1 = true) (w_power : w .power = true) (w_test : w .test = true) (w_cycle : w .cycle = true) :
    KeptR w s0 (execLcEraseComplete bad s) := by
  unfold execLcEraseComplete
  try dsimp only
  repeat' first | (with_reducible first | exact fun _ => rfl | exact Kept.no (by assumption) | exact id | exact fun _ => ⟨rfl, rfl⟩) | intro _ | (with_reducible first | assumption | apply kept_safe | apply Kept.ite | apply KeptR.next | apply KeptR.ite | apply Kept.foldl | apply Kept.foldl_fst | ((fail_if_success apply Kept.mk_same); first | apply Kept.mk_all) | exact ⟨rfl, rfl⟩ | exact id | apply memWrite_wf | apply memWriteBytes_wf | apply memWriteCells_wf | apply memWf_filter | apply memWf_foldl) | split | (with_reducible first | refine Kept.fst (by assumption) ?_) | exact rfl

theorem kept_execCountImageWrite {s0 : State} {fn : ℕ} {s : State} (hk : Kept w s0 s) (w_hostMem : w .hostMem = true) (w_obs : w .obs = true) :
    KeptR w s0 (execCountImageWrite fn s) := by
  unfold execCountImageWrite
  try dsimp only
  repeat' first | intro _ | (with_reducible first | assumption | apply kept_hostWrite | apply Kept.ite | apply KeptR.next | apply KeptR.ite | apply Kept.foldl | apply Kept.foldl_fst | ((fail_if_success apply Kept.mk_same); first | apply Kept.mk_obs))

theorem kept_execTraceWrap {s0 : State} {s : State} (hk : Kept w s0 s) (w_obs : w .obs = true) :
    KeptR w s0 (execTraceWrap s) := by
  unfold execTraceWrap
  try dsimp only
  repeat' first | intro _ | (with_reducible first | assumption | apply kept_traceRec | apply Kept.ite | apply KeptR.next | apply KeptR.ite | apply Kept.foldl | apply Kept.foldl_fst | ((fail_if_success apply Kept.mk_same); first | apply Kept.mk_obs))

theorem kept_execTraceStatusWrite {s0 : State} {s : State} (hk : Kept w s0 s) (w_hostMem : w .hostMem = true) (w_obs : w .obs = true) :
    KeptR w s0 (execTraceStatusWrite s) := by
  unfold execTraceStatusWrite
  try dsimp only
  repeat' first | intro _ | (with_reducible first | assumption | apply kept_traceWrite | apply kept_hostWrite | apply Kept.ite | apply KeptR.next | apply KeptR.ite | apply Kept.foldl | apply Kept.foldl_fst | ((fail_if_success apply Kept.mk_same); first | apply Kept.mk_obs))

theorem kept_execTraceLostRecord {s0 : State} {s : State} (hk : Kept w s0 s) (w_obs : w .obs = true) :
    KeptR w s0 (execTraceLostRecord s) := by
  unfold execTraceLostRecord
  try dsimp only
  repeat' first | intro _ | (with_reducible first | assumption | apply kept_traceRec | apply Kept.ite | apply KeptR.next | apply KeptR.ite | apply Kept.foldl | apply Kept.foldl_fst | ((fail_if_success apply Kept.mk_same); first | apply Kept.mk_obs))

theorem kept_execReadItem {s0 : State} {fn : ℕ} {arg : Word64} {s : State} (hk : Kept w s0 s) (w_regs : w .regs = true) :
    KeptR w s0 (execReadItem fn arg s) := by
  unfold execReadItem
  try dsimp only
  repeat' first | intro _ | (with_reducible first | assumption | apply kept_mbxCommand | apply Kept.ite | apply KeptR.next)

theorem kept_execReadPlan {s0 : State} {arg : Word64} {s : State} (hk : Kept w s0 s) (w_regs : w .regs = true) :
    KeptR w s0 (execReadPlan arg s) := by
  unfold execReadPlan
  try dsimp only
  repeat' first | intro _ | (with_reducible first | assumption | apply kept_mbxCommand | apply Kept.ite | apply KeptR.next)

theorem kept_execReadSpares {s0 : State} {arg : Word64} {s : State} (hk : Kept w s0 s) (w_regs : w .regs = true) :
    KeptR w s0 (execReadSpares arg s) := by
  unfold execReadSpares
  try dsimp only
  repeat' first | intro _ | (with_reducible first | assumption | apply kept_mbxCommand | apply Kept.ite | apply KeptR.next)

theorem kept_execReadSnapshots {s0 : State} {arg : Word64} {s : State} (hk : Kept w s0 s) (w_regs : w .regs = true) :
    KeptR w s0 (execReadSnapshots arg s) := by
  unfold execReadSnapshots
  try dsimp only
  repeat' first | intro _ | (with_reducible first | assumption | apply kept_mbxCommand | apply Kept.ite | apply KeptR.next)

theorem kept_execMailboxCommandEnd {s0 : State} {s : State} (hk : Kept w s0 s) (w_regs : w .regs = true) :
    KeptR w s0 (execMailboxCommandEnd s) := by
  unfold execMailboxCommandEnd
  try dsimp only
  repeat' first | intro _ | (with_reducible first | assumption | apply Kept.ite | apply KeptR.next | apply KeptR.ite | apply Kept.foldl | apply Kept.foldl_fst | ((fail_if_success apply Kept.mk_same); first | apply Kept.mk_regs))

theorem kept_execSmbusRead {s0 : State} {off : ℕ} {pec : Bool} {s : State} (hk : Kept w s0 s) (w_tick : w .tick = true) (w_host : w .host = true) (w_stiles : w .stiles = true) (w_warren : w .warren = true) (w_flash : w .flash = true) (w_fabric : w .fabric = true) (w_egress : w .egress = true) (w_power : w .power = true) (w_test : w .test = true) (w_regs : w .regs = true) (w_free : w .free = true) :
    KeptR w s0 (execSmbusRead off pec s) := by
  unfold execSmbusRead
  try dsimp only
  repeat' first | intro _ | (with_reducible first | assumption | apply kept_smbusWord | apply kept_returned | apply kept_badAccess | apply Kept.ite | apply KeptR.next | apply KeptR.ite | exact KeptQ.none | apply KeptQ.some | apply Kept.foldl | apply Kept.foldl_fst) | split | (with_reducible first | refine Kept.fst (by assumption) ?_ | refine KeptQ.of (by assumption) ?_)

theorem kept_execSmbusWrite {s0 : State} {off : ℕ} {value : Word32} {pec : Bool} {s : State} (hk : Kept w s0 s) (w_tick : w .tick = true) (w_clock : w .clock = true) (w_ptp : w .ptp = true) (w_plan : w .plan = true) (w_items : w .items = true) (w_host : w .host = true) (w_events : w .events = true) (w_stiles : w .stiles = true) (w_mesh : w .mesh = true) (w_warren : w .warren = true) (w_tiers : w .tiers = true) (w_search : w .search = true) (w_tables : w .tables = true) (w_flash : w .flash = true) (w_fabric : w .fabric = true) (w_egress : w .egress = true) (w_faults : w .faults = true) (w_power : w .power = true) (w_test : w .test = true) (w_cycle : w .cycle = true) (w_regs : w .regs = true) (w_obs : w .obs = true) (w_free : w .free = true) :
    KeptR w s0 (execSmbusWrite off value pec s) := by
  unfold execSmbusWrite
  try dsimp only
  repeat' first | intro _ | (with_reducible first | assumption | apply kept_smbusPut | apply kept_badAccess | apply Kept.ite | apply KeptR.next | apply KeptR.ite | exact KeptO.none | apply KeptO.some | apply KeptO.ite | apply Kept.foldl | apply Kept.foldl_fst) | split | (with_reducible first | refine Kept.fst (by assumption) ?_ | refine KeptO.of (by assumption) ?_)

theorem kept_execDbMemDataRead {s0 : State} {s : State} (hk : Kept w s0 s) (w_tick : w .tick = true) (w_host : w .host = true) (w_stiles : w .stiles = true) (w_warren : w .warren = true) (w_flash : w .flash = true) (w_fabric : w .fabric = true) (w_egress : w .egress = true) (w_power : w .power = true) (w_test : w .test = true) (w_regs : w .regs = true) :
    KeptR w s0 (execDbMemDataRead s) := by
  unfold execDbMemDataRead
  try dsimp only
  repeat' first | intro _ | (with_reducible first | assumption | apply kept_bar0Read | apply Kept.ite | apply KeptR.next)

theorem kept_execDbMemDataWrite {s0 : State} {value : Word64} {s : State} (hk : Kept w s0 s) (w_tick : w .tick = true) (w_clock : w .clock = true) (w_ptp : w .ptp = true) (w_plan : w .plan = true) (w_items : w .items = true) (w_host : w .host = true) (w_events : w .events = true) (w_stiles : w .stiles = true) (w_mesh : w .mesh = true) (w_warren : w .warren = true) (w_tiers : w .tiers = true) (w_search : w .search = true) (w_tables : w .tables = true) (w_flash : w .flash = true) (w_fabric : w .fabric = true) (w_egress : w .egress = true) (w_t1 : w .t1 = true) (w_faults : w .faults = true) (w_power : w .power = true) (w_test : w .test = true) (w_cycle : w .cycle = true) (w_regs : w .regs = true) (w_obs : w .obs = true) (w_free : w .free = true) :
    KeptR w s0 (execDbMemDataWrite value s) := by
  unfold execDbMemDataWrite
  try dsimp only
  repeat' first | intro _ | (with_reducible first | assumption | apply kept_bar0Write | apply Kept.ite | apply KeptR.next)

theorem kept_execRcRegisterRead {s0 : State} {page : Option ℕ} {off : ℕ} {size : ℕ} {s : State} (hk : Kept w s0 s) (w_tick : w .tick = true) (w_host : w .host = true) (w_stiles : w .stiles = true) (w_warren : w .warren = true) (w_flash : w .flash = true) (w_fabric : w .fabric = true) (w_egress : w .egress = true) (w_power : w .power = true) (w_test : w .test = true) (w_regs : w .regs = true) :
    KeptR w s0 (execRcRegisterRead page off size s) := by
  unfold execRcRegisterRead
  try dsimp only
  repeat' first | intro _ | (with_reducible first | assumption | apply kept_bar0Read | apply kept_pageRead | apply Kept.ite | apply KeptR.next | apply KeptR.ite | apply Kept.foldl | apply Kept.foldl_fst) | split

theorem kept_execRegisterWrite {s0 : State} {page : Option ℕ} {off : ℕ} {size : ℕ} {value : Word64} {s : State} (hk : Kept w s0 s) (w_tick : w .tick = true) (w_clock : w .clock = true) (w_ptp : w .ptp = true) (w_plan : w .plan = true) (w_items : w .items = true) (w_host : w .host = true) (w_events : w .events = true) (w_stiles : w .stiles = true) (w_mesh : w .mesh = true) (w_warren : w .warren = true) (w_tiers : w .tiers = true) (w_search : w .search = true) (w_tables : w .tables = true) (w_flash : w .flash = true) (w_fabric : w .fabric = true) (w_egress : w .egress = true) (w_t1 : w .t1 = true) (w_faults : w .faults = true) (w_power : w .power = true) (w_test : w .test = true) (w_cycle : w .cycle = true) (w_regs : w .regs = true) (w_obs : w .obs = true) (w_free : w .free = true) :
    KeptR w s0 (execRegisterWrite page off size value s) := by
  unfold execRegisterWrite
  try dsimp only
  repeat' first | intro _ | (with_reducible first | assumption | apply kept_bar0Write | apply kept_pageWrite | apply Kept.ite | apply KeptR.next | apply KeptR.ite | apply Kept.foldl | apply Kept.foldl_fst) | split

theorem kept_execJtagInstruction {s0 : State} {i : JtagInstr} {s : State} (hk : Kept w s0 s) (w_test : w .test = true) :
    KeptR w s0 (execJtagInstruction i s) := by
  unfold execJtagInstruction
  try dsimp only
  repeat' first | intro _ | (with_reducible first | assumption | apply kept_lcRefuse | apply Kept.ite | apply KeptR.next | apply KeptR.ite | apply Kept.foldl | apply Kept.foldl_fst | ((fail_if_success apply Kept.mk_same); first | refine Kept.mk_test ?_ ?_ ?_) | exact ⟨rfl, rfl⟩) | split | (with_reducible first | refine Kept.fst (by assumption) ?_) | exact rfl

theorem kept_execJtagTrst {s0 : State} {s : State} (hk : Kept w s0 s) (w_test : w .test = true) :
    KeptR w s0 (execJtagTrst s) := by
  unfold execJtagTrst
  try dsimp only
  repeat' first | intro _ | (with_reducible first | assumption | apply Kept.ite | apply KeptR.next | apply KeptR.ite | apply Kept.foldl | apply Kept.foldl_fst | ((fail_if_success apply Kept.mk_same); first | refine Kept.mk_test ?_ ?_ ?_) | exact ⟨rfl, rfl⟩) | split | (with_reducible first | refine Kept.fst (by assumption) ?_) | exact rfl

theorem kept_execSysRstNRise {s0 : State} {s : State} (hk : Kept w s0 s) (w_power : w .power = true) :
    KeptR w s0 (execSysRstNRise s) := by
  unfold execSysRstNRise
  try dsimp only
  repeat' first | intro _ | (with_reducible first | assumption | apply Kept.ite | apply KeptR.next | apply KeptR.ite | apply Kept.foldl | apply Kept.foldl_fst | ((fail_if_success apply Kept.mk_same); first | apply Kept.mk_power))

theorem kept_execPerstNRelease {s0 : State} {s : State} (hk : Kept w s0 s) (w_host : w .host = true) :
    KeptR w s0 (execPerstNRelease s) := by
  unfold execPerstNRelease
  try dsimp only
  repeat' first | intro _ | (with_reducible first | assumption | apply Kept.ite | apply KeptR.next | apply KeptR.ite | apply Kept.foldl | apply Kept.foldl_fst | ((fail_if_success apply Kept.mk_same); first | apply Kept.mk_host))

theorem kept_execHostLinkStateChange {s0 : State} {up : Bool} {flit : Bool} {width : ℕ} {rate : ℕ} {s : State} (hk : Kept w s0 s) (w_host : w .host = true) :
    KeptR w s0 (execHostLinkStateChange up flit width rate s) := by
  unfold execHostLinkStateChange
  try dsimp only
  repeat' first | intro _ | (with_reducible first | assumption | apply Kept.ite | apply KeptR.next | apply KeptR.ite | apply Kept.foldl | apply Kept.foldl_fst | ((fail_if_success apply Kept.mk_same); first | apply Kept.mk_host))

theorem kept_execConnectionNumberReuse {s0 : State} {conn : ℕ} {s : State} (hk : Kept w s0 s) (w_fabric : w .fabric = true) :
    KeptR w s0 (execConnectionNumberReuse conn s) := by
  unfold execConnectionNumberReuse
  try dsimp only
  repeat' first | intro _ | (with_reducible first | assumption | apply Kept.ite | apply KeptR.next | apply KeptR.ite | apply Kept.foldl | apply Kept.foldl_fst | ((fail_if_success apply Kept.mk_same); first | apply Kept.mk_fabric))

theorem kept_execPtpDelayReq {s0 : State} {port : ℕ} {txNs : ℕ} {s : State} (hk : Kept w s0 s) (w_ptp : w .ptp = true) (w_egress : w .egress = true) :
    KeptR w s0 (execPtpDelayReq port txNs s) := by
  unfold execPtpDelayReq
  try dsimp only
  repeat' first | intro _ | (with_reducible first | assumption | apply kept_enqueue | apply Kept.ite | apply KeptR.next | apply KeptR.ite | apply Kept.foldl | apply Kept.foldl_fst | ((fail_if_success apply Kept.mk_same); first | apply Kept.mk_ptp) | exact ⟨rfl, rfl⟩) | split

theorem kept_execRoceRetryTimeout {s0 : State} {conn : ℕ} {psn : ℕ} {s : State} (hk : Kept w s0 s) (w_host : w .host = true) (w_events : w .events = true) (w_fabric : w .fabric = true) (w_egress : w .egress = true) :
    KeptR w s0 (execRoceRetryTimeout conn psn s) := by
  unfold execRoceRetryTimeout
  try dsimp only
  repeat' first | intro _ | (with_reducible first | assumption | apply kept_retry | apply Kept.ite | apply KeptR.next)

theorem kept_execAvsTargetSeen {s0 : State} {mv : ℕ} {s : State} (hk : Kept w s0 s) (w_power : w .power = true) :
    KeptR w s0 (execAvsTargetSeen mv s) := by
  unfold execAvsTargetSeen
  try dsimp only
  repeat' first | intro _ | (with_reducible first | assumption | apply Kept.ite | apply KeptR.next | apply KeptR.ite | apply Kept.foldl | apply Kept.foldl_fst | ((fail_if_success apply Kept.mk_same); first | apply Kept.mk_power))

end Sys2Proof.Machine
end

