-- ==== Sys2Proof/Laws/State.lean ====
section
/-! SUPPORT. What each elementary update of the state leaves as it was, one lemma for each field and update, and what the
accessors of listed parts read after an update. -/

namespace Sys2Proof.Machine

/-! ### raise -/

@[simp] theorem State.raise_tick (s : State) (c : Cause) (f src d0 d1 : Nat) : (s.raise c f src d0 d1).tick = s.tick := rfl
@[simp] theorem State.raise_ptp (s : State) (c : Cause) (f src d0 d1 : Nat) : (s.raise c f src d0 d1).ptp = s.ptp := rfl
@[simp] theorem State.raise_plan (s : State) (c : Cause) (f src d0 d1 : Nat) : (s.raise c f src d0 d1).plan = s.plan := rfl
@[simp] theorem State.raise_items (s : State) (c : Cause) (f src d0 d1 : Nat) : (s.raise c f src d0 d1).items = s.items := rfl
@[simp] theorem State.raise_host (s : State) (c : Cause) (f src d0 d1 : Nat) : (s.raise c f src d0 d1).host = s.host := rfl
@[simp] theorem State.raise_stiles (s : State) (c : Cause) (f src d0 d1 : Nat) : (s.raise c f src d0 d1).stiles = s.stiles := rfl
@[simp] theorem State.raise_mesh (s : State) (c : Cause) (f src d0 d1 : Nat) : (s.raise c f src d0 d1).mesh = s.mesh := rfl
@[simp] theorem State.raise_warren (s : State) (c : Cause) (f src d0 d1 : Nat) : (s.raise c f src d0 d1).warren = s.warren := rfl
@[simp] theorem State.raise_tiers (s : State) (c : Cause) (f src d0 d1 : Nat) : (s.raise c f src d0 d1).tiers = s.tiers := rfl
@[simp] theorem State.raise_search (s : State) (c : Cause) (f src d0 d1 : Nat) : (s.raise c f src d0 d1).search = s.search := rfl
@[simp] theorem State.raise_tables (s : State) (c : Cause) (f src d0 d1 : Nat) : (s.raise c f src d0 d1).tables = s.tables := rfl
@[simp] theorem State.raise_flash (s : State) (c : Cause) (f src d0 d1 : Nat) : (s.raise c f src d0 d1).flash = s.flash := rfl
@[simp] theorem State.raise_fabric (s : State) (c : Cause) (f src d0 d1 : Nat) : (s.raise c f src d0 d1).fabric = s.fabric := rfl
@[simp] theorem State.raise_egress (s : State) (c : Cause) (f src d0 d1 : Nat) : (s.raise c f src d0 d1).egress = s.egress := rfl
@[simp] theorem State.raise_t1 (s : State) (c : Cause) (f src d0 d1 : Nat) : (s.raise c f src d0 d1).t1 = s.t1 := rfl
@[simp] theorem State.raise_hostMem (s : State) (c : Cause) (f src d0 d1 : Nat) : (s.raise c f src d0 d1).hostMem = s.hostMem := rfl
@[simp] theorem State.raise_faults (s : State) (c : Cause) (f src d0 d1 : Nat) : (s.raise c f src d0 d1).faults = s.faults := rfl
@[simp] theorem State.raise_power (s : State) (c : Cause) (f src d0 d1 : Nat) : (s.raise c f src d0 d1).power = s.power := rfl
@[simp] theorem State.raise_test (s : State) (c : Cause) (f src d0 d1 : Nat) : (s.raise c f src d0 d1).test = s.test := rfl
@[simp] theorem State.raise_regs (s : State) (c : Cause) (f src d0 d1 : Nat) : (s.raise c f src d0 d1).regs = s.regs := rfl
@[simp] theorem State.raise_obs (s : State) (c : Cause) (f src d0 d1 : Nat) : (s.raise c f src d0 d1).obs = s.obs := rfl
@[simp] theorem State.raise_free (s : State) (c : Cause) (f src d0 d1 : Nat) : (s.raise c f src d0 d1).free = s.free := rfl
@[simp] theorem State.raise_pending (s : State) (c : Cause) (f src d0 d1 : Nat) : (s.raise c f src d0 d1).pending = s.pending := rfl

/-! ### raiseNamed -/

@[simp] theorem State.raiseNamed_tick (s : State) (c : Cause) (l : List Nat) : (s.raiseNamed c l).tick = s.tick := rfl
@[simp] theorem State.raiseNamed_ptp (s : State) (c : Cause) (l : List Nat) : (s.raiseNamed c l).ptp = s.ptp := rfl
@[simp] theorem State.raiseNamed_plan (s : State) (c : Cause) (l : List Nat) : (s.raiseNamed c l).plan = s.plan := rfl
@[simp] theorem State.raiseNamed_items (s : State) (c : Cause) (l : List Nat) : (s.raiseNamed c l).items = s.items := rfl
@[simp] theorem State.raiseNamed_host (s : State) (c : Cause) (l : List Nat) : (s.raiseNamed c l).host = s.host := rfl
@[simp] theorem State.raiseNamed_stiles (s : State) (c : Cause) (l : List Nat) : (s.raiseNamed c l).stiles = s.stiles := rfl
@[simp] theorem State.raiseNamed_mesh (s : State) (c : Cause) (l : List Nat) : (s.raiseNamed c l).mesh = s.mesh := rfl
@[simp] theorem State.raiseNamed_warren (s : State) (c : Cause) (l : List Nat) : (s.raiseNamed c l).warren = s.warren := rfl
@[simp] theorem State.raiseNamed_tiers (s : State) (c : Cause) (l : List Nat) : (s.raiseNamed c l).tiers = s.tiers := rfl
@[simp] theorem State.raiseNamed_search (s : State) (c : Cause) (l : List Nat) : (s.raiseNamed c l).search = s.search := rfl
@[simp] theorem State.raiseNamed_tables (s : State) (c : Cause) (l : List Nat) : (s.raiseNamed c l).tables = s.tables := rfl
@[simp] theorem State.raiseNamed_flash (s : State) (c : Cause) (l : List Nat) : (s.raiseNamed c l).flash = s.flash := rfl
@[simp] theorem State.raiseNamed_fabric (s : State) (c : Cause) (l : List Nat) : (s.raiseNamed c l).fabric = s.fabric := rfl
@[simp] theorem State.raiseNamed_egress (s : State) (c : Cause) (l : List Nat) : (s.raiseNamed c l).egress = s.egress := rfl
@[simp] theorem State.raiseNamed_t1 (s : State) (c : Cause) (l : List Nat) : (s.raiseNamed c l).t1 = s.t1 := rfl
@[simp] theorem State.raiseNamed_hostMem (s : State) (c : Cause) (l : List Nat) : (s.raiseNamed c l).hostMem = s.hostMem := rfl
@[simp] theorem State.raiseNamed_faults (s : State) (c : Cause) (l : List Nat) : (s.raiseNamed c l).faults = s.faults := rfl
@[simp] theorem State.raiseNamed_power (s : State) (c : Cause) (l : List Nat) : (s.raiseNamed c l).power = s.power := rfl
@[simp] theorem State.raiseNamed_test (s : State) (c : Cause) (l : List Nat) : (s.raiseNamed c l).test = s.test := rfl
@[simp] theorem State.raiseNamed_regs (s : State) (c : Cause) (l : List Nat) : (s.raiseNamed c l).regs = s.regs := rfl
@[simp] theorem State.raiseNamed_obs (s : State) (c : Cause) (l : List Nat) : (s.raiseNamed c l).obs = s.obs := rfl
@[simp] theorem State.raiseNamed_free (s : State) (c : Cause) (l : List Nat) : (s.raiseNamed c l).free = s.free := rfl
@[simp] theorem State.raiseNamed_pending (s : State) (c : Cause) (l : List Nat) : (s.raiseNamed c l).pending = s.pending := rfl

/-! ### setFn -/

@[simp] theorem State.setFn_tick (s : State) (x : Fn) : (s.setFn x).tick = s.tick := rfl
@[simp] theorem State.setFn_ptp (s : State) (x : Fn) : (s.setFn x).ptp = s.ptp := rfl
@[simp] theorem State.setFn_plan (s : State) (x : Fn) : (s.setFn x).plan = s.plan := rfl
@[simp] theorem State.setFn_items (s : State) (x : Fn) : (s.setFn x).items = s.items := rfl
@[simp] theorem State.setFn_events (s : State) (x : Fn) : (s.setFn x).events = s.events := rfl
@[simp] theorem State.setFn_stiles (s : State) (x : Fn) : (s.setFn x).stiles = s.stiles := rfl
@[simp] theorem State.setFn_mesh (s : State) (x : Fn) : (s.setFn x).mesh = s.mesh := rfl
@[simp] theorem State.setFn_warren (s : State) (x : Fn) : (s.setFn x).warren = s.warren := rfl
@[simp] theorem State.setFn_tiers (s : State) (x : Fn) : (s.setFn x).tiers = s.tiers := rfl
@[simp] theorem State.setFn_search (s : State) (x : Fn) : (s.setFn x).search = s.search := rfl
@[simp] theorem State.setFn_tables (s : State) (x : Fn) : (s.setFn x).tables = s.tables := rfl
@[simp] theorem State.setFn_flash (s : State) (x : Fn) : (s.setFn x).flash = s.flash := rfl
@[simp] theorem State.setFn_fabric (s : State) (x : Fn) : (s.setFn x).fabric = s.fabric := rfl
@[simp] theorem State.setFn_egress (s : State) (x : Fn) : (s.setFn x).egress = s.egress := rfl
@[simp] theorem State.setFn_t1 (s : State) (x : Fn) : (s.setFn x).t1 = s.t1 := rfl
@[simp] theorem State.setFn_hostMem (s : State) (x : Fn) : (s.setFn x).hostMem = s.hostMem := rfl
@[simp] theorem State.setFn_faults (s : State) (x : Fn) : (s.setFn x).faults = s.faults := rfl
@[simp] theorem State.setFn_power (s : State) (x : Fn) : (s.setFn x).power = s.power := rfl
@[simp] theorem State.setFn_test (s : State) (x : Fn) : (s.setFn x).test = s.test := rfl
@[simp] theorem State.setFn_regs (s : State) (x : Fn) : (s.setFn x).regs = s.regs := rfl
@[simp] theorem State.setFn_obs (s : State) (x : Fn) : (s.setFn x).obs = s.obs := rfl
@[simp] theorem State.setFn_free (s : State) (x : Fn) : (s.setFn x).free = s.free := rfl
@[simp] theorem State.setFn_pending (s : State) (x : Fn) : (s.setFn x).pending = s.pending := rfl

/-! ### setRing -/

@[simp] theorem State.setRing_tick (s : State) (f r : Nat) (x : Ring) : (s.setRing f r x).tick = s.tick := rfl
@[simp] theorem State.setRing_ptp (s : State) (f r : Nat) (x : Ring) : (s.setRing f r x).ptp = s.ptp := rfl
@[simp] theorem State.setRing_plan (s : State) (f r : Nat) (x : Ring) : (s.setRing f r x).plan = s.plan := rfl
@[simp] theorem State.setRing_items (s : State) (f r : Nat) (x : Ring) : (s.setRing f r x).items = s.items := rfl
@[simp] theorem State.setRing_events (s : State) (f r : Nat) (x : Ring) : (s.setRing f r x).events = s.events := rfl
@[simp] theorem State.setRing_stiles (s : State) (f r : Nat) (x : Ring) : (s.setRing f r x).stiles = s.stiles := rfl
@[simp] theorem State.setRing_mesh (s : State) (f r : Nat) (x : Ring) : (s.setRing f r x).mesh = s.mesh := rfl
@[simp] theorem State.setRing_warren (s : State) (f r : Nat) (x : Ring) : (s.setRing f r x).warren = s.warren := rfl
@[simp] theorem State.setRing_tiers (s : State) (f r : Nat) (x : Ring) : (s.setRing f r x).tiers = s.tiers := rfl
@[simp] theorem State.setRing_search (s : State) (f r : Nat) (x : Ring) : (s.setRing f r x).search = s.search := rfl
@[simp] theorem State.setRing_tables (s : State) (f r : Nat) (x : Ring) : (s.setRing f r x).tables = s.tables := rfl
@[simp] theorem State.setRing_flash (s : State) (f r : Nat) (x : Ring) : (s.setRing f r x).flash = s.flash := rfl
@[simp] theorem State.setRing_fabric (s : State) (f r : Nat) (x : Ring) : (s.setRing f r x).fabric = s.fabric := rfl
@[simp] theorem State.setRing_egress (s : State) (f r : Nat) (x : Ring) : (s.setRing f r x).egress = s.egress := rfl
@[simp] theorem State.setRing_t1 (s : State) (f r : Nat) (x : Ring) : (s.setRing f r x).t1 = s.t1 := rfl
@[simp] theorem State.setRing_hostMem (s : State) (f r : Nat) (x : Ring) : (s.setRing f r x).hostMem = s.hostMem := rfl
@[simp] theorem State.setRing_faults (s : State) (f r : Nat) (x : Ring) : (s.setRing f r x).faults = s.faults := rfl
@[simp] theorem State.setRing_power (s : State) (f r : Nat) (x : Ring) : (s.setRing f r x).power = s.power := rfl
@[simp] theorem State.setRing_test (s : State) (f r : Nat) (x : Ring) : (s.setRing f r x).test = s.test := rfl
@[simp] theorem State.setRing_regs (s : State) (f r : Nat) (x : Ring) : (s.setRing f r x).regs = s.regs := rfl
@[simp] theorem State.setRing_obs (s : State) (f r : Nat) (x : Ring) : (s.setRing f r x).obs = s.obs := rfl
@[simp] theorem State.setRing_free (s : State) (f r : Nat) (x : Ring) : (s.setRing f r x).free = s.free := rfl
@[simp] theorem State.setRing_pending (s : State) (f r : Nat) (x : Ring) : (s.setRing f r x).pending = s.pending := rfl

/-! ### bumpFn -/

@[simp] theorem State.bumpFn_tick (s : State) (f i : Nat) : (s.bumpFn f i).tick = s.tick := rfl
@[simp] theorem State.bumpFn_ptp (s : State) (f i : Nat) : (s.bumpFn f i).ptp = s.ptp := rfl
@[simp] theorem State.bumpFn_plan (s : State) (f i : Nat) : (s.bumpFn f i).plan = s.plan := rfl
@[simp] theorem State.bumpFn_items (s : State) (f i : Nat) : (s.bumpFn f i).items = s.items := rfl
@[simp] theorem State.bumpFn_events (s : State) (f i : Nat) : (s.bumpFn f i).events = s.events := rfl
@[simp] theorem State.bumpFn_stiles (s : State) (f i : Nat) : (s.bumpFn f i).stiles = s.stiles := rfl
@[simp] theorem State.bumpFn_mesh (s : State) (f i : Nat) : (s.bumpFn f i).mesh = s.mesh := rfl
@[simp] theorem State.bumpFn_warren (s : State) (f i : Nat) : (s.bumpFn f i).warren = s.warren := rfl
@[simp] theorem State.bumpFn_tiers (s : State) (f i : Nat) : (s.bumpFn f i).tiers = s.tiers := rfl
@[simp] theorem State.bumpFn_search (s : State) (f i : Nat) : (s.bumpFn f i).search = s.search := rfl
@[simp] theorem State.bumpFn_tables (s : State) (f i : Nat) : (s.bumpFn f i).tables = s.tables := rfl
@[simp] theorem State.bumpFn_flash (s : State) (f i : Nat) : (s.bumpFn f i).flash = s.flash := rfl
@[simp] theorem State.bumpFn_fabric (s : State) (f i : Nat) : (s.bumpFn f i).fabric = s.fabric := rfl
@[simp] theorem State.bumpFn_egress (s : State) (f i : Nat) : (s.bumpFn f i).egress = s.egress := rfl
@[simp] theorem State.bumpFn_t1 (s : State) (f i : Nat) : (s.bumpFn f i).t1 = s.t1 := rfl
@[simp] theorem State.bumpFn_hostMem (s : State) (f i : Nat) : (s.bumpFn f i).hostMem = s.hostMem := rfl
@[simp] theorem State.bumpFn_faults (s : State) (f i : Nat) : (s.bumpFn f i).faults = s.faults := rfl
@[simp] theorem State.bumpFn_power (s : State) (f i : Nat) : (s.bumpFn f i).power = s.power := rfl
@[simp] theorem State.bumpFn_test (s : State) (f i : Nat) : (s.bumpFn f i).test = s.test := rfl
@[simp] theorem State.bumpFn_regs (s : State) (f i : Nat) : (s.bumpFn f i).regs = s.regs := rfl
@[simp] theorem State.bumpFn_obs (s : State) (f i : Nat) : (s.bumpFn f i).obs = s.obs := rfl
@[simp] theorem State.bumpFn_free (s : State) (f i : Nat) : (s.bumpFn f i).free = s.free := rfl
@[simp] theorem State.bumpFn_pending (s : State) (f i : Nat) : (s.bumpFn f i).pending = s.pending := rfl

/-! ### mapWork -/

@[simp] theorem State.mapWork_tick (s : State) (f r : Nat) (q : Word64) (g : Work → Work) : (s.mapWork f r q g).tick = s.tick := rfl
@[simp] theorem State.mapWork_ptp (s : State) (f r : Nat) (q : Word64) (g : Work → Work) : (s.mapWork f r q g).ptp = s.ptp := rfl
@[simp] theorem State.mapWork_plan (s : State) (f r : Nat) (q : Word64) (g : Work → Work) : (s.mapWork f r q g).plan = s.plan := rfl
@[simp] theorem State.mapWork_items (s : State) (f r : Nat) (q : Word64) (g : Work → Work) : (s.mapWork f r q g).items = s.items := rfl
@[simp] theorem State.mapWork_events (s : State) (f r : Nat) (q : Word64) (g : Work → Work) : (s.mapWork f r q g).events = s.events := rfl
@[simp] theorem State.mapWork_stiles (s : State) (f r : Nat) (q : Word64) (g : Work → Work) : (s.mapWork f r q g).stiles = s.stiles := rfl
@[simp] theorem State.mapWork_mesh (s : State) (f r : Nat) (q : Word64) (g : Work → Work) : (s.mapWork f r q g).mesh = s.mesh := rfl
@[simp] theorem State.mapWork_warren (s : State) (f r : Nat) (q : Word64) (g : Work → Work) : (s.mapWork f r q g).warren = s.warren := rfl
@[simp] theorem State.mapWork_tiers (s : State) (f r : Nat) (q : Word64) (g : Work → Work) : (s.mapWork f r q g).tiers = s.tiers := rfl
@[simp] theorem State.mapWork_search (s : State) (f r : Nat) (q : Word64) (g : Work → Work) : (s.mapWork f r q g).search = s.search := rfl
@[simp] theorem State.mapWork_tables (s : State) (f r : Nat) (q : Word64) (g : Work → Work) : (s.mapWork f r q g).tables = s.tables := rfl
@[simp] theorem State.mapWork_flash (s : State) (f r : Nat) (q : Word64) (g : Work → Work) : (s.mapWork f r q g).flash = s.flash := rfl
@[simp] theorem State.mapWork_fabric (s : State) (f r : Nat) (q : Word64) (g : Work → Work) : (s.mapWork f r q g).fabric = s.fabric := rfl
@[simp] theorem State.mapWork_egress (s : State) (f r : Nat) (q : Word64) (g : Work → Work) : (s.mapWork f r q g).egress = s.egress := rfl
@[simp] theorem State.mapWork_t1 (s : State) (f r : Nat) (q : Word64) (g : Work → Work) : (s.mapWork f r q g).t1 = s.t1 := rfl
@[simp] theorem State.mapWork_hostMem (s : State) (f r : Nat) (q : Word64) (g : Work → Work) : (s.mapWork f r q g).hostMem = s.hostMem := rfl
@[simp] theorem State.mapWork_faults (s : State) (f r : Nat) (q : Word64) (g : Work → Work) : (s.mapWork f r q g).faults = s.faults := rfl
@[simp] theorem State.mapWork_power (s : State) (f r : Nat) (q : Word64) (g : Work → Work) : (s.mapWork f r q g).power = s.power := rfl
@[simp] theorem State.mapWork_test (s : State) (f r : Nat) (q : Word64) (g : Work → Work) : (s.mapWork f r q g).test = s.test := rfl
@[simp] theorem State.mapWork_regs (s : State) (f r : Nat) (q : Word64) (g : Work → Work) : (s.mapWork f r q g).regs = s.regs := rfl
@[simp] theorem State.mapWork_obs (s : State) (f r : Nat) (q : Word64) (g : Work → Work) : (s.mapWork f r q g).obs = s.obs := rfl
@[simp] theorem State.mapWork_free (s : State) (f r : Nat) (q : Word64) (g : Work → Work) : (s.mapWork f r q g).free = s.free := rfl
@[simp] theorem State.mapWork_pending (s : State) (f r : Nat) (q : Word64) (g : Work → Work) : (s.mapWork f r q g).pending = s.pending := rfl

/-! ### setTile -/

@[simp] theorem State.setTile_tick (s : State) (x : Tile) : (s.setTile x).tick = s.tick := rfl
@[simp] theorem State.setTile_ptp (s : State) (x : Tile) : (s.setTile x).ptp = s.ptp := rfl
@[simp] theorem State.setTile_plan (s : State) (x : Tile) : (s.setTile x).plan = s.plan := rfl
@[simp] theorem State.setTile_items (s : State) (x : Tile) : (s.setTile x).items = s.items := rfl
@[simp] theorem State.setTile_host (s : State) (x : Tile) : (s.setTile x).host = s.host := rfl
@[simp] theorem State.setTile_events (s : State) (x : Tile) : (s.setTile x).events = s.events := rfl
@[simp] theorem State.setTile_stiles (s : State) (x : Tile) : (s.setTile x).stiles = s.stiles := rfl
@[simp] theorem State.setTile_warren (s : State) (x : Tile) : (s.setTile x).warren = s.warren := rfl
@[simp] theorem State.setTile_tiers (s : State) (x : Tile) : (s.setTile x).tiers = s.tiers := rfl
@[simp] theorem State.setTile_search (s : State) (x : Tile) : (s.setTile x).search = s.search := rfl
@[simp] theorem State.setTile_tables (s : State) (x : Tile) : (s.setTile x).tables = s.tables := rfl
@[simp] theorem State.setTile_flash (s : State) (x : Tile) : (s.setTile x).flash = s.flash := rfl
@[simp] theorem State.setTile_fabric (s : State) (x : Tile) : (s.setTile x).fabric = s.fabric := rfl
@[simp] theorem State.setTile_egress (s : State) (x : Tile) : (s.setTile x).egress = s.egress := rfl
@[simp] theorem State.setTile_t1 (s : State) (x : Tile) : (s.setTile x).t1 = s.t1 := rfl
@[simp] theorem State.setTile_hostMem (s : State) (x : Tile) : (s.setTile x).hostMem = s.hostMem := rfl
@[simp] theorem State.setTile_faults (s : State) (x : Tile) : (s.setTile x).faults = s.faults := rfl
@[simp] theorem State.setTile_power (s : State) (x : Tile) : (s.setTile x).power = s.power := rfl
@[simp] theorem State.setTile_test (s : State) (x : Tile) : (s.setTile x).test = s.test := rfl
@[simp] theorem State.setTile_regs (s : State) (x : Tile) : (s.setTile x).regs = s.regs := rfl
@[simp] theorem State.setTile_obs (s : State) (x : Tile) : (s.setTile x).obs = s.obs := rfl
@[simp] theorem State.setTile_free (s : State) (x : Tile) : (s.setTile x).free = s.free := rfl
@[simp] theorem State.setTile_pending (s : State) (x : Tile) : (s.setTile x).pending = s.pending := rfl

/-! ### setStile -/

@[simp] theorem State.setStile_tick (s : State) (i : Nat) (x : Stile) : (s.setStile i x).tick = s.tick := rfl
@[simp] theorem State.setStile_ptp (s : State) (i : Nat) (x : Stile) : (s.setStile i x).ptp = s.ptp := rfl
@[simp] theorem State.setStile_plan (s : State) (i : Nat) (x : Stile) : (s.setStile i x).plan = s.plan := rfl
@[simp] theorem State.setStile_items (s : State) (i : Nat) (x : Stile) : (s.setStile i x).items = s.items := rfl
@[simp] theorem State.setStile_host (s : State) (i : Nat) (x : Stile) : (s.setStile i x).host = s.host := rfl
@[simp] theorem State.setStile_events (s : State) (i : Nat) (x : Stile) : (s.setStile i x).events = s.events := rfl
@[simp] theorem State.setStile_mesh (s : State) (i : Nat) (x : Stile) : (s.setStile i x).mesh = s.mesh := rfl
@[simp] theorem State.setStile_warren (s : State) (i : Nat) (x : Stile) : (s.setStile i x).warren = s.warren := rfl
@[simp] theorem State.setStile_tiers (s : State) (i : Nat) (x : Stile) : (s.setStile i x).tiers = s.tiers := rfl
@[simp] theorem State.setStile_search (s : State) (i : Nat) (x : Stile) : (s.setStile i x).search = s.search := rfl
@[simp] theorem State.setStile_tables (s : State) (i : Nat) (x : Stile) : (s.setStile i x).tables = s.tables := rfl
@[simp] theorem State.setStile_flash (s : State) (i : Nat) (x : Stile) : (s.setStile i x).flash = s.flash := rfl
@[simp] theorem State.setStile_fabric (s : State) (i : Nat) (x : Stile) : (s.setStile i x).fabric = s.fabric := rfl
@[simp] theorem State.setStile_egress (s : State) (i : Nat) (x : Stile) : (s.setStile i x).egress = s.egress := rfl
@[simp] theorem State.setStile_t1 (s : State) (i : Nat) (x : Stile) : (s.setStile i x).t1 = s.t1 := rfl
@[simp] theorem State.setStile_hostMem (s : State) (i : Nat) (x : Stile) : (s.setStile i x).hostMem = s.hostMem := rfl
@[simp] theorem State.setStile_faults (s : State) (i : Nat) (x : Stile) : (s.setStile i x).faults = s.faults := rfl
@[simp] theorem State.setStile_power (s : State) (i : Nat) (x : Stile) : (s.setStile i x).power = s.power := rfl
@[simp] theorem State.setStile_test (s : State) (i : Nat) (x : Stile) : (s.setStile i x).test = s.test := rfl
@[simp] theorem State.setStile_regs (s : State) (i : Nat) (x : Stile) : (s.setStile i x).regs = s.regs := rfl
@[simp] theorem State.setStile_obs (s : State) (i : Nat) (x : Stile) : (s.setStile i x).obs = s.obs := rfl
@[simp] theorem State.setStile_free (s : State) (i : Nat) (x : Stile) : (s.setStile i x).free = s.free := rfl
@[simp] theorem State.setStile_pending (s : State) (i : Nat) (x : Stile) : (s.setStile i x).pending = s.pending := rfl

/-! ### bumpStile -/

@[simp] theorem State.bumpStile_tick (s : State) (i : Nat) : (s.bumpStile i).tick = s.tick := rfl
@[simp] theorem State.bumpStile_ptp (s : State) (i : Nat) : (s.bumpStile i).ptp = s.ptp := rfl
@[simp] theorem State.bumpStile_plan (s : State) (i : Nat) : (s.bumpStile i).plan = s.plan := rfl
@[simp] theorem State.bumpStile_items (s : State) (i : Nat) : (s.bumpStile i).items = s.items := rfl
@[simp] theorem State.bumpStile_host (s : State) (i : Nat) : (s.bumpStile i).host = s.host := rfl
@[simp] theorem State.bumpStile_events (s : State) (i : Nat) : (s.bumpStile i).events = s.events := rfl
@[simp] theorem State.bumpStile_mesh (s : State) (i : Nat) : (s.bumpStile i).mesh = s.mesh := rfl
@[simp] theorem State.bumpStile_warren (s : State) (i : Nat) : (s.bumpStile i).warren = s.warren := rfl
@[simp] theorem State.bumpStile_tiers (s : State) (i : Nat) : (s.bumpStile i).tiers = s.tiers := rfl
@[simp] theorem State.bumpStile_search (s : State) (i : Nat) : (s.bumpStile i).search = s.search := rfl
@[simp] theorem State.bumpStile_tables (s : State) (i : Nat) : (s.bumpStile i).tables = s.tables := rfl
@[simp] theorem State.bumpStile_flash (s : State) (i : Nat) : (s.bumpStile i).flash = s.flash := rfl
@[simp] theorem State.bumpStile_fabric (s : State) (i : Nat) : (s.bumpStile i).fabric = s.fabric := rfl
@[simp] theorem State.bumpStile_egress (s : State) (i : Nat) : (s.bumpStile i).egress = s.egress := rfl
@[simp] theorem State.bumpStile_t1 (s : State) (i : Nat) : (s.bumpStile i).t1 = s.t1 := rfl
@[simp] theorem State.bumpStile_hostMem (s : State) (i : Nat) : (s.bumpStile i).hostMem = s.hostMem := rfl
@[simp] theorem State.bumpStile_faults (s : State) (i : Nat) : (s.bumpStile i).faults = s.faults := rfl
@[simp] theorem State.bumpStile_power (s : State) (i : Nat) : (s.bumpStile i).power = s.power := rfl
@[simp] theorem State.bumpStile_test (s : State) (i : Nat) : (s.bumpStile i).test = s.test := rfl
@[simp] theorem State.bumpStile_regs (s : State) (i : Nat) : (s.bumpStile i).regs = s.regs := rfl
@[simp] theorem State.bumpStile_obs (s : State) (i : Nat) : (s.bumpStile i).obs = s.obs := rfl
@[simp] theorem State.bumpStile_free (s : State) (i : Nat) : (s.bumpStile i).free = s.free := rfl
@[simp] theorem State.bumpStile_pending (s : State) (i : Nat) : (s.bumpStile i).pending = s.pending := rfl

/-! ### setBurrow -/

@[simp] theorem State.setBurrow_tick (s : State) (x : Burrow) : (s.setBurrow x).tick = s.tick := rfl
@[simp] theorem State.setBurrow_ptp (s : State) (x : Burrow) : (s.setBurrow x).ptp = s.ptp := rfl
@[simp] theorem State.setBurrow_plan (s : State) (x : Burrow) : (s.setBurrow x).plan = s.plan := rfl
@[simp] theorem State.setBurrow_items (s : State) (x : Burrow) : (s.setBurrow x).items = s.items := rfl
@[simp] theorem State.setBurrow_host (s : State) (x : Burrow) : (s.setBurrow x).host = s.host := rfl
@[simp] theorem State.setBurrow_events (s : State) (x : Burrow) : (s.setBurrow x).events = s.events := rfl
@[simp] theorem State.setBurrow_stiles (s : State) (x : Burrow) : (s.setBurrow x).stiles = s.stiles := rfl
@[simp] theorem State.setBurrow_mesh (s : State) (x : Burrow) : (s.setBurrow x).mesh = s.mesh := rfl
@[simp] theorem State.setBurrow_tiers (s : State) (x : Burrow) : (s.setBurrow x).tiers = s.tiers := rfl
@[simp] theorem State.setBurrow_search (s : State) (x : Burrow) : (s.setBurrow x).search = s.search := rfl
@[simp] theorem State.setBurrow_tables (s : State) (x : Burrow) : (s.setBurrow x).tables = s.tables := rfl
@[simp] theorem State.setBurrow_flash (s : State) (x : Burrow) : (s.setBurrow x).flash = s.flash := rfl
@[simp] theorem State.setBurrow_fabric (s : State) (x : Burrow) : (s.setBurrow x).fabric = s.fabric := rfl
@[simp] theorem State.setBurrow_egress (s : State) (x : Burrow) : (s.setBurrow x).egress = s.egress := rfl
@[simp] theorem State.setBurrow_t1 (s : State) (x : Burrow) : (s.setBurrow x).t1 = s.t1 := rfl
@[simp] theorem State.setBurrow_hostMem (s : State) (x : Burrow) : (s.setBurrow x).hostMem = s.hostMem := rfl
@[simp] theorem State.setBurrow_faults (s : State) (x : Burrow) : (s.setBurrow x).faults = s.faults := rfl
@[simp] theorem State.setBurrow_power (s : State) (x : Burrow) : (s.setBurrow x).power = s.power := rfl
@[simp] theorem State.setBurrow_test (s : State) (x : Burrow) : (s.setBurrow x).test = s.test := rfl
@[simp] theorem State.setBurrow_regs (s : State) (x : Burrow) : (s.setBurrow x).regs = s.regs := rfl
@[simp] theorem State.setBurrow_obs (s : State) (x : Burrow) : (s.setBurrow x).obs = s.obs := rfl
@[simp] theorem State.setBurrow_free (s : State) (x : Burrow) : (s.setBurrow x).free = s.free := rfl
@[simp] theorem State.setBurrow_pending (s : State) (x : Burrow) : (s.setBurrow x).pending = s.pending := rfl

/-! ### setStack -/

@[simp] theorem State.setStack_tick (s : State) (i : Nat) (x : Stack) : (s.setStack i x).tick = s.tick := rfl
@[simp] theorem State.setStack_ptp (s : State) (i : Nat) (x : Stack) : (s.setStack i x).ptp = s.ptp := rfl
@[simp] theorem State.setStack_plan (s : State) (i : Nat) (x : Stack) : (s.setStack i x).plan = s.plan := rfl
@[simp] theorem State.setStack_items (s : State) (i : Nat) (x : Stack) : (s.setStack i x).items = s.items := rfl
@[simp] theorem State.setStack_host (s : State) (i : Nat) (x : Stack) : (s.setStack i x).host = s.host := rfl
@[simp] theorem State.setStack_events (s : State) (i : Nat) (x : Stack) : (s.setStack i x).events = s.events := rfl
@[simp] theorem State.setStack_stiles (s : State) (i : Nat) (x : Stack) : (s.setStack i x).stiles = s.stiles := rfl
@[simp] theorem State.setStack_mesh (s : State) (i : Nat) (x : Stack) : (s.setStack i x).mesh = s.mesh := rfl
@[simp] theorem State.setStack_tiers (s : State) (i : Nat) (x : Stack) : (s.setStack i x).tiers = s.tiers := rfl
@[simp] theorem State.setStack_search (s : State) (i : Nat) (x : Stack) : (s.setStack i x).search = s.search := rfl
@[simp] theorem State.setStack_tables (s : State) (i : Nat) (x : Stack) : (s.setStack i x).tables = s.tables := rfl
@[simp] theorem State.setStack_flash (s : State) (i : Nat) (x : Stack) : (s.setStack i x).flash = s.flash := rfl
@[simp] theorem State.setStack_fabric (s : State) (i : Nat) (x : Stack) : (s.setStack i x).fabric = s.fabric := rfl
@[simp] theorem State.setStack_egress (s : State) (i : Nat) (x : Stack) : (s.setStack i x).egress = s.egress := rfl
@[simp] theorem State.setStack_t1 (s : State) (i : Nat) (x : Stack) : (s.setStack i x).t1 = s.t1 := rfl
@[simp] theorem State.setStack_hostMem (s : State) (i : Nat) (x : Stack) : (s.setStack i x).hostMem = s.hostMem := rfl
@[simp] theorem State.setStack_faults (s : State) (i : Nat) (x : Stack) : (s.setStack i x).faults = s.faults := rfl
@[simp] theorem State.setStack_power (s : State) (i : Nat) (x : Stack) : (s.setStack i x).power = s.power := rfl
@[simp] theorem State.setStack_test (s : State) (i : Nat) (x : Stack) : (s.setStack i x).test = s.test := rfl
@[simp] theorem State.setStack_regs (s : State) (i : Nat) (x : Stack) : (s.setStack i x).regs = s.regs := rfl
@[simp] theorem State.setStack_obs (s : State) (i : Nat) (x : Stack) : (s.setStack i x).obs = s.obs := rfl
@[simp] theorem State.setStack_free (s : State) (i : Nat) (x : Stack) : (s.setStack i x).free = s.free := rfl
@[simp] theorem State.setStack_pending (s : State) (i : Nat) (x : Stack) : (s.setStack i x).pending = s.pending := rfl

/-! ### setPort -/

@[simp] theorem State.setPort_tick (s : State) (p : Nat) (x : Port) : (s.setPort p x).tick = s.tick := rfl
@[simp] theorem State.setPort_ptp (s : State) (p : Nat) (x : Port) : (s.setPort p x).ptp = s.ptp := rfl
@[simp] theorem State.setPort_plan (s : State) (p : Nat) (x : Port) : (s.setPort p x).plan = s.plan := rfl
@[simp] theorem State.setPort_items (s : State) (p : Nat) (x : Port) : (s.setPort p x).items = s.items := rfl
@[simp] theorem State.setPort_host (s : State) (p : Nat) (x : Port) : (s.setPort p x).host = s.host := rfl
@[simp] theorem State.setPort_events (s : State) (p : Nat) (x : Port) : (s.setPort p x).events = s.events := rfl
@[simp] theorem State.setPort_stiles (s : State) (p : Nat) (x : Port) : (s.setPort p x).stiles = s.stiles := rfl
@[simp] theorem State.setPort_mesh (s : State) (p : Nat) (x : Port) : (s.setPort p x).mesh = s.mesh := rfl
@[simp] theorem State.setPort_warren (s : State) (p : Nat) (x : Port) : (s.setPort p x).warren = s.warren := rfl
@[simp] theorem State.setPort_tiers (s : State) (p : Nat) (x : Port) : (s.setPort p x).tiers = s.tiers := rfl
@[simp] theorem State.setPort_search (s : State) (p : Nat) (x : Port) : (s.setPort p x).search = s.search := rfl
@[simp] theorem State.setPort_tables (s : State) (p : Nat) (x : Port) : (s.setPort p x).tables = s.tables := rfl
@[simp] theorem State.setPort_flash (s : State) (p : Nat) (x : Port) : (s.setPort p x).flash = s.flash := rfl
@[simp] theorem State.setPort_egress (s : State) (p : Nat) (x : Port) : (s.setPort p x).egress = s.egress := rfl
@[simp] theorem State.setPort_t1 (s : State) (p : Nat) (x : Port) : (s.setPort p x).t1 = s.t1 := rfl
@[simp] theorem State.setPort_hostMem (s : State) (p : Nat) (x : Port) : (s.setPort p x).hostMem = s.hostMem := rfl
@[simp] theorem State.setPort_faults (s : State) (p : Nat) (x : Port) : (s.setPort p x).faults = s.faults := rfl
@[simp] theorem State.setPort_power (s : State) (p : Nat) (x : Port) : (s.setPort p x).power = s.power := rfl
@[simp] theorem State.setPort_test (s : State) (p : Nat) (x : Port) : (s.setPort p x).test = s.test := rfl
@[simp] theorem State.setPort_regs (s : State) (p : Nat) (x : Port) : (s.setPort p x).regs = s.regs := rfl
@[simp] theorem State.setPort_obs (s : State) (p : Nat) (x : Port) : (s.setPort p x).obs = s.obs := rfl
@[simp] theorem State.setPort_free (s : State) (p : Nat) (x : Port) : (s.setPort p x).free = s.free := rfl
@[simp] theorem State.setPort_pending (s : State) (p : Nat) (x : Port) : (s.setPort p x).pending = s.pending := rfl

/-! ### bumpPort -/

@[simp] theorem State.bumpPort_tick (s : State) (p i n : Nat) : (s.bumpPort p i n).tick = s.tick := rfl
@[simp] theorem State.bumpPort_ptp (s : State) (p i n : Nat) : (s.bumpPort p i n).ptp = s.ptp := rfl
@[simp] theorem State.bumpPort_plan (s : State) (p i n : Nat) : (s.bumpPort p i n).plan = s.plan := rfl
@[simp] theorem State.bumpPort_items (s : State) (p i n : Nat) : (s.bumpPort p i n).items = s.items := rfl
@[simp] theorem State.bumpPort_host (s : State) (p i n : Nat) : (s.bumpPort p i n).host = s.host := rfl
@[simp] theorem State.bumpPort_events (s : State) (p i n : Nat) : (s.bumpPort p i n).events = s.events := rfl
@[simp] theorem State.bumpPort_stiles (s : State) (p i n : Nat) : (s.bumpPort p i n).stiles = s.stiles := rfl
@[simp] theorem State.bumpPort_mesh (s : State) (p i n : Nat) : (s.bumpPort p i n).mesh = s.mesh := rfl
@[simp] theorem State.bumpPort_warren (s : State) (p i n : Nat) : (s.bumpPort p i n).warren = s.warren := rfl
@[simp] theorem State.bumpPort_tiers (s : State) (p i n : Nat) : (s.bumpPort p i n).tiers = s.tiers := rfl
@[simp] theorem State.bumpPort_search (s : State) (p i n : Nat) : (s.bumpPort p i n).search = s.search := rfl
@[simp] theorem State.bumpPort_tables (s : State) (p i n : Nat) : (s.bumpPort p i n).tables = s.tables := rfl
@[simp] theorem State.bumpPort_flash (s : State) (p i n : Nat) : (s.bumpPort p i n).flash = s.flash := rfl
@[simp] theorem State.bumpPort_egress (s : State) (p i n : Nat) : (s.bumpPort p i n).egress = s.egress := rfl
@[simp] theorem State.bumpPort_t1 (s : State) (p i n : Nat) : (s.bumpPort p i n).t1 = s.t1 := rfl
@[simp] theorem State.bumpPort_hostMem (s : State) (p i n : Nat) : (s.bumpPort p i n).hostMem = s.hostMem := rfl
@[simp] theorem State.bumpPort_faults (s : State) (p i n : Nat) : (s.bumpPort p i n).faults = s.faults := rfl
@[simp] theorem State.bumpPort_power (s : State) (p i n : Nat) : (s.bumpPort p i n).power = s.power := rfl
@[simp] theorem State.bumpPort_test (s : State) (p i n : Nat) : (s.bumpPort p i n).test = s.test := rfl
@[simp] theorem State.bumpPort_regs (s : State) (p i n : Nat) : (s.bumpPort p i n).regs = s.regs := rfl
@[simp] theorem State.bumpPort_obs (s : State) (p i n : Nat) : (s.bumpPort p i n).obs = s.obs := rfl
@[simp] theorem State.bumpPort_free (s : State) (p i n : Nat) : (s.bumpPort p i n).free = s.free := rfl
@[simp] theorem State.bumpPort_pending (s : State) (p i n : Nat) : (s.bumpPort p i n).pending = s.pending := rfl

/-! ### bumpFabric -/

@[simp] theorem State.bumpFabric_tick (s : State) (i : Nat) : (s.bumpFabric i).tick = s.tick := rfl
@[simp] theorem State.bumpFabric_ptp (s : State) (i : Nat) : (s.bumpFabric i).ptp = s.ptp := rfl
@[simp] theorem State.bumpFabric_plan (s : State) (i : Nat) : (s.bumpFabric i).plan = s.plan := rfl
@[simp] theorem State.bumpFabric_items (s : State) (i : Nat) : (s.bumpFabric i).items = s.items := rfl
@[simp] theorem State.bumpFabric_host (s : State) (i : Nat) : (s.bumpFabric i).host = s.host := rfl
@[simp] theorem State.bumpFabric_events (s : State) (i : Nat) : (s.bumpFabric i).events = s.events := rfl
@[simp] theorem State.bumpFabric_stiles (s : State) (i : Nat) : (s.bumpFabric i).stiles = s.stiles := rfl
@[simp] theorem State.bumpFabric_mesh (s : State) (i : Nat) : (s.bumpFabric i).mesh = s.mesh := rfl
@[simp] theorem State.bumpFabric_warren (s : State) (i : Nat) : (s.bumpFabric i).warren = s.warren := rfl
@[simp] theorem State.bumpFabric_tiers (s : State) (i : Nat) : (s.bumpFabric i).tiers = s.tiers := rfl
@[simp] theorem State.bumpFabric_search (s : State) (i : Nat) : (s.bumpFabric i).search = s.search := rfl
@[simp] theorem State.bumpFabric_tables (s : State) (i : Nat) : (s.bumpFabric i).tables = s.tables := rfl
@[simp] theorem State.bumpFabric_flash (s : State) (i : Nat) : (s.bumpFabric i).flash = s.flash := rfl
@[simp] theorem State.bumpFabric_egress (s : State) (i : Nat) : (s.bumpFabric i).egress = s.egress := rfl
@[simp] theorem State.bumpFabric_t1 (s : State) (i : Nat) : (s.bumpFabric i).t1 = s.t1 := rfl
@[simp] theorem State.bumpFabric_hostMem (s : State) (i : Nat) : (s.bumpFabric i).hostMem = s.hostMem := rfl
@[simp] theorem State.bumpFabric_faults (s : State) (i : Nat) : (s.bumpFabric i).faults = s.faults := rfl
@[simp] theorem State.bumpFabric_power (s : State) (i : Nat) : (s.bumpFabric i).power = s.power := rfl
@[simp] theorem State.bumpFabric_test (s : State) (i : Nat) : (s.bumpFabric i).test = s.test := rfl
@[simp] theorem State.bumpFabric_regs (s : State) (i : Nat) : (s.bumpFabric i).regs = s.regs := rfl
@[simp] theorem State.bumpFabric_obs (s : State) (i : Nat) : (s.bumpFabric i).obs = s.obs := rfl
@[simp] theorem State.bumpFabric_free (s : State) (i : Nat) : (s.bumpFabric i).free = s.free := rfl
@[simp] theorem State.bumpFabric_pending (s : State) (i : Nat) : (s.bumpFabric i).pending = s.pending := rfl

/-! ### setConn -/

@[simp] theorem State.setConn_tick (s : State) (x : Conn) : (s.setConn x).tick = s.tick := rfl
@[simp] theorem State.setConn_ptp (s : State) (x : Conn) : (s.setConn x).ptp = s.ptp := rfl
@[simp] theorem State.setConn_plan (s : State) (x : Conn) : (s.setConn x).plan = s.plan := rfl
@[simp] theorem State.setConn_items (s : State) (x : Conn) : (s.setConn x).items = s.items := rfl
@[simp] theorem State.setConn_host (s : State) (x : Conn) : (s.setConn x).host = s.host := rfl
@[simp] theorem State.setConn_events (s : State) (x : Conn) : (s.setConn x).events = s.events := rfl
@[simp] theorem State.setConn_stiles (s : State) (x : Conn) : (s.setConn x).stiles = s.stiles := rfl
@[simp] theorem State.setConn_mesh (s : State) (x : Conn) : (s.setConn x).mesh = s.mesh := rfl
@[simp] theorem State.setConn_warren (s : State) (x : Conn) : (s.setConn x).warren = s.warren := rfl
@[simp] theorem State.setConn_tiers (s : State) (x : Conn) : (s.setConn x).tiers = s.tiers := rfl
@[simp] theorem State.setConn_search (s : State) (x : Conn) : (s.setConn x).search = s.search := rfl
@[simp] theorem State.setConn_tables (s : State) (x : Conn) : (s.setConn x).tables = s.tables := rfl
@[simp] theorem State.setConn_flash (s : State) (x : Conn) : (s.setConn x).flash = s.flash := rfl
@[simp] theorem State.setConn_egress (s : State) (x : Conn) : (s.setConn x).egress = s.egress := rfl
@[simp] theorem State.setConn_t1 (s : State) (x : Conn) : (s.setConn x).t1 = s.t1 := rfl
@[simp] theorem State.setConn_hostMem (s : State) (x : Conn) : (s.setConn x).hostMem = s.hostMem := rfl
@[simp] theorem State.setConn_faults (s : State) (x : Conn) : (s.setConn x).faults = s.faults := rfl
@[simp] theorem State.setConn_power (s : State) (x : Conn) : (s.setConn x).power = s.power := rfl
@[simp] theorem State.setConn_test (s : State) (x : Conn) : (s.setConn x).test = s.test := rfl
@[simp] theorem State.setConn_regs (s : State) (x : Conn) : (s.setConn x).regs = s.regs := rfl
@[simp] theorem State.setConn_obs (s : State) (x : Conn) : (s.setConn x).obs = s.obs := rfl
@[simp] theorem State.setConn_free (s : State) (x : Conn) : (s.setConn x).free = s.free := rfl
@[simp] theorem State.setConn_pending (s : State) (x : Conn) : (s.setConn x).pending = s.pending := rfl

/-! ### dropConn -/

@[simp] theorem State.dropConn_tick (s : State) (n : Nat) : (s.dropConn n).tick = s.tick := rfl
@[simp] theorem State.dropConn_ptp (s : State) (n : Nat) : (s.dropConn n).ptp = s.ptp := rfl
@[simp] theorem State.dropConn_plan (s : State) (n : Nat) : (s.dropConn n).plan = s.plan := rfl
@[simp] theorem State.dropConn_items (s : State) (n : Nat) : (s.dropConn n).items = s.items := rfl
@[simp] theorem State.dropConn_host (s : State) (n : Nat) : (s.dropConn n).host = s.host := rfl
@[simp] theorem State.dropConn_events (s : State) (n : Nat) : (s.dropConn n).events = s.events := rfl
@[simp] theorem State.dropConn_stiles (s : State) (n : Nat) : (s.dropConn n).stiles = s.stiles := rfl
@[simp] theorem State.dropConn_mesh (s : State) (n : Nat) : (s.dropConn n).mesh = s.mesh := rfl
@[simp] theorem State.dropConn_warren (s : State) (n : Nat) : (s.dropConn n).warren = s.warren := rfl
@[simp] theorem State.dropConn_tiers (s : State) (n : Nat) : (s.dropConn n).tiers = s.tiers := rfl
@[simp] theorem State.dropConn_search (s : State) (n : Nat) : (s.dropConn n).search = s.search := rfl
@[simp] theorem State.dropConn_tables (s : State) (n : Nat) : (s.dropConn n).tables = s.tables := rfl
@[simp] theorem State.dropConn_flash (s : State) (n : Nat) : (s.dropConn n).flash = s.flash := rfl
@[simp] theorem State.dropConn_egress (s : State) (n : Nat) : (s.dropConn n).egress = s.egress := rfl
@[simp] theorem State.dropConn_t1 (s : State) (n : Nat) : (s.dropConn n).t1 = s.t1 := rfl
@[simp] theorem State.dropConn_hostMem (s : State) (n : Nat) : (s.dropConn n).hostMem = s.hostMem := rfl
@[simp] theorem State.dropConn_faults (s : State) (n : Nat) : (s.dropConn n).faults = s.faults := rfl
@[simp] theorem State.dropConn_power (s : State) (n : Nat) : (s.dropConn n).power = s.power := rfl
@[simp] theorem State.dropConn_test (s : State) (n : Nat) : (s.dropConn n).test = s.test := rfl
@[simp] theorem State.dropConn_regs (s : State) (n : Nat) : (s.dropConn n).regs = s.regs := rfl
@[simp] theorem State.dropConn_obs (s : State) (n : Nat) : (s.dropConn n).obs = s.obs := rfl
@[simp] theorem State.dropConn_free (s : State) (n : Nat) : (s.dropConn n).free = s.free := rfl
@[simp] theorem State.dropConn_pending (s : State) (n : Nat) : (s.dropConn n).pending = s.pending := rfl

/-! ### setEgPort -/

@[simp] theorem State.setEgPort_tick (s : State) (p : Nat) (x : EgPort) : (s.setEgPort p x).tick = s.tick := rfl
@[simp] theorem State.setEgPort_ptp (s : State) (p : Nat) (x : EgPort) : (s.setEgPort p x).ptp = s.ptp := rfl
@[simp] theorem State.setEgPort_plan (s : State) (p : Nat) (x : EgPort) : (s.setEgPort p x).plan = s.plan := rfl
@[simp] theorem State.setEgPort_items (s : State) (p : Nat) (x : EgPort) : (s.setEgPort p x).items = s.items := rfl
@[simp] theorem State.setEgPort_host (s : State) (p : Nat) (x : EgPort) : (s.setEgPort p x).host = s.host := rfl
@[simp] theorem State.setEgPort_events (s : State) (p : Nat) (x : EgPort) : (s.setEgPort p x).events = s.events := rfl
@[simp] theorem State.setEgPort_stiles (s : State) (p : Nat) (x : EgPort) : (s.setEgPort p x).stiles = s.stiles := rfl
@[simp] theorem State.setEgPort_mesh (s : State) (p : Nat) (x : EgPort) : (s.setEgPort p x).mesh = s.mesh := rfl
@[simp] theorem State.setEgPort_warren (s : State) (p : Nat) (x : EgPort) : (s.setEgPort p x).warren = s.warren := rfl
@[simp] theorem State.setEgPort_tiers (s : State) (p : Nat) (x : EgPort) : (s.setEgPort p x).tiers = s.tiers := rfl
@[simp] theorem State.setEgPort_search (s : State) (p : Nat) (x : EgPort) : (s.setEgPort p x).search = s.search := rfl
@[simp] theorem State.setEgPort_tables (s : State) (p : Nat) (x : EgPort) : (s.setEgPort p x).tables = s.tables := rfl
@[simp] theorem State.setEgPort_flash (s : State) (p : Nat) (x : EgPort) : (s.setEgPort p x).flash = s.flash := rfl
@[simp] theorem State.setEgPort_fabric (s : State) (p : Nat) (x : EgPort) : (s.setEgPort p x).fabric = s.fabric := rfl
@[simp] theorem State.setEgPort_t1 (s : State) (p : Nat) (x : EgPort) : (s.setEgPort p x).t1 = s.t1 := rfl
@[simp] theorem State.setEgPort_hostMem (s : State) (p : Nat) (x : EgPort) : (s.setEgPort p x).hostMem = s.hostMem := rfl
@[simp] theorem State.setEgPort_faults (s : State) (p : Nat) (x : EgPort) : (s.setEgPort p x).faults = s.faults := rfl
@[simp] theorem State.setEgPort_power (s : State) (p : Nat) (x : EgPort) : (s.setEgPort p x).power = s.power := rfl
@[simp] theorem State.setEgPort_test (s : State) (p : Nat) (x : EgPort) : (s.setEgPort p x).test = s.test := rfl
@[simp] theorem State.setEgPort_regs (s : State) (p : Nat) (x : EgPort) : (s.setEgPort p x).regs = s.regs := rfl
@[simp] theorem State.setEgPort_obs (s : State) (p : Nat) (x : EgPort) : (s.setEgPort p x).obs = s.obs := rfl
@[simp] theorem State.setEgPort_free (s : State) (p : Nat) (x : EgPort) : (s.setEgPort p x).free = s.free := rfl
@[simp] theorem State.setEgPort_pending (s : State) (p : Nat) (x : EgPort) : (s.setEgPort p x).pending = s.pending := rfl

/-! ### setIndex -/

@[simp] theorem State.setIndex_tick (s : State) (x : Index) : (s.setIndex x).tick = s.tick := rfl
@[simp] theorem State.setIndex_ptp (s : State) (x : Index) : (s.setIndex x).ptp = s.ptp := rfl
@[simp] theorem State.setIndex_plan (s : State) (x : Index) : (s.setIndex x).plan = s.plan := rfl
@[simp] theorem State.setIndex_items (s : State) (x : Index) : (s.setIndex x).items = s.items := rfl
@[simp] theorem State.setIndex_host (s : State) (x : Index) : (s.setIndex x).host = s.host := rfl
@[simp] theorem State.setIndex_events (s : State) (x : Index) : (s.setIndex x).events = s.events := rfl
@[simp] theorem State.setIndex_stiles (s : State) (x : Index) : (s.setIndex x).stiles = s.stiles := rfl
@[simp] theorem State.setIndex_mesh (s : State) (x : Index) : (s.setIndex x).mesh = s.mesh := rfl
@[simp] theorem State.setIndex_warren (s : State) (x : Index) : (s.setIndex x).warren = s.warren := rfl
@[simp] theorem State.setIndex_tiers (s : State) (x : Index) : (s.setIndex x).tiers = s.tiers := rfl
@[simp] theorem State.setIndex_tables (s : State) (x : Index) : (s.setIndex x).tables = s.tables := rfl
@[simp] theorem State.setIndex_flash (s : State) (x : Index) : (s.setIndex x).flash = s.flash := rfl
@[simp] theorem State.setIndex_fabric (s : State) (x : Index) : (s.setIndex x).fabric = s.fabric := rfl
@[simp] theorem State.setIndex_egress (s : State) (x : Index) : (s.setIndex x).egress = s.egress := rfl
@[simp] theorem State.setIndex_t1 (s : State) (x : Index) : (s.setIndex x).t1 = s.t1 := rfl
@[simp] theorem State.setIndex_hostMem (s : State) (x : Index) : (s.setIndex x).hostMem = s.hostMem := rfl
@[simp] theorem State.setIndex_faults (s : State) (x : Index) : (s.setIndex x).faults = s.faults := rfl
@[simp] theorem State.setIndex_power (s : State) (x : Index) : (s.setIndex x).power = s.power := rfl
@[simp] theorem State.setIndex_test (s : State) (x : Index) : (s.setIndex x).test = s.test := rfl
@[simp] theorem State.setIndex_regs (s : State) (x : Index) : (s.setIndex x).regs = s.regs := rfl
@[simp] theorem State.setIndex_obs (s : State) (x : Index) : (s.setIndex x).obs = s.obs := rfl
@[simp] theorem State.setIndex_free (s : State) (x : Index) : (s.setIndex x).free = s.free := rfl
@[simp] theorem State.setIndex_pending (s : State) (x : Index) : (s.setIndex x).pending = s.pending := rfl

/-! ### setTable -/

@[simp] theorem State.setTable_tick (s : State) (x : TableDef) : (s.setTable x).tick = s.tick := rfl
@[simp] theorem State.setTable_ptp (s : State) (x : TableDef) : (s.setTable x).ptp = s.ptp := rfl
@[simp] theorem State.setTable_plan (s : State) (x : TableDef) : (s.setTable x).plan = s.plan := rfl
@[simp] theorem State.setTable_items (s : State) (x : TableDef) : (s.setTable x).items = s.items := rfl
@[simp] theorem State.setTable_host (s : State) (x : TableDef) : (s.setTable x).host = s.host := rfl
@[simp] theorem State.setTable_events (s : State) (x : TableDef) : (s.setTable x).events = s.events := rfl
@[simp] theorem State.setTable_stiles (s : State) (x : TableDef) : (s.setTable x).stiles = s.stiles := rfl
@[simp] theorem State.setTable_mesh (s : State) (x : TableDef) : (s.setTable x).mesh = s.mesh := rfl
@[simp] theorem State.setTable_warren (s : State) (x : TableDef) : (s.setTable x).warren = s.warren := rfl
@[simp] theorem State.setTable_tiers (s : State) (x : TableDef) : (s.setTable x).tiers = s.tiers := rfl
@[simp] theorem State.setTable_search (s : State) (x : TableDef) : (s.setTable x).search = s.search := rfl
@[simp] theorem State.setTable_flash (s : State) (x : TableDef) : (s.setTable x).flash = s.flash := rfl
@[simp] theorem State.setTable_fabric (s : State) (x : TableDef) : (s.setTable x).fabric = s.fabric := rfl
@[simp] theorem State.setTable_egress (s : State) (x : TableDef) : (s.setTable x).egress = s.egress := rfl
@[simp] theorem State.setTable_t1 (s : State) (x : TableDef) : (s.setTable x).t1 = s.t1 := rfl
@[simp] theorem State.setTable_hostMem (s : State) (x : TableDef) : (s.setTable x).hostMem = s.hostMem := rfl
@[simp] theorem State.setTable_faults (s : State) (x : TableDef) : (s.setTable x).faults = s.faults := rfl
@[simp] theorem State.setTable_power (s : State) (x : TableDef) : (s.setTable x).power = s.power := rfl
@[simp] theorem State.setTable_test (s : State) (x : TableDef) : (s.setTable x).test = s.test := rfl
@[simp] theorem State.setTable_regs (s : State) (x : TableDef) : (s.setTable x).regs = s.regs := rfl
@[simp] theorem State.setTable_obs (s : State) (x : TableDef) : (s.setTable x).obs = s.obs := rfl
@[simp] theorem State.setTable_free (s : State) (x : TableDef) : (s.setTable x).free = s.free := rfl
@[simp] theorem State.setTable_pending (s : State) (x : TableDef) : (s.setTable x).pending = s.pending := rfl

/-! ### setDie -/

@[simp] theorem State.setDie_tick (s : State) (x : Die) : (s.setDie x).tick = s.tick := rfl
@[simp] theorem State.setDie_ptp (s : State) (x : Die) : (s.setDie x).ptp = s.ptp := rfl
@[simp] theorem State.setDie_plan (s : State) (x : Die) : (s.setDie x).plan = s.plan := rfl
@[simp] theorem State.setDie_items (s : State) (x : Die) : (s.setDie x).items = s.items := rfl
@[simp] theorem State.setDie_host (s : State) (x : Die) : (s.setDie x).host = s.host := rfl
@[simp] theorem State.setDie_events (s : State) (x : Die) : (s.setDie x).events = s.events := rfl
@[simp] theorem State.setDie_stiles (s : State) (x : Die) : (s.setDie x).stiles = s.stiles := rfl
@[simp] theorem State.setDie_mesh (s : State) (x : Die) : (s.setDie x).mesh = s.mesh := rfl
@[simp] theorem State.setDie_warren (s : State) (x : Die) : (s.setDie x).warren = s.warren := rfl
@[simp] theorem State.setDie_tiers (s : State) (x : Die) : (s.setDie x).tiers = s.tiers := rfl
@[simp] theorem State.setDie_search (s : State) (x : Die) : (s.setDie x).search = s.search := rfl
@[simp] theorem State.setDie_tables (s : State) (x : Die) : (s.setDie x).tables = s.tables := rfl
@[simp] theorem State.setDie_fabric (s : State) (x : Die) : (s.setDie x).fabric = s.fabric := rfl
@[simp] theorem State.setDie_egress (s : State) (x : Die) : (s.setDie x).egress = s.egress := rfl
@[simp] theorem State.setDie_t1 (s : State) (x : Die) : (s.setDie x).t1 = s.t1 := rfl
@[simp] theorem State.setDie_hostMem (s : State) (x : Die) : (s.setDie x).hostMem = s.hostMem := rfl
@[simp] theorem State.setDie_faults (s : State) (x : Die) : (s.setDie x).faults = s.faults := rfl
@[simp] theorem State.setDie_power (s : State) (x : Die) : (s.setDie x).power = s.power := rfl
@[simp] theorem State.setDie_test (s : State) (x : Die) : (s.setDie x).test = s.test := rfl
@[simp] theorem State.setDie_regs (s : State) (x : Die) : (s.setDie x).regs = s.regs := rfl
@[simp] theorem State.setDie_obs (s : State) (x : Die) : (s.setDie x).obs = s.obs := rfl
@[simp] theorem State.setDie_free (s : State) (x : Die) : (s.setDie x).free = s.free := rfl
@[simp] theorem State.setDie_pending (s : State) (x : Die) : (s.setDie x).pending = s.pending := rfl

/-! ### bumpFlash -/

@[simp] theorem State.bumpFlash_tick (s : State) (i n : Nat) : (s.bumpFlash i n).tick = s.tick := rfl
@[simp] theorem State.bumpFlash_ptp (s : State) (i n : Nat) : (s.bumpFlash i n).ptp = s.ptp := rfl
@[simp] theorem State.bumpFlash_plan (s : State) (i n : Nat) : (s.bumpFlash i n).plan = s.plan := rfl
@[simp] theorem State.bumpFlash_items (s : State) (i n : Nat) : (s.bumpFlash i n).items = s.items := rfl
@[simp] theorem State.bumpFlash_host (s : State) (i n : Nat) : (s.bumpFlash i n).host = s.host := rfl
@[simp] theorem State.bumpFlash_events (s : State) (i n : Nat) : (s.bumpFlash i n).events = s.events := rfl
@[simp] theorem State.bumpFlash_stiles (s : State) (i n : Nat) : (s.bumpFlash i n).stiles = s.stiles := rfl
@[simp] theorem State.bumpFlash_mesh (s : State) (i n : Nat) : (s.bumpFlash i n).mesh = s.mesh := rfl
@[simp] theorem State.bumpFlash_warren (s : State) (i n : Nat) : (s.bumpFlash i n).warren = s.warren := rfl
@[simp] theorem State.bumpFlash_tiers (s : State) (i n : Nat) : (s.bumpFlash i n).tiers = s.tiers := rfl
@[simp] theorem State.bumpFlash_search (s : State) (i n : Nat) : (s.bumpFlash i n).search = s.search := rfl
@[simp] theorem State.bumpFlash_tables (s : State) (i n : Nat) : (s.bumpFlash i n).tables = s.tables := rfl
@[simp] theorem State.bumpFlash_fabric (s : State) (i n : Nat) : (s.bumpFlash i n).fabric = s.fabric := rfl
@[simp] theorem State.bumpFlash_egress (s : State) (i n : Nat) : (s.bumpFlash i n).egress = s.egress := rfl
@[simp] theorem State.bumpFlash_t1 (s : State) (i n : Nat) : (s.bumpFlash i n).t1 = s.t1 := rfl
@[simp] theorem State.bumpFlash_hostMem (s : State) (i n : Nat) : (s.bumpFlash i n).hostMem = s.hostMem := rfl
@[simp] theorem State.bumpFlash_faults (s : State) (i n : Nat) : (s.bumpFlash i n).faults = s.faults := rfl
@[simp] theorem State.bumpFlash_power (s : State) (i n : Nat) : (s.bumpFlash i n).power = s.power := rfl
@[simp] theorem State.bumpFlash_test (s : State) (i n : Nat) : (s.bumpFlash i n).test = s.test := rfl
@[simp] theorem State.bumpFlash_regs (s : State) (i n : Nat) : (s.bumpFlash i n).regs = s.regs := rfl
@[simp] theorem State.bumpFlash_obs (s : State) (i n : Nat) : (s.bumpFlash i n).obs = s.obs := rfl
@[simp] theorem State.bumpFlash_free (s : State) (i n : Nat) : (s.bumpFlash i n).free = s.free := rfl
@[simp] theorem State.bumpFlash_pending (s : State) (i n : Nat) : (s.bumpFlash i n).pending = s.pending := rfl

/-! ### jot -/

@[simp] theorem State.jot_tick (s : State) (t : Nat) (l : List Nat) : (s.jot t l).tick = s.tick := rfl
@[simp] theorem State.jot_ptp (s : State) (t : Nat) (l : List Nat) : (s.jot t l).ptp = s.ptp := rfl
@[simp] theorem State.jot_plan (s : State) (t : Nat) (l : List Nat) : (s.jot t l).plan = s.plan := rfl
@[simp] theorem State.jot_items (s : State) (t : Nat) (l : List Nat) : (s.jot t l).items = s.items := rfl
@[simp] theorem State.jot_host (s : State) (t : Nat) (l : List Nat) : (s.jot t l).host = s.host := rfl
@[simp] theorem State.jot_events (s : State) (t : Nat) (l : List Nat) : (s.jot t l).events = s.events := rfl
@[simp] theorem State.jot_stiles (s : State) (t : Nat) (l : List Nat) : (s.jot t l).stiles = s.stiles := rfl
@[simp] theorem State.jot_mesh (s : State) (t : Nat) (l : List Nat) : (s.jot t l).mesh = s.mesh := rfl
@[simp] theorem State.jot_warren (s : State) (t : Nat) (l : List Nat) : (s.jot t l).warren = s.warren := rfl
@[simp] theorem State.jot_tiers (s : State) (t : Nat) (l : List Nat) : (s.jot t l).tiers = s.tiers := rfl
@[simp] theorem State.jot_search (s : State) (t : Nat) (l : List Nat) : (s.jot t l).search = s.search := rfl
@[simp] theorem State.jot_tables (s : State) (t : Nat) (l : List Nat) : (s.jot t l).tables = s.tables := rfl
@[simp] theorem State.jot_fabric (s : State) (t : Nat) (l : List Nat) : (s.jot t l).fabric = s.fabric := rfl
@[simp] theorem State.jot_egress (s : State) (t : Nat) (l : List Nat) : (s.jot t l).egress = s.egress := rfl
@[simp] theorem State.jot_t1 (s : State) (t : Nat) (l : List Nat) : (s.jot t l).t1 = s.t1 := rfl
@[simp] theorem State.jot_hostMem (s : State) (t : Nat) (l : List Nat) : (s.jot t l).hostMem = s.hostMem := rfl
@[simp] theorem State.jot_faults (s : State) (t : Nat) (l : List Nat) : (s.jot t l).faults = s.faults := rfl
@[simp] theorem State.jot_power (s : State) (t : Nat) (l : List Nat) : (s.jot t l).power = s.power := rfl
@[simp] theorem State.jot_test (s : State) (t : Nat) (l : List Nat) : (s.jot t l).test = s.test := rfl
@[simp] theorem State.jot_regs (s : State) (t : Nat) (l : List Nat) : (s.jot t l).regs = s.regs := rfl
@[simp] theorem State.jot_obs (s : State) (t : Nat) (l : List Nat) : (s.jot t l).obs = s.obs := rfl
@[simp] theorem State.jot_free (s : State) (t : Nat) (l : List Nat) : (s.jot t l).free = s.free := rfl
@[simp] theorem State.jot_pending (s : State) (t : Nat) (l : List Nat) : (s.jot t l).pending = s.pending := rfl

/-! ### total -/

@[simp] theorem State.total_tick (s : State) (i n : Nat) : (s.total i n).tick = s.tick := rfl
@[simp] theorem State.total_ptp (s : State) (i n : Nat) : (s.total i n).ptp = s.ptp := rfl
@[simp] theorem State.total_plan (s : State) (i n : Nat) : (s.total i n).plan = s.plan := rfl
@[simp] theorem State.total_items (s : State) (i n : Nat) : (s.total i n).items = s.items := rfl
@[simp] theorem State.total_host (s : State) (i n : Nat) : (s.total i n).host = s.host := rfl
@[simp] theorem State.total_events (s : State) (i n : Nat) : (s.total i n).events = s.events := rfl
@[simp] theorem State.total_stiles (s : State) (i n : Nat) : (s.total i n).stiles = s.stiles := rfl
@[simp] theorem State.total_mesh (s : State) (i n : Nat) : (s.total i n).mesh = s.mesh := rfl
@[simp] theorem State.total_warren (s : State) (i n : Nat) : (s.total i n).warren = s.warren := rfl
@[simp] theorem State.total_tiers (s : State) (i n : Nat) : (s.total i n).tiers = s.tiers := rfl
@[simp] theorem State.total_search (s : State) (i n : Nat) : (s.total i n).search = s.search := rfl
@[simp] theorem State.total_tables (s : State) (i n : Nat) : (s.total i n).tables = s.tables := rfl
@[simp] theorem State.total_flash (s : State) (i n : Nat) : (s.total i n).flash = s.flash := rfl
@[simp] theorem State.total_fabric (s : State) (i n : Nat) : (s.total i n).fabric = s.fabric := rfl
@[simp] theorem State.total_egress (s : State) (i n : Nat) : (s.total i n).egress = s.egress := rfl
@[simp] theorem State.total_t1 (s : State) (i n : Nat) : (s.total i n).t1 = s.t1 := rfl
@[simp] theorem State.total_hostMem (s : State) (i n : Nat) : (s.total i n).hostMem = s.hostMem := rfl
@[simp] theorem State.total_faults (s : State) (i n : Nat) : (s.total i n).faults = s.faults := rfl
@[simp] theorem State.total_power (s : State) (i n : Nat) : (s.total i n).power = s.power := rfl
@[simp] theorem State.total_test (s : State) (i n : Nat) : (s.total i n).test = s.test := rfl
@[simp] theorem State.total_regs (s : State) (i n : Nat) : (s.total i n).regs = s.regs := rfl
@[simp] theorem State.total_free (s : State) (i n : Nat) : (s.total i n).free = s.free := rfl
@[simp] theorem State.total_pending (s : State) (i n : Nat) : (s.total i n).pending = s.pending := rfl

/-! ### tookFresh -/

@[simp] theorem State.tookFresh_tick (s : State) : (s.tookFresh).tick = s.tick := rfl
@[simp] theorem State.tookFresh_ptp (s : State) : (s.tookFresh).ptp = s.ptp := rfl
@[simp] theorem State.tookFresh_plan (s : State) : (s.tookFresh).plan = s.plan := rfl
@[simp] theorem State.tookFresh_items (s : State) : (s.tookFresh).items = s.items := rfl
@[simp] theorem State.tookFresh_host (s : State) : (s.tookFresh).host = s.host := rfl
@[simp] theorem State.tookFresh_events (s : State) : (s.tookFresh).events = s.events := rfl
@[simp] theorem State.tookFresh_stiles (s : State) : (s.tookFresh).stiles = s.stiles := rfl
@[simp] theorem State.tookFresh_mesh (s : State) : (s.tookFresh).mesh = s.mesh := rfl
@[simp] theorem State.tookFresh_warren (s : State) : (s.tookFresh).warren = s.warren := rfl
@[simp] theorem State.tookFresh_tiers (s : State) : (s.tookFresh).tiers = s.tiers := rfl
@[simp] theorem State.tookFresh_search (s : State) : (s.tookFresh).search = s.search := rfl
@[simp] theorem State.tookFresh_tables (s : State) : (s.tookFresh).tables = s.tables := rfl
@[simp] theorem State.tookFresh_flash (s : State) : (s.tookFresh).flash = s.flash := rfl
@[simp] theorem State.tookFresh_fabric (s : State) : (s.tookFresh).fabric = s.fabric := rfl
@[simp] theorem State.tookFresh_egress (s : State) : (s.tookFresh).egress = s.egress := rfl
@[simp] theorem State.tookFresh_t1 (s : State) : (s.tookFresh).t1 = s.t1 := rfl
@[simp] theorem State.tookFresh_hostMem (s : State) : (s.tookFresh).hostMem = s.hostMem := rfl
@[simp] theorem State.tookFresh_faults (s : State) : (s.tookFresh).faults = s.faults := rfl
@[simp] theorem State.tookFresh_power (s : State) : (s.tookFresh).power = s.power := rfl
@[simp] theorem State.tookFresh_test (s : State) : (s.tookFresh).test = s.test := rfl
@[simp] theorem State.tookFresh_regs (s : State) : (s.tookFresh).regs = s.regs := rfl
@[simp] theorem State.tookFresh_obs (s : State) : (s.tookFresh).obs = s.obs := rfl
@[simp] theorem State.tookFresh_pending (s : State) : (s.tookFresh).pending = s.pending := rfl

/-! ### tookMany -/

@[simp] theorem State.tookMany_tick (s : State) (n : Nat) : (s.tookMany n).tick = s.tick := rfl
@[simp] theorem State.tookMany_ptp (s : State) (n : Nat) : (s.tookMany n).ptp = s.ptp := rfl
@[simp] theorem State.tookMany_plan (s : State) (n : Nat) : (s.tookMany n).plan = s.plan := rfl
@[simp] theorem State.tookMany_items (s : State) (n : Nat) : (s.tookMany n).items = s.items := rfl
@[simp] theorem State.tookMany_host (s : State) (n : Nat) : (s.tookMany n).host = s.host := rfl
@[simp] theorem State.tookMany_events (s : State) (n : Nat) : (s.tookMany n).events = s.events := rfl
@[simp] theorem State.tookMany_stiles (s : State) (n : Nat) : (s.tookMany n).stiles = s.stiles := rfl
@[simp] theorem State.tookMany_mesh (s : State) (n : Nat) : (s.tookMany n).mesh = s.mesh := rfl
@[simp] theorem State.tookMany_warren (s : State) (n : Nat) : (s.tookMany n).warren = s.warren := rfl
@[simp] theorem State.tookMany_tiers (s : State) (n : Nat) : (s.tookMany n).tiers = s.tiers := rfl
@[simp] theorem State.tookMany_search (s : State) (n : Nat) : (s.tookMany n).search = s.search := rfl
@[simp] theorem State.tookMany_tables (s : State) (n : Nat) : (s.tookMany n).tables = s.tables := rfl
@[simp] theorem State.tookMany_flash (s : State) (n : Nat) : (s.tookMany n).flash = s.flash := rfl
@[simp] theorem State.tookMany_fabric (s : State) (n : Nat) : (s.tookMany n).fabric = s.fabric := rfl
@[simp] theorem State.tookMany_egress (s : State) (n : Nat) : (s.tookMany n).egress = s.egress := rfl
@[simp] theorem State.tookMany_t1 (s : State) (n : Nat) : (s.tookMany n).t1 = s.t1 := rfl
@[simp] theorem State.tookMany_hostMem (s : State) (n : Nat) : (s.tookMany n).hostMem = s.hostMem := rfl
@[simp] theorem State.tookMany_faults (s : State) (n : Nat) : (s.tookMany n).faults = s.faults := rfl
@[simp] theorem State.tookMany_power (s : State) (n : Nat) : (s.tookMany n).power = s.power := rfl
@[simp] theorem State.tookMany_test (s : State) (n : Nat) : (s.tookMany n).test = s.test := rfl
@[simp] theorem State.tookMany_regs (s : State) (n : Nat) : (s.tookMany n).regs = s.regs := rfl
@[simp] theorem State.tookMany_obs (s : State) (n : Nat) : (s.tookMany n).obs = s.obs := rfl
@[simp] theorem State.tookMany_pending (s : State) (n : Nat) : (s.tookMany n).pending = s.pending := rfl

/-! ### Listed parts -/

theorem find?_putBy {α : Type} (key : α → Nat) (x : α) (l : List α) :
    (putBy key x l).find? (fun y => key y == key x) = some x := by
  induction l with
  | nil => simp [putBy]
  | cons y r ih =>
    unfold putBy
    split
    · simp
    · split
      · simp
      · rw [List.find?_cons_of_neg (by simp; omega)]; exact ih

theorem find?_putBy_ne {α : Type} (key : α → Nat) (x : α) (l : List α) {k : Nat} (h : k ≠ key x) :
    (putBy key x l).find? (fun y => key y == k) = l.find? (fun y => key y == k) := by
  induction l with
  | nil => simp [putBy, h.symm]
  | cons y r ih =>
    unfold putBy
    split
    · rw [List.find?_cons_of_neg (by simpa using h.symm)]
    · split
      · rename_i e
        rw [List.find?_cons_of_neg (by simpa using h.symm), List.find?_cons_of_neg (by simp; omega)]
      · by_cases e : key y = k
        · simp [e]
        · rw [List.find?_cons_of_neg (by simpa using e), List.find?_cons_of_neg (by simpa using e)]; exact ih

theorem State.tile_id (s : State) (i : Nat) : (s.tile i).id = i := by
  unfold State.tile
  cases h : List.find? _ _ with
  | none => rfl
  | some x => simpa using List.find?_some h
theorem State.tile_setTile (s : State) (x : Tile) : (s.setTile x).tile x.id = x := by
  simp only [State.tile, State.setTile, find?_putBy Tile.id, Option.getD_some]
theorem State.tile_setTile_of (s : State) {x : Tile} {i : Nat} (h : x.id = i) : (s.setTile x).tile i = x := by
  subst h; exact State.tile_setTile s x
theorem State.tile_setTile_ne (s : State) (x : Tile) {i : Nat} (h : i ≠ x.id) : (s.setTile x).tile i = s.tile i := by
  simp only [State.tile, State.setTile, find?_putBy_ne Tile.id x _ h]

theorem State.burrow_id (s : State) (i : Nat) : (s.burrow i).id = i := by
  unfold State.burrow
  cases h : List.find? _ _ with
  | none => rfl
  | some x => simpa using List.find?_some h
theorem State.burrow_setBurrow (s : State) (x : Burrow) : (s.setBurrow x).burrow x.id = x := by
  simp only [State.burrow, State.setBurrow, find?_putBy Burrow.id, Option.getD_some]
theorem State.burrow_setBurrow_of (s : State) {x : Burrow} {i : Nat} (h : x.id = i) : (s.setBurrow x).burrow i = x := by
  subst h; exact State.burrow_setBurrow s x
theorem State.burrow_setBurrow_ne (s : State) (x : Burrow) {i : Nat} (h : i ≠ x.id) : (s.setBurrow x).burrow i = s.burrow i := by
  simp only [State.burrow, State.setBurrow, find?_putBy_ne Burrow.id x _ h]

theorem State.fn_id (s : State) (i : Nat) : (s.fn i).id = i := by
  unfold State.fn
  cases h : List.find? _ _ with
  | none => rfl
  | some x => simpa using List.find?_some h
theorem State.fn_setFn (s : State) (x : Fn) : (s.setFn x).fn x.id = x := by
  simp only [State.fn, State.setFn, find?_putBy Fn.id, Option.getD_some]
theorem State.fn_setFn_of (s : State) {x : Fn} {i : Nat} (h : x.id = i) : (s.setFn x).fn i = x := by
  subst h; exact State.fn_setFn s x
theorem State.fn_setFn_ne (s : State) (x : Fn) {i : Nat} (h : i ≠ x.id) : (s.setFn x).fn i = s.fn i := by
  simp only [State.fn, State.setFn, find?_putBy_ne Fn.id x _ h]

theorem State.die_id (s : State) (i : Nat) : (s.die i).id = i := by
  unfold State.die
  cases h : List.find? _ _ with
  | none => rfl
  | some x => simpa using List.find?_some h
theorem State.die_setDie (s : State) (x : Die) : (s.setDie x).die x.id = x := by
  simp only [State.die, State.setDie, find?_putBy Die.id, Option.getD_some]
theorem State.die_setDie_of (s : State) {x : Die} {i : Nat} (h : x.id = i) : (s.setDie x).die i = x := by
  subst h; exact State.die_setDie s x
theorem State.die_setDie_ne (s : State) (x : Die) {i : Nat} (h : i ≠ x.id) : (s.setDie x).die i = s.die i := by
  simp only [State.die, State.setDie, find?_putBy_ne Die.id x _ h]

theorem State.stile_setStile (s : State) (i : Nat) (t : Stile) : (s.setStile i t).stile i = t := by
  simp only [State.stile, State.setStile, find?_putBy Prod.fst (i, t)]
theorem State.stile_setStile_ne (s : State) {i j : Nat} (t : Stile) (h : j ≠ i) :
    (s.setStile i t).stile j = s.stile j := by
  simp only [State.stile, State.setStile, find?_putBy_ne Prod.fst (i, t) _ h]
theorem State.conn_setConn (s : State) (c : Conn) : (s.setConn c).conn c.num = some c := by
  simp only [State.conn, State.setConn, find?_putBy Conn.num c]
theorem State.conn_setConn_ne (s : State) (c : Conn) {n : Nat} (h : n ≠ c.num) : (s.setConn c).conn n = s.conn n := by
  simp only [State.conn, State.setConn, find?_putBy_ne Conn.num c _ h]
theorem State.conn_num {s : State} {n : Nat} {c : Conn} (h : s.conn n = some c) : c.num = n := by
  simpa using List.find?_some h
theorem State.port_setPort {s : State} {p : Nat} (x : Port) (h : p < s.fabric.ports.length) :
    (s.setPort p x).port p = x := by
  simp [State.port, State.setPort, List.getD_eq_getElem?_getD, h]
theorem State.port_setPort_ne (s : State) {p q : Nat} (x : Port) (h : q ≠ p) : (s.setPort p x).port q = s.port q := by
  simp [State.port, State.setPort, List.getD_eq_getElem?_getD, h.symm]
theorem State.stack_setStack {s : State} {i : Nat} (x : Stack) (h : i < s.warren.dram.length) :
    (s.setStack i x).stack i = x := by
  simp [State.stack, State.setStack, List.getD_eq_getElem?_getD, h]
theorem State.stack_setStack_ne (s : State) {i j : Nat} (x : Stack) (h : j ≠ i) :
    (s.setStack i x).stack j = s.stack j := by
  simp [State.stack, State.setStack, List.getD_eq_getElem?_getD, h.symm]
theorem State.egPort_setEgPort {s : State} {p : Nat} (x : EgPort) (h : p < s.egress.ports.length) :
    (s.setEgPort p x).egPort p = x := by
  simp [State.egPort, State.setEgPort, List.getD_eq_getElem?_getD, h]
theorem State.egPort_setEgPort_ne (s : State) {p q : Nat} (x : EgPort) (h : q ≠ p) :
    (s.setEgPort p x).egPort q = s.egPort q := by
  simp [State.egPort, State.setEgPort, List.getD_eq_getElem?_getD, h.symm]
theorem State.ring_setRing {s : State} {f r : Nat} (x : Ring) (h : r < (s.fn f).rings.length) :
    (s.setRing f r x).ring f r = x := by
  have e := State.fn_setFn_of s (x := { s.fn f with rings := (s.fn f).rings.set r x }) (State.fn_id s f)
  simp [State.ring, State.setRing, e, List.getD_eq_getElem?_getD, h]
theorem State.ring_setRing_ne (s : State) {f r g q : Nat} (x : Ring) (h : g ≠ f ∨ q ≠ r) :
    (s.setRing f r x).ring g q = s.ring g q := by
  simp only [State.ring, State.setRing]
  by_cases e : g = f
  · subst e
    have e := State.fn_setFn_of s (x := { s.fn g with rings := (s.fn g).rings.set r x }) (State.fn_id s g)
    have k : q ≠ r := by simpa using h
    simp [e, List.getD_eq_getElem?_getD, k.symm]
  · rw [State.fn_setFn_ne]
    simpa [State.fn_id] using e

end Sys2Proof.Machine
end

