-- ==== Sys2Proof/WellFormed.lean ====
section
/-! DEFINITION. Well-formed commands: every operand in the range that the spec gives the thing it names. A command
that is not well formed names something that no node has; the machine still answers it with a next state. -/

namespace Sys2Proof

/-- A descriptor is eight words of one of 4,096 functions and eight rings, at an index of a ring of at most
65,536 entries (R366, Table HI-6). -/
def Desc.wf (d : Desc) : Bool :=
  decide (d.fn < 4096) && decide (d.ring < 8) && decide (d.idx < 65536) && d.words.length == 8

/-- The fields of a tile command record fit their bits (Table TL-4). -/
def CmdRec.wf (r : CmdRec) : Bool :=
  decide (r.issue < 2 ^ 32) && decide (r.phase < 16) && decide (r.flags < 256) && decide (r.opcode < 256) &&
    decide (r.aux < 65536) && decide (r.dst < 65536) && decide (r.src1 < 65536) && decide (r.src0 < 65536) &&
    decide (r.fmt1 < 16) && decide (r.fmt0 < 16) && decide (r.k < 65536) && decide (r.n < 65536) &&
    decide (r.m < 65536) && decide (r.value < 2 ^ 24) && decide (r.stile < 16384) && decide (r.ext < 2 ^ 24)

/-- One of the eight ring pairs, the event ring or the receive ring. -/
def RingName.wf : RingName → Bool
  | .pair r => decide (r < 8)
  | .event => true
  | .receive => true

/-- A logical tile or a logical burrow of the node. -/
def Engine.wf : Engine → Bool
  | .tile i => decide (i < 4096)
  | .burrow i => decide (i < 256)

/-- Host addresses have 64 bits. -/
def hostOk (h : HostBytes) : Bool := h.all fun c => decide (c.1 < 2 ^ 64)

/-- The operands of a command are in range. -/
def Instr.wf : Instr → Bool
  | .tickEdge _ => true
  | .quarantineEnd stile => decide (stile < 16384)
  | .rmaQuarantineEnd entry => decide (entry < 16384)
  | .ingestStart => true
  | .ingestEnd => true
  | .guardPhaseStart _ => true
  | .egressWindowStart => true
  | .completionWrite fn ring => decide (fn < 4096) && decide (ring < 8)
  | .exchangeWindowBClose => true
  | .tickLineFrame _ _ => true
  | .lineLockLost => true
  | .rootEdgeAnnounce _ => true
  | .ppsPulse _ => true
  | .beaconReceived port _ => decide (port < 8)
  | .beaconLost => true
  | .sourceSwitchBack => true
  | .holdoverNotAligned => true
  | .holdoverEnd => true
  | .ptpSync port _ => decide (port < 8)
  | .ptpFollowUp port _ => decide (port < 8)
  | .ptpAnnounce port _ => decide (port < 8)
  | .ptpDelayResp port _ => decide (port < 8)
  | .ptpLockLost => true
  | .planValidationDone => true
  | .matmul tile r => decide (tile < 4096) && r.wf
  | .dist tile r => decide (tile < 4096) && r.wf
  | .lutb tile r => decide (tile < 4096) && r.wf
  | .scan tile r => decide (tile < 4096) && r.wf
  | .filter tile r => decide (tile < 4096) && r.wf
  | .quant tile r => decide (tile < 4096) && r.wf
  | .dqacc tile r => decide (tile < 4096) && r.wf
  | .scaleRow tile r => decide (tile < 4096) && r.wf
  | .scaleScalar tile r => decide (tile < 4096) && r.wf
  | .scaleNorm tile r => decide (tile < 4096) && r.wf
  | .topkArray tile r => decide (tile < 4096) && r.wf
  | .topkRegister tile r => decide (tile < 4096) && r.wf
  | .merge tile r => decide (tile < 4096) && r.wf
  | .tileGather tile r => decide (tile < 4096) && r.wf
  | .reduce tile r => decide (tile < 4096) && r.wf
  | .copyLocal tile r => decide (tile < 4096) && r.wf
  | .copyRemote tile r => decide (tile < 4096) && r.wf
  | .remoteCopyLanding _ => true
  | .shload tile r => decide (tile < 4096) && r.wf
  | .shstore tile r => decide (tile < 4096) && r.wf
  | .sheafCommit _ => true
  | .tileSignal tile r => decide (tile < 4096) && r.wf
  | .tileConsume tile r => decide (tile < 4096) && r.wf
  | .tileSet tile r => decide (tile < 4096) && r.wf
  | .tileWait tile r => decide (tile < 4096) && r.wf
  | .tileWaitConsume tile r => decide (tile < 4096) && r.wf
  | .stileWaitSatisfied eng _ => eng.wf
  | .scoreboardRelease tile _ => decide (tile < 4096)
  | .tileFault tile _ => decide (tile < 4096)
  | .burrowSlotStart burrow _ => decide (burrow < 256)
  | .nextItem burrow => decide (burrow < 256)
  | .lutget burrow => decide (burrow < 256)
  | .lutPullLanded burrow half => decide (burrow < 256) && decide (half < 2)
  | .lutw burrow => decide (burrow < 256)
  | .scanl burrow => decide (burrow < 256)
  | .emit burrow => decide (burrow < 256)
  | .gath burrow => decide (burrow < 256)
  | .rsub burrow => decide (burrow < 256)
  | .sig burrow => decide (burrow < 256)
  | .waits burrow => decide (burrow < 256)
  | .bcopy burrow => decide (burrow < 256)
  | .jump burrow => decide (burrow < 256)
  | .endSlot burrow => decide (burrow < 256)
  | .throttleLevelChange stack _ _ _ _ => decide (stack < 8)
  | .refreshRateChange stack _ => decide (stack < 8)
  | .warrenFault stack unit _ => decide (stack < 8) && decide (unit < 33)
  | .unitRefillComplete stack => decide (stack < 8)
  | .sheafMoveStart _ => true
  | .sheafLanding _ _ => true
  | .sheafMoveDeadline _ => true
  | .search d => d.wf
  | .shardQuery _ => true
  | .shardResult _ => true
  | .flashReadIssue _ => true
  | .flashReadNotIssued _ => true
  | .flashReadReturn _ _ _ => true
  | .flashReadDeadline _ => true
  | .flashReconstructDone _ _ => true
  | .programDone _ _ => true
  | .eraseDone _ _ => true
  | .dieFailed die => decide (die < 512)
  | .dieRetired die => decide (die < 512)
  | .segmentAgeWarn fn _ _ => decide (fn < 4096)
  | .segmentPastBound fn _ _ => decide (fn < 4096)
  | .checkpoint => true
  | .rootPageWrite => true
  | .flashReadServiceRequest fn _ _ => decide (fn < 4096)
  | .refillResponse fn _ _ => decide (fn < 4096)
  | .select d => d.wf
  | .gather d => d.wf
  | .pklookup d => d.wf
  | .exchangeRequest _ _ => true
  | .exchangeResponse _ _ => true
  | .insert d => d.wf
  | .delete d => d.wf
  | .load d => d.wf
  | .rowwrite d => d.wf
  | .rowdelete d => d.wf
  | .replicationBatch _ _ _ => true
  | .format d => d.wf
  | .stileSignal _ fn addressed _ => decide (fn < 4096) && decide ((addressed.getD 0) < 16384)
  | .stileConsume _ fn addressed _ => decide (fn < 4096) && decide ((addressed.getD 0) < 16384)
  | .stileSet _ fn addressed _ => decide (fn < 4096) && decide ((addressed.getD 0) < 16384)
  | .stileClearFlags _ fn addressed _ => decide (fn < 4096) && decide ((addressed.getD 0) < 16384)
  | .stileRead fn off _ stile => decide (fn < 4096) && decide (off < 67108864) && decide (stile < 16384)
  | .stileEccError stile _ => decide (stile < 16384)
  | .frameReceived port _ => decide (port < 8)
  | .pfcPauseReceived port tc _ => decide (port < 8) && decide (tc < 8)
  | .pfcStorm port tc => decide (port < 8) && decide (tc < 8)
  | .pfcStormEnd port tc => decide (port < 8) && decide (tc < 8)
  | .laneFailure port lane => decide (port < 8) && decide (lane < 8)
  | .portDown port => decide (port < 8)
  | .portUp port => decide (port < 8)
  | .connect port tc _ => decide (port < 8) && decide (tc < 8)
  | .connectAck port tc _ => decide (port < 8) && decide (tc < 8)
  | .ludomWrite port tc _ _ => decide (port < 8) && decide (tc < 8)
  | .readReq port tc _ => decide (port < 8) && decide (tc < 8)
  | .readResp port tc _ => decide (port < 8) && decide (tc < 8)
  | .ludomAck port tc _ => decide (port < 8) && decide (tc < 8)
  | .ludomNak port tc _ => decide (port < 8) && decide (tc < 8)
  | .notReady port tc _ => decide (port < 8) && decide (tc < 8)
  | .ludomClose port tc _ => decide (port < 8) && decide (tc < 8)
  | .ludomRtoExpiry conn _ => decide (conn < 2097152)
  | .nrWaitExpiry conn _ => decide (conn < 2097152)
  | .batchAged conn _ => decide (conn < 2097152)
  | .roceSend conn _ => decide (conn < 2097152)
  | .rdmaWrite conn _ => decide (conn < 2097152)
  | .rdmaWriteWithImmediate conn _ => decide (conn < 2097152)
  | .rdmaRead conn _ => decide (conn < 2097152)
  | .fetchAdd conn _ => decide (conn < 2097152)
  | .cmpSwap conn _ => decide (conn < 2097152)
  | .roceAck conn _ => decide (conn < 2097152)
  | .roceNak conn _ _ => decide (conn < 2097152)
  | .rnrNak conn _ => decide (conn < 2097152)
  | .udSend conn _ _ => decide (conn < 2097152)
  | .ceMark conn _ => decide (conn < 2097152)
  | .cnp conn => decide (conn < 2097152)
  | .ceRateRecovery conn => decide (conn < 2097152)
  | .contextFetchDone conn => decide (conn < 2097152)
  | .sysconnRetry conn => decide (conn < 2097152)
  | .egressFrameStart port _ => decide (port < 8)
  | .shaperRefill _ => true
  | .policerRefill _ => true
  | .gateOpen _ => true
  | .gateClose _ => true
  | .scanRequest _ _ => true
  | .scanResponse _ _ => true
  | .nodeFault row _ => decide (row < 24)
  | .rejoinWindowExpiry => true
  | .seedComplete _ => true
  | .sqTailDoorbell fn ring _ host => decide (fn < 4096) && decide (ring < 8) && hostOk host
  | .cqHeadDoorbell fn ring _ => decide (fn < 4096) && decide (ring < 8)
  | .evHeadDoorbell fn _ => decide (fn < 4096)
  | .rxTailDoorbell fn _ host => decide (fn < 4096) && hostOk host
  | .ringCfgWrite fn ring _ => decide (fn < 4096) && ring.wf
  | .hostReadFail fn _ => decide (fn < 4096)
  | .eventRecordWrite => true
  | .beginTxn d => d.wf
  | .setItem d => d.wf
  | .commit d => d.wf
  | .rollback d => d.wf
  | .planStage d => d.wf
  | .connOpen d => d.wf
  | .connClose d => d.wf
  | .quiesceOwn d => d.wf
  | .quiesceAll d => d.wf
  | .quiesceRemote d => d.wf
  | .quiesceMessage _ _ _ => true
  | .resume d => d.wf
  | .watch d => d.wf
  | .watchDumpDone => true
  | .compositionLoad host _ => hostOk host
  | .compositionCheckDone => true
  | .flr fn => decide (fn < 4096)
  | .perstN => true
  | .pwrGoodRise _ => true
  | .pwrGoodFall => true
  | .supplyFault rail _ _ => decide (rail < 7)
  | .pllLockTimeout _ => true
  | .pllLockLoss _ => true
  | .avsChange _ _ => true
  | .avsLate _ => true
  | .dieWarn _ _ => true
  | .dieWarnEnd _ _ => true
  | .thermalTrip _ _ _ => true
  | .coldReset => true
  | .warmReset => true
  | .bootStepComplete _ => true
  | .shepherdSolo core _ => decide (core < 2)
  | .fallowEnter => true
  | .wakeComplete => true
  | .bistCurrentSample _ _ _ => true
  | .bistComplete _ => true
  | .toTest => true
  | .toProvisioned => true
  | .toDeployed => true
  | .toReturned => true
  | .toDead => true
  | .lcEraseComplete _ => true
  | .countImageWrite fn => decide (fn < 4096)
  | .traceWrap => true
  | .traceStatusWrite => true
  | .traceLostRecord => true
  | .readItem fn _ => decide (fn < 4096)
  | .readPlan _ => true
  | .readSpares _ => true
  | .readSnapshots _ => true
  | .mailboxCommandEnd => true
  | .smbusRead off _ => decide (off < 67108864)
  | .smbusWrite off _ _ => decide (off < 67108864)
  | .dbMemDataRead => true
  | .dbMemDataWrite _ => true
  | .rcRegisterRead page off _ => decide ((page.getD 0) < 4096) && decide (off < 67108864)
  | .registerWrite page off _ _ => decide ((page.getD 0) < 4096) && decide (off < 67108864)
  | .jtagInstruction _ => true
  | .jtagTrst => true
  | .sysRstNRise => true
  | .perstNRelease => true
  | .hostLinkStateChange _ _ _ rate => decide (rate < 7)
  | .connectionNumberReuse conn => decide (conn < 2097152)
  | .ptpDelayReq port _ => decide (port < 8)
  | .roceRetryTimeout conn _ => decide (conn < 2097152)
  | .avsTargetSeen _ => true

end Sys2Proof
end

