-- ==== Sys2Proof/Tests/Slice0.lean ====
section
/-! SUPPORT. Tests. -/

namespace Sys2Proof.Tests
theorem test_idle : (match Sys2Proof.Machine.step Sys2Proof.Machine.State.reset with | .next s => s.pending == [] | _ => false) = true := by decide
end Sys2Proof.Tests
end

section
/-! PROOFS. Acceptance of a descriptor of the command table: what it leaves in the ring and in the list of work (R365,
R366), and the two ways in which an expected descriptor of a served ring is accepted (refused at once, or run). -/

namespace Sys2Proof.Machine

/-! ### What a class count leaves as it was -/

@[simp] theorem State.classBump_host (s : State) (f c i n : Nat) : (s.classBump f c i n).host = s.host := by
  unfold State.classBump; split <;> rfl
@[simp] theorem State.classBump_watches (s : State) (f c i n : Nat) :
    (s.classBump f c i n).obs.watches = s.obs.watches := by
  unfold State.classBump; split <;> rfl

/-! ### Rings and work after an acceptance -/

/-- A served ring is one of its function's rings: what stands for a ring that does not exist is disabled. -/
theorem State.lt_rings_of_ringServed {s : State} {f r : Nat} (h : s.ringServed f r = true) :
    r < (s.fn f).rings.length := by
  by_contra hr
  have hreset : s.ring f r = ringReset := by simp [State.ring, List.getD_eq_getElem?_getD, not_lt.1 hr]
  simp [State.ringServed, hreset, ringReset] at h

theorem State.ring_of_host {s t : State} (h : t.host = s.host) (f r : Nat) : t.ring f r = s.ring f r := by
  simp only [State.ring, State.fn, h]

theorem State.workAt_of_host {s t : State} (h : t.host = s.host) (f r : Nat) (q : Word64) :
    t.workAt f r q = s.workAt f r q := by
  simp only [State.workAt, h]

@[simp] theorem State.ringAccepts_work (s : State) (d : Desc) : (s.ringAccepts d).host.work = s.host.work := rfl
@[simp] theorem State.ringAccepts_obs (s : State) (d : Desc) : (s.ringAccepts d).obs = s.obs := rfl

@[simp] theorem State.acceptWork_watches (s : State) (d : Desc) (op slots : Nat) (started : Bool) (ended : Option Comp) :
    (s.acceptWork d op slots started ended).obs.watches = s.obs.watches := by
  simp [State.acceptWork]

theorem State.acceptWork_fns (s : State) (d : Desc) (op slots : Nat) (started : Bool) (ended : Option Comp) :
    (s.acceptWork d op slots started ended).host.fns = (s.ringAccepts d).host.fns := by
  simp [State.acceptWork]

/-- The ring of an accepted descriptor stands after it (R366). -/
theorem State.ring_acceptWork {s : State} {d : Desc} (h : s.ringServed d.fn d.ring = true) (op slots : Nat)
    (started : Bool) (ended : Option Comp) :
    (s.acceptWork d op slots started ended).ring d.fn d.ring = { s.ring d.fn d.ring with
      sqHead := (d.idx + 1) % 2 ^ field (s.ring d.fn d.ring).cfg.toNat 16 5, nextSeq := d.seq + 1, acceptSeq := d.seq
      acceptIdx := (d.idx + 1) % 2 ^ field (s.ring d.fn d.ring).cfg.toNat 16 5, dirty := true } := by
  have hring : (s.acceptWork d op slots started ended).ring d.fn d.ring = (s.ringAccepts d).ring d.fn d.ring := by
    simp only [State.ring, State.fn, State.acceptWork_fns]
  rw [hring]
  exact State.ring_setRing _ (State.lt_rings_of_ringServed h)

/-- The work of a descriptor that had none is the one that its acceptance lists. -/
theorem State.workAt_acceptWork {s : State} {d : Desc} (h : s.workAt d.fn d.ring d.seq = none) (op slots : Nat)
    (started : Bool) (ended : Option Comp) :
    ∃ w, (s.acceptWork d op slots started ended).workAt d.fn d.ring d.seq = some w ∧ w.opcode = op ∧
      w.words = d.words ∧ w.cls = d.cls ∧ w.admitTick = s.tick.count ∧ w.started = started ∧
      w.done.map Comp.status = ended.map Comp.status := by
  have hold : s.host.work.find? (fun w => w.fn == d.fn && w.ring == d.ring && w.seq == d.seq) = none := h
  simp only [State.workAt, State.acceptWork, State.classBump_host, State.ringAccepts_work, List.find?_append, hold,
    Option.none_or]
  simp [Function.comp_def]

/-- Listing the work of a descriptor as started, and moving its ring past it, is what acceptance is. -/
theorem State.acceptWork_accepted {s : State} {d : Desc} (hnew : s.workAt d.fn d.ring d.seq = none)
    (hserved : s.ringServed d.fn d.ring = true) (op slots : Nat) (ended : Option Comp) :
    Accepted s (s.acceptWork d op slots true ended) d op := by
  obtain ⟨w, hat, hop, hwords, hcls, htick, hstarted, -⟩ := State.workAt_acceptWork hnew op slots true ended
  exact ⟨State.ring_acceptWork hserved op slots true ended, w, hat, hop, hwords, hcls, htick, hstarted⟩

/-- Work that is listed as ended has ended with the status given. -/
theorem State.acceptWork_endedWith {s : State} {d : Desc} (hnew : s.workAt d.fn d.ring d.seq = none) (op slots : Nat)
    (started : Bool) (c : Comp) : (s.acceptWork d op slots started (some c)).endedWith d c.status := by
  obtain ⟨w, hat, -, -, -, -, -, hdone⟩ := State.workAt_acceptWork hnew op slots started (some c)
  obtain ⟨c', hc', hstatus⟩ := Option.map_eq_some_iff.1 hdone
  exact ⟨w, c', hat, hc', hstatus⟩

/-- Acceptance speaks of the host interface only, so what runs outside it keeps a descriptor accepted. -/
theorem Accepted.of_host {s t u : State} {d : Desc} {op : Nat} (h : Accepted s t d op) (hhost : u.host = t.host) :
    Accepted s u d op := by
  obtain ⟨hring, w, hat, hw⟩ := h
  exact ⟨(State.ring_of_host hhost _ _).trans hring, w, (State.workAt_of_host hhost _ _ _).trans hat, hw⟩

/-! ### The row of an expected descriptor -/

/-- An expected descriptor of a served ring whose form or content is refused is accepted and ended with the status of the
refusal, and its body does not run. -/
theorem State.runDesc_refused {s : State} {d : Desc} {op status : Nat} {check : State → Desc → Option Nat}
    (hnew : s.workAt d.fn d.ring d.seq = none) (hserved : s.ringServed d.fn d.ring = true)
    (hseq : d.seq = (s.ring d.fn d.ring).nextSeq) (hadmin : s.adminDone d = false)
    (hrefused : formCheck d op = some status ∨ formCheck d op = none ∧ check s d = some status)
    (need : State → Desc → Nat) (body : State → Desc → State) :
    s.runDesc d op check need body = s.acceptWork d op 0 true (some (compOf status)) := by
  obtain hform | ⟨hform, hcheck⟩ := hrefused
  · simp [State.runDesc, State.admitDesc, hnew, hserved, ← hseq, hadmin, hform]
  · simp [State.runDesc, State.admitDesc, hnew, hserved, ← hseq, hadmin, hform, hcheck]

theorem State.takes_iff {s : State} {d : Desc} {op need : Nat} {check : State → Desc → Option Nat} :
    s.takes d op check need = true ↔
      s.workAt d.fn d.ring d.seq = none ∧ s.ringServed d.fn d.ring = true ∧ d.seq = (s.ring d.fn d.ring).nextSeq ∧
        formCheck d op = none ∧ check s d = none ∧ s.adminDone d = false ∧ s.canAdmit d.fn d.cls need = true := by
  simp only [State.takes, Bool.and_assoc, Bool.and_eq_true, Option.isNone_iff_eq_none, beq_iff_eq, Bool.not_eq_true']

/-- A descriptor that can be accepted and run is accepted, with its slots, and its body runs on the state after that. -/
theorem State.runDesc_takes {s : State} {d : Desc} {op : Nat} {check : State → Desc → Option Nat}
    {need : State → Desc → Nat} (htakes : s.takes d op check (need s d) = true) (body : State → Desc → State) :
    s.runDesc d op check need body =
      body (s.acceptWork d op (if classHasSlots d.cls then need s d else 0) true none) d := by
  obtain ⟨hnew, hserved, hseq, hform, hcheck, hadmin, hadmit⟩ := State.takes_iff.1 htakes
  simp [State.runDesc, State.admitDesc, hnew, hserved, ← hseq, hadmin, hform, hcheck, hadmit]

end Sys2Proof.Machine
end

section
/-! PROOFS. R22: the tiles that a DUMP watch needs and a DIGEST watch does not. -/

namespace Sys2Proof.Machine

/-- The tiles that a function is composed with: none, for a function without an entry. -/
def State.composedTiles (s : State) (f : Nat) : Nat := match s.compEntry f with | some e => entTiles e | none => 0

/-! ### The checks of a WATCH -/

section
variable {s : State} {d : Desc} (hform : watchForm s d = true)
  (hmine : (s.obs.watches.filter fun w => w.fn == d.fn).length < 64) (hall : s.obs.watches.length < 1024)
include hform hmine hall

/-- R22: a DUMP from a function composed with fewer than 1,024 tiles is refused. -/
theorem watchCheck_dump_of_few_tiles (hdump : waForm d = 1) (htiles : s.composedTiles d.fn < 1024) :
    watchCheck s d = some stNotPermitted := by
  unfold watchCheck
  rw [if_neg (by simp [hform]), if_neg (by simp [hmine, hall]), if_pos]
  exact Bool.and_eq_true_iff.2 ⟨beq_iff_eq.2 hdump, decide_eq_true htiles⟩

/-- R22: a DIGEST of a step's tensor passes, whatever the tiles of its function. -/
theorem watchCheck_step_digest (hdigest : waForm d = 0) (hstep : waTick d = false) : watchCheck s d = none := by
  simp [watchCheck, hform, hmine, hall, hdigest, hstep]

end

/-! ### The body of a WATCH -/

/-- The watch that a WATCH descriptor asks for, not armed yet. -/
def watchOf (d : Desc) : Watch :=
  { fn := d.fn, ring := d.ring, seq := d.seq, armed := false, dump := waForm d == 1, atTick := waTick d, tRing := waRing d
    tensor := waTensor d, object := waObject d, target := BitVec.ofNat 64 (d.w 2), first := field (d.w 3) 32 32
    count := field (d.w 3) 0 32, raddr := d.w 4, daddr := d.w 5, dlen := field (d.w 6) 32 32, dumping := none }

@[simp] theorem watchBody_host (s : State) (d : Desc) : (watchBody s d).host = s.host := rfl
@[simp] theorem watchBody_watches (s : State) (d : Desc) :
    (watchBody s d).obs.watches = s.obs.watches ++ [watchOf d] := rfl

theorem exec_watch (d : Desc) (s : State) :
    exec (.watch d) s = .next (s.runDesc d 0x30 watchCheck oneSlot watchBody) := rfl

/-- A WATCH that its checks refuse is accepted, ends with the status of the refusal and makes no watch. -/
theorem exec_watch_refused {s : State} {d : Desc} {status : Nat} (hnew : s.workAt d.fn d.ring d.seq = none)
    (hserved : s.ringServed d.fn d.ring = true) (hseq : d.seq = (s.ring d.fn d.ring).nextSeq)
    (hadmin : s.adminDone d = false) (hform : formCheck d 0x30 = none) (hcheck : watchCheck s d = some status) :
    ∃ t, exec (.watch d) s = .next t ∧ Accepted s t d 0x30 ∧ t.endedWith d status ∧ t.obs.watches = s.obs.watches := by
  refine ⟨s.acceptWork d 0x30 0 true (some (compOf status)), ?_, State.acceptWork_accepted hnew hserved _ _ _,
    State.acceptWork_endedWith hnew _ _ _ _, State.acceptWork_watches ..⟩
  rw [exec_watch, State.runDesc_refused hnew hserved hseq hadmin (.inr ⟨hform, hcheck⟩)]

/-- A WATCH that can be accepted and run is accepted, and makes the watch that it asks for. -/
theorem exec_watch_takes {s : State} {d : Desc} (htakes : s.takes d 0x30 watchCheck 1 = true) :
    ∃ t, exec (.watch d) s = .next t ∧ Accepted s t d 0x30 ∧ t.obs.watches = s.obs.watches ++ [watchOf d] := by
  obtain ⟨hnew, hserved, -⟩ := State.takes_iff.1 htakes
  refine ⟨_, (exec_watch d s).trans (congrArg _ (State.runDesc_takes (need := oneSlot) htakes _)), ?_, by simp⟩
  exact (State.acceptWork_accepted hnew hserved ..).of_host (watchBody_host ..)

end Sys2Proof.Machine

open Sys2Proof Sys2Proof.Machine

/-- Settles O44: the check of a WATCH refuses the DUMP of few tiles and passes the DIGEST of a step's tensor; the row of
the descriptor gives the rest. -/
theorem dumpNeedsTiles : Obligations.DumpNeedsTiles := by
  unfold Obligations.DumpNeedsTiles
  intro s d hnew hserved hseq hadmin hform hwatch hmine hall hadmit
  constructor
  · intro hdump htiles
    exact exec_watch_refused hnew hserved hseq hadmin hform
      (watchCheck_dump_of_few_tiles hwatch hmine hall hdump htiles)
  · intro hdigest hstep
    have hcheck : watchCheck s d = none := watchCheck_step_digest hwatch hmine hall hdigest hstep
    obtain ⟨t, hexec, haccepted, hwatches⟩ :=
      exec_watch_takes (State.takes_iff.2 ⟨hnew, hserved, hseq, hform, hcheck, hadmin, hadmit⟩)
    have hnodump : (watchOf d).dump = false := by simp [watchOf, waForm, hdigest]
    exact ⟨t, watchOf d, hexec, haccepted, hwatches, rfl, hnodump⟩

/-! ### Witnesses: a node that meets the hypotheses, at the boundary of 1,024 tiles -/

namespace Sys2Proof.Machine

/-- A running node, at reset otherwise, whose function 0 is composed with a number of tiles and has ring 1 enabled. -/
def watcherState (tiles : Nat) : State :=
  { State.reset with
    power := { State.reset.power with step := 9 }
    host := { State.reset.host with
      fns := [{ fnReset 0 with rings := (fnReset 0).rings.set 1 { ringReset with state := .enabled, nextSeq := 1 } }]
      comp := { State.reset.host.comp with
        record := some (wordsBytes [1] ++ List.replicate 312 0 ++ wordsBytes [word [(32, 13, tiles)]]) } } }

/-- A WATCH of tensor 1 of the next descriptor of its ring, as a DIGEST (`form` 0) or a DUMP (`form` 1). -/
def stepWatch (form : Nat) : Desc :=
  { fn := 0, ring := 1, idx := 0
    words := [1, word [(56, 8, 0x30), (46, 2, form), (42, 3, 1), (32, 8, 1)], 2, 0, 0, 0, 0, 0] }

theorem composedTiles_watcherState :
    (watcherState 1023).composedTiles 0 = 1023 ∧ (watcherState 1024).composedTiles 0 = 1024 := by decide

/-- At 1,023 tiles a DUMP is refused. -/
theorem stepWatch_dump_refused_at_1023 :
    ∃ t, exec (.watch (stepWatch 1)) (watcherState 1023) = .next t ∧ t.endedWith (stepWatch 1) stNotPermitted ∧
      t.obs.watches = [] := by
  obtain ⟨hdump, -⟩ := dumpNeedsTiles (watcherState 1023) (stepWatch 1) (by decide) (by decide) (by decide) (by decide)
    (by decide) (by decide) (by decide) (by decide) (by decide)
  obtain ⟨t, hexec, -, hended, hwatches⟩ := hdump (by decide) (by decide)
  exact ⟨t, hexec, hended, hwatches⟩

/-- At 1,024 tiles a DUMP is admitted. -/
theorem stepWatch_dump_accepted_at_1024 :
    ∃ t, exec (.watch (stepWatch 1)) (watcherState 1024) = .next t ∧ t.obs.watches = [watchOf (stepWatch 1)] := by
  obtain ⟨t, hexec, -, hwatches⟩ := exec_watch_takes (s := watcherState 1024) (d := stepWatch 1) (by decide)
  exact ⟨t, hexec, hwatches⟩

/-- At 1,023 tiles a DIGEST is admitted. -/
theorem stepWatch_digest_accepted_at_1023 :
    ∃ t w, exec (.watch (stepWatch 0)) (watcherState 1023) = .next t ∧ t.obs.watches = [w] ∧ w.dump = false := by
  obtain ⟨-, hdigest⟩ := dumpNeedsTiles (watcherState 1023) (stepWatch 0) (by decide) (by decide) (by decide) (by decide)
    (by decide) (by decide) (by decide) (by decide) (by decide)
  obtain ⟨t, w, hexec, -, hwatches, -, hdump⟩ := hdigest (by decide) (by decide)
  exact ⟨t, w, hexec, hwatches, hdump⟩

end Sys2Proof.Machine
end

section
/-! PROOFS. R67: the rows of INT4 elements, by the model's own reading of one nibble (`nibbleAt`). A packed row holds each
code in its nibble and 0 beyond the last; a row is read nibble by nibble. -/

namespace Sys2Proof.Machine

/-! ### One nibble of a row's bytes -/

theorem natAt_one (bs : List Byte) (i : Nat) : natAt bs i 1 = (bs.getD i 0).toNat := by
  rcases h : bs.drop i with _ | ⟨b, r⟩
  · have hi : bs.length ≤ i := List.drop_eq_nil_iff.1 h
    simp [natAt, bytesAt, leNat, h, hi]
  · have hi : bs[i]? = some b := by rw [← List.head?_drop, h, List.head?_cons]
    simp [natAt, bytesAt, leNat, h, hi]

/-- The element of even place is in bits 3 to 0. -/
theorem nibbleAt_even (bs : List Byte) (i : Nat) : nibbleAt bs (2 * i) = (bs.getD i 0).toNat % 16 := by
  simp [nibbleAt]

/-- The element of odd place is in bits 7 to 4. -/
theorem nibbleAt_odd (bs : List Byte) (i : Nat) : nibbleAt bs (2 * i + 1) = (bs.getD i 0).toNat / 16 := by
  have hplace : (2 * i + 1) / 2 = i := by omega
  have hbyte : (bs.getD i 0).toNat / 16 < 16 := by have := (bs.getD i 0).isLt; omega
  simp only [nibbleAt, hplace]
  rw [if_pos (by omega), Nat.mod_eq_of_lt hbyte]

@[simp] theorem nibbleAt_cons_zero (b : Byte) (bs : List Byte) : nibbleAt (b :: bs) 0 = b.toNat % 16 :=
  nibbleAt_even (b :: bs) 0

@[simp] theorem nibbleAt_cons_one (b : Byte) (bs : List Byte) : nibbleAt (b :: bs) 1 = b.toNat / 16 :=
  nibbleAt_odd (b :: bs) 0

@[simp] theorem nibbleAt_cons_add_two (b : Byte) (bs : List Byte) (j : Nat) : nibbleAt (b :: bs) (j + 2) = nibbleAt bs j := by
  simp [nibbleAt]

@[simp] theorem nibbleAt_nil (j : Nat) : nibbleAt [] j = 0 := by simp [nibbleAt]

/-- A byte replaced by one with the same low nibble changes no nibble but its own high one. -/
theorem nibbleAt_set_of_low_eq {bs : List Byte} {k : Nat} {b : Byte} (hlow : b.toNat % 16 = (bs.getD k 0).toNat % 16)
    {i : Nat} (hi : i ≠ 2 * k + 1) : nibbleAt (bs.set k b) i = nibbleAt bs i := by
  by_cases hk : k = i / 2
  · obtain rfl : i = 2 * k := by omega
    rw [nibbleAt_even, nibbleAt_even]
    by_cases hlen : k < bs.length
    · simpa [hlen] using hlow
    · rw [List.set_eq_of_length_le (by omega)]
  · simp [nibbleAt, hk]

/-! ### Rows of INT4 elements -/

theorem rowBytes_int4 (n : Nat) : rowBytes 2 n = (n + 1) / 2 := by
  simp only [rowBytes, fmtBits, ceilDiv]
  omega

/-- A row is read nibble by nibble. -/
theorem rowCodes_int4 (n : Nat) (bs : List Byte) : rowCodes 2 n bs = (List.range n).map (nibbleAt bs) := by
  refine List.map_congr_left fun i _ => ?_
  obtain ⟨j, rfl | rfl⟩ := Nat.even_or_odd' i
  · simp [nibbleAt_even, natAt_one, field]
  · have hplace : (2 * j + 1) / 2 = j := by omega
    have hodd : (2 * j + 1) % 2 = 1 := by omega
    simp [nibbleAt, natAt_one, field, hplace, hodd, Nat.shiftRight_eq_div_pow]

@[simp] theorem packRow_int4_single (a : Nat) : packRow 2 [a] = [BitVec.ofNat 8 (a % 16)] := by
  simp [packRow]

@[simp] theorem packRow_int4_pair (a b : Nat) (r : List Nat) :
    packRow 2 (a :: b :: r) = BitVec.ofNat 8 (a % 16 + 16 * (b % 16)) :: packRow 2 r := by
  simp [packRow]

/-- A packed row is whole bytes, two codes to a byte. -/
theorem length_packRow_int4 : ∀ codes : List Nat, (packRow 2 codes).length = (codes.length + 1) / 2
  | [] => rfl
  | [_] => by simp
  | a :: b :: r => by
    simp only [packRow_int4_pair, List.length_cons, length_packRow_int4 r]
    omega

/-- The nibbles of a packed row are its codes; a nibble beyond the last is 0. -/
theorem nibbleAt_packRow : ∀ {codes : List Nat}, (∀ c ∈ codes, c < 16) → ∀ j : Nat,
    nibbleAt (packRow 2 codes) j = codes.getD j 0
  | [], _, j => nibbleAt_nil j
  | [a], h, j => by
    have ha : a < 16 := h a (by simp)
    have hbyte : (BitVec.ofNat 8 (a % 16)).toNat = a := by simp only [BitVec.toNat_ofNat]; omega
    match j with
    | 0 => simpa [hbyte] using ha
    | 1 => simpa [hbyte] using ha
    | j + 2 => simp
  | a :: b :: r, h, j => by
    have ha : a < 16 := h a (by simp)
    have hb : b < 16 := h b (by simp)
    have hr : ∀ c ∈ r, c < 16 := fun c hc => h c (by simp [hc])
    have hbyte : (BitVec.ofNat 8 (a % 16 + 16 * (b % 16))).toNat = a + 16 * b := by
      simp only [BitVec.toNat_ofNat]; omega
    match j with
    | 0 => simpa [hbyte] using ha
    | 1 => simp only [packRow_int4_pair, nibbleAt_cons_one, hbyte, List.getD_cons_succ, List.getD_cons_zero]; omega
    | j + 2 => simpa using nibbleAt_packRow hr j

end Sys2Proof.Machine

open Sys2Proof Sys2Proof.Machine

/-- Settles O45: each clause is about one nibble of the row, of a packed row (`nibbleAt_packRow`) or of one that is read
(`rowCodes_int4`). -/
theorem int4RowsArePacked : Obligations.Int4RowsArePacked := by
  unfold Obligations.Int4RowsArePacked
  refine ⟨fun codes hcodes => ⟨?_, fun i _ => ?_, fun i _ => ?_, fun i hodd => ?_⟩,
    fun n bs _ => ⟨fun i hi => ?_, fun b hodd hlow => ?_⟩⟩
  · rw [length_packRow_int4, rowBytes_int4]
  · rw [← nibbleAt_even, nibbleAt_packRow hcodes]
  · rw [← nibbleAt_odd, nibbleAt_packRow hcodes]
  · rw [← nibbleAt_odd, nibbleAt_packRow hcodes, List.getD_eq_default _ _ hodd.le]
  · simp only [rowCodes_int4, List.getElem?_map, List.getElem?_range hi, Option.map_some]
    obtain ⟨j, rfl | rfl⟩ := Nat.even_or_odd' i
    · simp [nibbleAt_even]
    · have hplace : (2 * j + 1) / 2 = j := by omega
      simp [nibbleAt_odd, hplace]
  · have hpadding : ∀ i ∈ List.range n, i ≠ 2 * (n / 2) + 1 := fun i hi => by
      have := List.mem_range.1 hi
      omega
    rw [rowCodes_int4, rowCodes_int4]
    exact List.map_congr_left fun i hi => nibbleAt_set_of_low_eq hlow (hpadding i hi)

/-! ### Witness: a row of three codes, whose last byte ends in padding -/

namespace Sys2Proof.Machine

/-- The row of the codes 5, 9 and 12 is two bytes, and its last high nibble is written 0. -/
theorem packRow_three_codes :
    (packRow 2 [5, 9, 12]).length = 2 ∧ ((packRow 2 [5, 9, 12]).getD 1 0).toNat / 16 = 0 := by
  obtain ⟨hlength, -, -, hpadding⟩ := int4RowsArePacked.1 [5, 9, 12] (by decide)
  exact ⟨hlength, hpadding 1 rfl⟩

/-- The row of three codes is read the same when its padding is all ones. -/
theorem rowCodes_three_ignores_padding : rowCodes 2 3 [0x95, 0xFC] = [5, 9, 12] := by
  obtain ⟨-, hignored⟩ := int4RowsArePacked.2 3 [0x95, 0x0C] (by decide)
  exact (hignored 0xFC (by decide) (by decide)).trans (by decide)

end Sys2Proof.Machine
end

section
/-! PROOFS. R157: the byte-wise reflected CRC of the model is the bit-serial CRC of the same polynomial with the remainder
mirrored. Two simulations, each one bit at a time: a byte added to the remainder at once is its bits added one by one
(`foldl_reflBit_bits`), and a reflected step is the mirror image of an unreflected one (`mirror_crcBit`). -/

namespace Sys2Proof.Machine

/-! ### The mirror image of a remainder -/

/-- The lowest `n` bits of a remainder in reversed order. -/
def mirror (n c : Nat) : Nat := Nat.ofBits fun i : Fin n => c.testBit (n - 1 - i)

@[simp] theorem testBit_mirror (n c i : Nat) :
    (mirror n c).testBit i = (decide (i < n) && c.testBit (n - 1 - i)) := by
  by_cases hi : i < n <;> simp [mirror, Nat.testBit_ofBits, hi]

/-- Bits weighted from the highest down are a number whose bits are read backwards. -/
theorem sum_highest_first_eq_ofBits (f : Nat → Bool) : ∀ n : Nat,
    ((List.range n).map fun i => if f i then 2 ^ (n - 1 - i) else 0).sum = Nat.ofBits fun i : Fin n => f (n - 1 - i)
  | 0 => rfl
  | n + 1 => by
    have hdouble : ∀ i ∈ List.range n,
        (if f i then 2 ^ (n - i) else 0) = 2 * if f i then 2 ^ (n - 1 - i) else 0 := fun i hi => by
      have hweight : n - i = n - 1 - i + 1 := by have := List.mem_range.1 hi; omega
      simp [hweight, pow_succ, mul_comm]
    have htail : (fun i : Fin n => f (n - 1 - i)) = (fun i : Fin (n + 1) => f (n - i)) ∘ Fin.succ :=
      funext fun i => congrArg f (by simp only [Fin.val_succ]; omega)
    simp only [Nat.add_sub_cancel, List.range_succ, List.map_append, List.sum_append, List.map_congr_left hdouble,
      List.sum_map_mul_left, sum_highest_first_eq_ofBits f n, Nat.ofBits_succ, htail]
    cases h : f n <;> simp [h]

theorem mirror_xor (n a b : Nat) : mirror n (a ^^^ b) = mirror n a ^^^ mirror n b :=
  Nat.eq_of_testBit_eq fun i => by by_cases hi : i < n <;> simp [hi]

/-- Mirrored, a shift up that drops the highest bit is a shift down. -/
theorem mirror_shift (n c : Nat) : mirror n (c * 2 % 2 ^ n) = mirror n c / 2 :=
  Nat.eq_of_testBit_eq fun i => by
    rw [← Nat.testBit_succ, testBit_mirror, testBit_mirror, Nat.testBit_mod_two_pow]
    by_cases hi : i + 1 < n
    · have hplace : n - 1 - i = n - 1 - (i + 1) + 1 := by omega
      have hin : i < n ∧ n - 1 - (i + 1) + 1 < n := by omega
      rw [hplace, Nat.testBit_succ, Nat.mul_div_cancel _ two_pos]
      simp [hi, hin]
    · have hlast : n - 1 - i = 0 := by omega
      simp [hi, hlast]

/-! ### One bit of a reflected CRC -/

/-- One bit of an LSB-first (reflected) CRC with reflected polynomial `poly`. -/
def reflBit (poly c : Nat) (b : Bool) : Nat := if c.testBit 0 != b then c / 2 ^^^ poly else c / 2

/-- A reflected step is the mirror image of an unreflected one. -/
theorem mirror_crcBit {n : Nat} (hn : 0 < n) (poly c : Nat) (b : Bool) :
    mirror n (crcBit n poly c b) = reflBit (mirror n poly) (mirror n c) b := by
  have htop : (mirror n c).testBit 0 = c.testBit (n - 1) := by
    rw [testBit_mirror, decide_eq_true hn, Bool.true_and, Nat.sub_zero]
  rw [crcBit, reflBit, htop, apply_ite (mirror n), mirror_xor, mirror_shift]

theorem mirror_foldl_crcBit {n : Nat} (hn : 0 < n) (poly c : Nat) (bits : List Bool) :
    mirror n (bits.foldl (crcBit n poly) c) = bits.foldl (reflBit (mirror n poly)) (mirror n c) :=
  (List.foldl_hom (mirror n) fun c b => (mirror_crcBit hn poly c b).symm).symm

/-- The lowest bit of a value that is still to be added enters with the step, the others wait one place lower. -/
theorem reflBit_xor_false (poly c v : Nat) :
    reflBit poly (c ^^^ v) false = reflBit poly c (v.testBit 0) ^^^ v / 2 := by
  have hhalf : (c ^^^ v) / 2 = c / 2 ^^^ v / 2 := Nat.xor_div_two
  simp only [reflBit, Nat.testBit_xor, Bool.bne_false, hhalf]
  split
  · exact Nat.xor_right_comm ..
  · rfl

/-- A value of `n` bits added at once is its bits added one by one, from the lowest up. -/
theorem foldl_reflBit_bits (poly : Nat) : ∀ (n c v : Nat), v < 2 ^ n →
    (List.range n).foldl (fun a _ => reflBit poly a false) (c ^^^ v) =
      ((List.range n).map v.testBit).foldl (reflBit poly) c
  | 0, c, v, hv => by
    obtain rfl : v = 0 := by simpa using hv
    simp
  | n + 1, c, v, hv => by
    have hhalf : v / 2 < 2 ^ n := by rw [pow_succ] at hv; omega
    have ih := foldl_reflBit_bits poly n (reflBit poly c (v.testBit 0)) (v / 2) hhalf
    simpa [List.range_succ_eq_map, List.foldl_map, reflBit_xor_false, Nat.testBit_succ] using ih

/-- A byte's eight bits, from the lowest up. -/
theorem crcReflByte_eq_foldl_bits (poly c : Nat) (b : Byte) :
    crcReflByte poly c b = ((List.range 8).map fun k => b.toNat.testBit k).foldl (reflBit poly) c := by
  have hstep : (fun (a : Nat) (_ : Nat) => if a % 2 = 1 then a / 2 ^^^ poly else a / 2) =
      fun a _ => reflBit poly a false := by
    funext a _
    simp [reflBit]
  rw [crcReflByte, hstep, foldl_reflBit_bits poly 8 c b.toNat b.isLt]

theorem foldl_crcReflByte (poly : Nat) (bs : List Byte) (c : Nat) :
    bs.foldl (crcReflByte poly) c =
      (bs.flatMap fun b => (List.range 8).map fun k => b.toNat.testBit k).foldl (reflBit poly) c := by
  rw [List.foldl_flatMap]
  exact congrArg (fun step => bs.foldl step c) (funext₂ (crcReflByte_eq_foldl_bits poly))

/-! ### The CRC-32C -/

/-- 0x82F63B78 is the Castagnoli polynomial, mirrored. -/
theorem mirror_castagnoli : mirror 32 0x1EDC6F41 = 0x82F63B78 := by decide

theorem mirror_all_ones : mirror 32 0xFFFFFFFF = 0xFFFFFFFF := by decide

theorem crc32c_eq_mirror (bs : List Byte) :
    crc32c bs = mirror 32 ((bs.flatMap fun b => (List.range 8).map fun k => b.toNat.testBit k).foldl
      (crcBit 32 0x1EDC6F41) 0xFFFFFFFF) ^^^ 0xFFFFFFFF := by
  rw [crc32c, foldl_crcReflByte, mirror_foldl_crcBit (by decide), mirror_castagnoli, mirror_all_ones]

/-- The nine bytes of "123456789", run step by step. -/
theorem crc32c_check_value : crc32c [0x31, 0x32, 0x33, 0x34, 0x35, 0x36, 0x37, 0x38, 0x39] = 0xE3069283 := by
  simp [crc32c, crcReflByte, List.range_succ]

end Sys2Proof.Machine

open Sys2Proof Sys2Proof.Machine

/-- Settles O46: the first clause is `crc32c_eq_mirror` with the mirror image written as a sum of weights
(`sum_highest_first_eq_ofBits`), the second is `crc32c_check_value`. -/
theorem crc32cIsCastagnoli : Obligations.Crc32cIsCastagnoli := by
  unfold Obligations.Crc32cIsCastagnoli
  refine ⟨fun bs => ?_, crc32c_check_value⟩
  rw [crc32c_eq_mirror, mirror, ← sum_highest_first_eq_ofBits]
end

section
/-! PROOFS. What every command leaves as it was (the frame of each command, from `Laws/`, put together), and what
follows from it for the memories, the queue, TICK and the life cycle. -/

namespace Sys2Proof.Machine

/-! ### The frame of a command -/

/-- A claim with one premise for each area of a list: that the area may change. -/
def IfAllChange (w : Area → Bool) (p : Prop) : List Area → Prop
  | [] => p
  | a :: l => w a = true → IfAllChange w p l

theorem IfAllChange.nil {w : Area → Bool} {p : Prop} (h : p) : IfAllChange w p [] := h

theorem IfAllChange.cons {w : Area → Bool} {p : Prop} {a : Area} {l : List Area} (h : w a = true → IfAllChange w p l) :
    IfAllChange w p (a :: l) := h

theorem IfAllChange.elim {w : Area → Bool} {p : Prop} :
    ∀ {l : List Area}, IfAllChange w p l → (∀ a ∈ l, w a = true) → p
  | [], h, _ => h
  | a :: _, h, hall => (h (hall a List.mem_cons_self)).elim fun b hb => hall b (List.mem_cons_of_mem a hb)

theorem exec_burrowSlotStart (i k : Nat) (s : State) :
    exec (.burrowSlotStart i k) s = execBurrowSlotStart i k s := rfl

theorem exec_egressFrameStart (p off : Nat) (s : State) :
    exec (.egressFrameStart p off) s = execEgressFrameStart p off s := rfl

/-- The laws of the commands' meanings, command by command: `touches` lists the premises of each. -/
theorem exec_kept_of_touches (w : Area → Bool) (s : State) (c : Instr) :
    IfAllChange w (KeptR w s (exec c s)) (touches c) := by
  cases c with
  | tickEdge => exact kept_execTickEdge (.refl s)
  | quarantineEnd => exact kept_execQuarantineEnd (.refl s)
  | rmaQuarantineEnd => exact kept_execRmaQuarantineEnd (.refl s)
  | ingestStart => exact kept_execIngestStart (.refl s)
  | ingestEnd => exact kept_execIngestEnd (.refl s)
  | guardPhaseStart => exact kept_execGuardPhaseStart (.refl s)
  | egressWindowStart => exact kept_execEgressWindowStart (.refl s)
  | completionWrite => exact kept_execCompletionWrite (.refl s)
  | exchangeWindowBClose => exact kept_execExchangeWindowBClose (.refl s)
  | tickLineFrame => exact kept_execTickLineFrame (.refl s)
  | lineLockLost => exact kept_execLineLockLost (.refl s)
  | rootEdgeAnnounce => exact kept_execRootEdgeAnnounce (.refl s)
  | ppsPulse => exact kept_execPpsPulse (.refl s)
  | beaconReceived => exact kept_execBeaconReceived (.refl s)
  | beaconLost => exact kept_execBeaconLost (.refl s)
  | sourceSwitchBack => exact kept_execSourceSwitchBack (.refl s)
  | holdoverNotAligned => exact kept_execHoldoverNotAligned (.refl s)
  | holdoverEnd => exact kept_execHoldoverEnd (.refl s)
  | ptpSync => exact kept_execPtpSync (.refl s)
  | ptpFollowUp => exact kept_execPtpFollowUp (.refl s)
  | ptpAnnounce => exact kept_execPtpAnnounce (.refl s)
  | ptpDelayResp => exact kept_execPtpDelayResp (.refl s)
  | ptpLockLost => exact kept_execPtpLockLost (.refl s)
  | planValidationDone => exact kept_execPlanValidationDone (.refl s)
  | matmul => exact kept_execMatmul (.refl s)
  | dist => exact kept_execDist (.refl s)
  | lutb => exact kept_execLutb (.refl s)
  | scan => exact kept_execScan (.refl s)
  | filter => exact kept_execFilter (.refl s)
  | quant => exact kept_execQuant (.refl s)
  | dqacc => exact kept_execDqacc (.refl s)
  | scaleRow => exact kept_execScaleRow (.refl s)
  | scaleScalar => exact kept_execScaleScalar (.refl s)
  | scaleNorm => exact kept_execScaleNorm (.refl s)
  | topkArray => exact kept_execTopkArray (.refl s)
  | topkRegister => exact kept_execTopkRegister (.refl s)
  | merge => exact kept_execMerge (.refl s)
  | tileGather => exact kept_execTileGather (.refl s)
  | reduce => exact kept_execReduce (.refl s)
  | copyLocal => exact kept_execCopyLocal (.refl s)
  | copyRemote => exact kept_execCopyRemote (.refl s)
  | remoteCopyLanding => exact kept_execRemoteCopyLanding (.refl s)
  | shload => exact kept_execShload (.refl s)
  | shstore => exact kept_execShstore (.refl s)
  | sheafCommit => exact kept_execSheafCommit (.refl s)
  | tileSignal => exact kept_execTileSignal (.refl s)
  | tileConsume => exact kept_execTileConsume (.refl s)
  | tileSet => exact kept_execTileSet (.refl s)
  | tileWait => exact kept_execTileWait (.refl s)
  | tileWaitConsume => exact kept_execTileWaitConsume (.refl s)
  | stileWaitSatisfied => exact kept_execStileWaitSatisfied (.refl s)
  | scoreboardRelease => exact kept_execScoreboardRelease (.refl s)
  | tileFault => exact kept_execTileFault (.refl s)
  | burrowSlotStart =>
    refine .cons fun hw => .nil ?_
    rw [exec_burrowSlotStart]
    with_reducible exact kept_execBurrowSlotStart (.refl s) hw
  | nextItem => exact kept_execNextItem (.refl s)
  | lutget => exact kept_execLutget (.refl s)
  | lutPullLanded => exact kept_execLutPullLanded (.refl s)
  | lutw => exact kept_execLutw (.refl s)
  | scanl => exact kept_execScanl (.refl s)
  | emit => exact kept_execEmit (.refl s)
  | gath => exact kept_execGath (.refl s)
  | rsub => exact kept_execRsub (.refl s)
  | sig => exact kept_execSig (.refl s)
  | waits => exact kept_execWaits (.refl s)
  | bcopy => exact kept_execBcopy (.refl s)
  | jump => exact kept_execJump (.refl s)
  | endSlot => exact kept_execEndSlot (.refl s)
  | throttleLevelChange => exact kept_execThrottleLevelChange (.refl s)
  | refreshRateChange => exact kept_execRefreshRateChange (.refl s)
  | warrenFault => exact kept_execWarrenFault (.refl s)
  | unitRefillComplete => exact kept_execUnitRefillComplete (.refl s)
  | sheafMoveStart => exact kept_execSheafMoveStart (.refl s)
  | sheafLanding => exact kept_execSheafLanding (.refl s)
  | sheafMoveDeadline => exact kept_execSheafMoveDeadline (.refl s)
  | search => exact kept_execSearch (.refl s)
  | shardQuery => exact kept_execShardQuery (.refl s)
  | shardResult => exact kept_execShardResult (.refl s)
  | flashReadIssue => exact kept_execFlashReadIssue (.refl s)
  | flashReadNotIssued => exact kept_execFlashReadNotIssued (.refl s)
  | flashReadReturn => exact kept_execFlashReadReturn (.refl s)
  | flashReadDeadline => exact kept_execFlashReadDeadline (.refl s)
  | flashReconstructDone => exact kept_execFlashReconstructDone (.refl s)
  | programDone => exact kept_execProgramDone (.refl s)
  | eraseDone => exact kept_execEraseDone (.refl s)
  | dieFailed => exact kept_execDieFailed (.refl s)
  | dieRetired => exact kept_execDieRetired (.refl s)
  | segmentAgeWarn => exact kept_execSegmentAgeWarn (.refl s)
  | segmentPastBound => exact kept_execSegmentPastBound (.refl s)
  | checkpoint => exact kept_execCheckpoint (.refl s)
  | rootPageWrite => exact kept_execRootPageWrite (.refl s)
  | flashReadServiceRequest => exact kept_execFlashReadServiceRequest (.refl s)
  | refillResponse => exact kept_execRefillResponse (.refl s)
  | select => exact kept_execSelect (.refl s)
  | gather => exact kept_execGather (.refl s)
  | pklookup => exact kept_execPklookup (.refl s)
  | exchangeRequest => exact kept_execExchangeRequest (.refl s)
  | exchangeResponse => exact kept_execExchangeResponse (.refl s)
  | insert => exact kept_execInsert (.refl s)
  | delete => exact kept_execDelete (.refl s)
  | load => exact kept_execLoad (.refl s)
  | rowwrite => exact kept_execRowwrite (.refl s)
  | rowdelete => exact kept_execRowdelete (.refl s)
  | replicationBatch => exact kept_execReplicationBatch (.refl s)
  | format => exact kept_execFormat (.refl s)
  | stileSignal => exact kept_execStileSignal (.refl s)
  | stileConsume => exact kept_execStileConsume (.refl s)
  | stileSet => exact kept_execStileSet (.refl s)
  | stileClearFlags => exact kept_execStileClearFlags (.refl s)
  | stileRead => exact kept_execStileRead (.refl s)
  | stileEccError => exact kept_execStileEccError (.refl s)
  | frameReceived => exact kept_execFrameReceived (.refl s)
  | pfcPauseReceived => exact kept_execPfcPauseReceived (.refl s)
  | pfcStorm => exact kept_execPfcStorm (.refl s)
  | pfcStormEnd => exact kept_execPfcStormEnd (.refl s)
  | laneFailure => exact kept_execLaneFailure (.refl s)
  | portDown => exact kept_execPortDown (.refl s)
  | portUp => exact kept_execPortUp (.refl s)
  | connect => exact kept_execConnect (.refl s)
  | connectAck => exact kept_execConnectAck (.refl s)
  | ludomWrite => exact kept_execLudomWrite (.refl s)
  | readReq => exact kept_execReadReq (.refl s)
  | readResp => exact kept_execReadResp (.refl s)
  | ludomAck => exact kept_execLudomAck (.refl s)
  | ludomNak => exact kept_execLudomNak (.refl s)
  | notReady => exact kept_execNotReady (.refl s)
  | ludomClose => exact kept_execLudomClose (.refl s)
  | ludomRtoExpiry => exact kept_execLudomRtoExpiry (.refl s)
  | nrWaitExpiry => exact kept_execNrWaitExpiry (.refl s)
  | batchAged => exact kept_execBatchAged (.refl s)
  | roceSend => exact kept_execRoceSend (.refl s)
  | rdmaWrite => exact kept_execRdmaWrite (.refl s)
  | rdmaWriteWithImmediate => exact kept_execRdmaWriteWithImmediate (.refl s)
  | rdmaRead => exact kept_execRdmaRead (.refl s)
  | fetchAdd => exact kept_execFetchAdd (.refl s)
  | cmpSwap => exact kept_execCmpSwap (.refl s)
  | roceAck => exact kept_execRoceAck (.refl s)
  | roceNak => exact kept_execRoceNak (.refl s)
  | rnrNak => exact kept_execRnrNak (.refl s)
  | udSend => exact kept_execUdSend (.refl s)
  | ceMark => exact kept_execCeMark (.refl s)
  | cnp => exact kept_execCnp (.refl s)
  | ceRateRecovery => exact kept_execCeRateRecovery (.refl s)
  | contextFetchDone => exact kept_execContextFetchDone (.refl s)
  | sysconnRetry => exact kept_execSysconnRetry (.refl s)
  | egressFrameStart =>
    refine .cons fun hf => .cons fun he => .nil ?_
    rw [exec_egressFrameStart]
    with_reducible exact kept_execEgressFrameStart (.refl s) hf he
  | shaperRefill => exact kept_execShaperRefill (.refl s)
  | policerRefill => exact kept_execPolicerRefill (.refl s)
  | gateOpen => exact kept_execGateOpen (.refl s)
  | gateClose => exact kept_execGateClose (.refl s)
  | scanRequest => exact kept_execScanRequest (.refl s)
  | scanResponse => exact kept_execScanResponse (.refl s)
  | nodeFault => exact kept_execNodeFault (.refl s)
  | rejoinWindowExpiry => exact kept_execRejoinWindowExpiry (.refl s)
  | seedComplete => exact kept_execSeedComplete (.refl s)
  | sqTailDoorbell => exact kept_execSqTailDoorbell (.refl s)
  | cqHeadDoorbell => exact kept_execCqHeadDoorbell (.refl s)
  | evHeadDoorbell => exact kept_execEvHeadDoorbell (.refl s)
  | rxTailDoorbell => exact kept_execRxTailDoorbell (.refl s)
  | ringCfgWrite => exact kept_execRingCfgWrite (.refl s)
  | hostReadFail => exact kept_execHostReadFail (.refl s)
  | eventRecordWrite => exact kept_execEventRecordWrite (.refl s)
  | beginTxn => exact kept_execBeginTxn (.refl s)
  | setItem => exact kept_execSetItem (.refl s)
  | commit => exact kept_execCommit (.refl s)
  | rollback => exact kept_execRollback (.refl s)
  | planStage => exact kept_execPlanStage (.refl s)
  | connOpen => exact kept_execConnOpen (.refl s)
  | connClose => exact kept_execConnClose (.refl s)
  | quiesceOwn => exact kept_execQuiesceOwn (.refl s)
  | quiesceAll => exact kept_execQuiesceAll (.refl s)
  | quiesceRemote => exact kept_execQuiesceRemote (.refl s)
  | quiesceMessage => exact kept_execQuiesceMessage (.refl s)
  | resume => exact kept_execResume (.refl s)
  | watch => exact kept_execWatch (.refl s)
  | watchDumpDone => exact kept_execWatchDumpDone (.refl s)
  | compositionLoad => exact kept_execCompositionLoad (.refl s)
  | compositionCheckDone => exact kept_execCompositionCheckDone (.refl s)
  | flr => exact kept_execFlr (.refl s)
  | perstN => exact kept_execPerstN (.refl s)
  | pwrGoodRise => exact kept_execPwrGoodRise (.refl s)
  | pwrGoodFall => exact kept_execPwrGoodFall (.refl s)
  | supplyFault => exact kept_execSupplyFault (.refl s)
  | pllLockTimeout => exact kept_execPllLockTimeout (.refl s)
  | pllLockLoss => exact kept_execPllLockLoss (.refl s)
  | avsChange => exact kept_execAvsChange (.refl s)
  | avsLate => exact kept_execAvsLate (.refl s)
  | dieWarn => exact kept_execDieWarn (.refl s)
  | dieWarnEnd => exact kept_execDieWarnEnd (.refl s)
  | thermalTrip => exact kept_execThermalTrip (.refl s)
  | coldReset => exact kept_execColdReset (.refl s)
  | warmReset => exact kept_execWarmReset (.refl s)
  | bootStepComplete => exact kept_execBootStepComplete (.refl s)
  | shepherdSolo => exact kept_execShepherdSolo (.refl s)
  | fallowEnter => exact kept_execFallowEnter (.refl s)
  | wakeComplete => exact kept_execWakeComplete (.refl s)
  | bistCurrentSample => exact kept_execBistCurrentSample (.refl s)
  | bistComplete => exact kept_execBistComplete (.refl s)
  | toTest => exact kept_execToTest (.refl s)
  | toProvisioned => exact kept_execToProvisioned (.refl s)
  | toDeployed => exact kept_execToDeployed (.refl s)
  | toReturned => exact kept_execToReturned (.refl s)
  | toDead => exact kept_execToDead (.refl s)
  | lcEraseComplete => exact kept_execLcEraseComplete (.refl s)
  | countImageWrite => exact kept_execCountImageWrite (.refl s)
  | traceWrap => exact kept_execTraceWrap (.refl s)
  | traceStatusWrite => exact kept_execTraceStatusWrite (.refl s)
  | traceLostRecord => exact kept_execTraceLostRecord (.refl s)
  | readItem => exact kept_execReadItem (.refl s)
  | readPlan => exact kept_execReadPlan (.refl s)
  | readSpares => exact kept_execReadSpares (.refl s)
  | readSnapshots => exact kept_execReadSnapshots (.refl s)
  | mailboxCommandEnd => exact kept_execMailboxCommandEnd (.refl s)
  | smbusRead => exact kept_execSmbusRead (.refl s)
  | smbusWrite => exact kept_execSmbusWrite (.refl s)
  | dbMemDataRead => exact kept_execDbMemDataRead (.refl s)
  | dbMemDataWrite => exact kept_execDbMemDataWrite (.refl s)
  | rcRegisterRead => exact kept_execRcRegisterRead (.refl s)
  | registerWrite => exact kept_execRegisterWrite (.refl s)
  | jtagInstruction => exact kept_execJtagInstruction (.refl s)
  | jtagTrst => exact kept_execJtagTrst (.refl s)
  | sysRstNRise => exact kept_execSysRstNRise (.refl s)
  | perstNRelease => exact kept_execPerstNRelease (.refl s)
  | hostLinkStateChange => exact kept_execHostLinkStateChange (.refl s)
  | connectionNumberReuse => exact kept_execConnectionNumberReuse (.refl s)
  | ptpDelayReq => exact kept_execPtpDelayReq (.refl s)
  | roceRetryTimeout => exact kept_execRoceRetryTimeout (.refl s)
  | avsTargetSeen => exact kept_execAvsTargetSeen (.refl s)

theorem exec_kept (c : Instr) {s t : State} (h : exec c s = .next t) : Kept (fun a => decide (a ∈ touches c)) s t := by
  have hkept := (exec_kept_of_touches (fun a => decide (a ∈ touches c)) s c).elim fun a ha => decide_eq_true ha
  rwa [h] at hkept

/-! ### A step of the block -/

theorem step_of_pending_nil {s : State} (h : s.pending = []) : step s = .next s := by
  simp [step, h]

theorem step_of_pending_cons {s : State} {c : Instr} {rest : List Instr} (h : s.pending = c :: rest) :
    step s = exec c { s with pending := rest } := by
  simp [step, h]

/-- What a step can do: idle on an empty queue, or run the front command on the state with the queue's rest. -/
theorem step_cases {s t : State} (h : step s = .next t) :
    s.pending = [] ∧ t = s ∨ ∃ c rest, s.pending = c :: rest ∧ exec c { s with pending := rest } = .next t := by
  cases hp : s.pending with
  | nil =>
    rw [step_of_pending_nil hp] at h
    exact .inl ⟨rfl, (Host.Outcome.next.inj h).symm⟩
  | cons c rest => exact .inr ⟨c, rest, rfl, (step_of_pending_cons hp).symm.trans h⟩

/-- A step changes the state as its front command does, and leaves the rest of the queue. -/
theorem step_pending {s t : State} (h : step s = .next t) : t.pending = s.pending.tail := by
  obtain ⟨hp, rfl⟩ | ⟨c, rest, hp, hc⟩ := step_cases h
  · simp [hp]
  · simpa [hp] using (exec_kept c hc).pending

theorem State.memoryOk_iff {s : State} : s.memoryOk = true ↔ memWf s.t1 = true ∧ memWf s.hostMem = true := by
  simp [State.memoryOk]

theorem step_memoryOk {s t : State} (hok : s.memoryOk = true) (h : step s = .next t) : t.memoryOk = true := by
  obtain ⟨-, rfl⟩ | ⟨c, rest, -, hc⟩ := step_cases h
  · exact hok
  · obtain ⟨ht1, hhost⟩ := State.memoryOk_iff.1 hok
    have hkept := exec_kept c hc
    exact State.memoryOk_iff.2 ⟨hkept.wfT1 ht1, hkept.wfHost hhost⟩

end Sys2Proof.Machine

open Sys2Proof Sys2Proof.Machine

/-- Settles O1: the queue's two parts are what a step looks at. -/
theorem stepRunsFrontCommand : Obligations.StepRunsFrontCommand := fun _ _ _ => step_of_pending_cons rfl

/-- Settles O2: an empty queue idles, and no command touches the queue (`exec_kept`). -/
theorem queueIsFirstInFirstOut : Obligations.QueueIsFirstInFirstOut :=
  fun _ => ⟨step_of_pending_nil, fun _ => step_pending⟩

/-- Settles O3: each command's frame keeps both memories canonical, and a step runs one command or idles. -/
theorem stepKeepsMemoriesCanonical : Obligations.StepKeepsMemoriesCanonical :=
  fun _ _ => step_memoryOk

/-- Settles O4: the frames of the commands' meanings, command by command. -/
theorem commandsChangeOnlyTheirParts : Obligations.CommandsChangeOnlyTheirParts := fun c _ _ => exec_kept c

/-- Settles O6: both memories and the queue are empty at reset, and no fuse record waits. -/
theorem resetIsSound : Obligations.ResetIsSound := ⟨rfl, rfl, rfl⟩
end

section
/-! PROOFS. The life cycle moves only along Table BT-3 (R440–R443): what the commands that may move it do to its part of
the self-test state. -/

namespace Sys2Proof.Machine

/-- From a state whose fuse records are sound, the life cycle has stayed or moved along Table BT-3, and they are sound
still. -/
def SelfTest.Follows (t u : SelfTest) : Prop :=
  t.sound = true → u.sound = true ∧ (u.lc = t.lc ∨ LcState.next t.lc u.lc = true)

theorem SelfTest.sound_iff {t : SelfTest} : t.sound = true ↔
    (∀ l, t.nextLc = some l → t.lc = .blank ∧ l = .test) ∧
      ∀ l, t.eraseTo = some l → (t.lc = .provisioned ∨ t.lc = .deployed) ∧ (l = .returned ∨ l = .dead) := by
  cases hn : t.nextLc <;> cases he : t.eraseTo <;> simp [SelfTest.sound, hn, he]

theorem SelfTest.nextLc_of_sound {t : SelfTest} (hs : t.sound = true) (hlc : t.lc ≠ .blank) : t.nextLc = none :=
  Option.eq_none_iff_forall_ne_some.2 fun l hl => hlc ((SelfTest.sound_iff.1 hs).1 l hl).1

theorem SelfTest.eraseTo_of_sound {t : SelfTest} (hs : t.sound = true) (hprov : t.lc ≠ .provisioned)
    (hdepl : t.lc ≠ .deployed) : t.eraseTo = none :=
  Option.eq_none_iff_forall_ne_some.2 fun l hl => ((SelfTest.sound_iff.1 hs).2 l hl).1.elim hprov hdepl

theorem SelfTest.cycle_eq_iff {t u : SelfTest} : u.cycle = t.cycle ↔
    u.lc = t.lc ∧ u.nextLc = t.nextLc ∧ u.eraseTo = t.eraseTo ∧ u.erasePending = t.erasePending := by
  simp [SelfTest.cycle]

theorem SelfTest.sound_of_cycle_eq {t u : SelfTest} (h : u.cycle = t.cycle) : u.sound = t.sound := by
  obtain ⟨hlc, hnext, herase, -⟩ := SelfTest.cycle_eq_iff.1 h
  simp only [SelfTest.sound, hlc, hnext, herase]

theorem SelfTest.lc_of_cycle_eq {t u : SelfTest} (h : u.cycle = t.cycle) : u.lc = t.lc := (SelfTest.cycle_eq_iff.1 h).1

theorem SelfTest.Follows.of_cycle_eq {t u : SelfTest} (h : u.cycle = t.cycle) : t.Follows u :=
  fun hs => ⟨(SelfTest.sound_of_cycle_eq h).trans hs, .inl (SelfTest.lc_of_cycle_eq h)⟩

theorem SelfTest.Follows.trans_cycle_eq {t u v : SelfTest} (h : t.Follows u) (hv : v.cycle = u.cycle) :
    t.Follows v := by
  intro hs
  rw [SelfTest.sound_of_cycle_eq hv, SelfTest.lc_of_cycle_eq hv]
  exact h hs

/-! ### Moves of the life cycle -/

/-- A fuse that moves the life cycle out of a state in which nothing waits but, perhaps, the cold boot out of BLANK. -/
theorem SelfTest.Follows.of_move {t u : SelfTest} (hmove : t.sound = true → LcState.next t.lc u.lc = true)
    (hnext : t.sound = true → u.nextLc = none)
    (herase : t.sound = true → u.eraseTo = none ∨ u.eraseTo = t.eraseTo ∧ (u.lc = .provisioned ∨ u.lc = .deployed)) :
    t.Follows u := by
  intro hs
  refine ⟨SelfTest.sound_iff.2 ⟨by simp [hnext hs], fun l hl => ?_⟩, .inr (hmove hs)⟩
  obtain hnone | ⟨hsame, hlc⟩ := herase hs
  · simp [hnone] at hl
  · exact ⟨hlc, ((SelfTest.sound_iff.1 hs).2 l (hsame.symm.trans hl)).2⟩

/-- A cold boot takes the state that is fused for it. -/
theorem SelfTest.Follows.of_cold {t u : SelfTest} (hlc : u.lc = t.nextLc.getD t.lc) (hnext : u.nextLc = none)
    (herase : u.eraseTo = t.eraseTo) : t.Follows u := by
  intro hs
  cases hto : t.nextLc with
  | none =>
    have hsame : u.lc = t.lc := by simp [hlc, hto]
    refine ⟨SelfTest.sound_iff.2 ⟨by simp [hnext], ?_⟩, .inl hsame⟩
    simpa [hsame, herase] using (SelfTest.sound_iff.1 hs).2
  | some l =>
    obtain ⟨hblank, rfl⟩ := (SelfTest.sound_iff.1 hs).1 l hto
    have hnone : t.eraseTo = none := SelfTest.eraseTo_of_sound hs (by simp [hblank]) (by simp [hblank])
    have htest : u.lc = .test := by simp [hlc, hto]
    exact ⟨SelfTest.sound_iff.2 ⟨by simp [hnext], by simp [herase, hnone]⟩, .inr (by rw [hblank, htest]; rfl)⟩

/-- An erase that ends fuses the state that it was begun for. -/
theorem SelfTest.Follows.of_erased {t u : SelfTest} {l : LcState} (hto : t.eraseTo = some l) (hlc : u.lc = l)
    (hnext : u.nextLc = t.nextLc) (herase : u.eraseTo = none) : t.Follows u := by
  intro hs
  obtain ⟨hfrom, hl⟩ := (SelfTest.sound_iff.1 hs).2 l hto
  have hnone : t.nextLc = none := SelfTest.nextLc_of_sound hs (by rintro hblank; simp [hblank] at hfrom)
  refine ⟨SelfTest.sound_iff.2 ⟨by simp [hnext, hnone], by simp [herase]⟩, .inr ?_⟩
  rw [hlc]
  obtain hfrom | hfrom := hfrom <;> obtain rfl | rfl := hl <;> rw [hfrom] <;> rfl

/-! ### The request of BT_LC_CMD (Table BT-3) -/

@[simp] theorem State.newNonce_cycle (s : State) : s.newNonce.test.cycle = s.test.cycle := rfl
@[simp] theorem State.lcNo_cycle (s : State) : s.lcNo.test.cycle = s.test.cycle := rfl

theorem State.lcErase_follows {s : State} {l : LcState} (hfrom : s.test.lc = .provisioned ∨ s.test.lc = .deployed)
    (hto : l = .returned ∨ l = .dead) : s.test.Follows (s.lcErase l).test := by
  intro hs
  have hblank : s.test.lc ≠ .blank := by rintro h; simp [h] at hfrom
  have hnone : s.test.nextLc = none := SelfTest.nextLc_of_sound hs hblank
  refine ⟨SelfTest.sound_iff.2 ⟨?_, ?_⟩, .inl rfl⟩
  · simp [State.lcErase, State.newNonce, hnone]
  · simpa [State.lcErase, State.newNonce] using ⟨hfrom, hto⟩

theorem State.lcSignedTo_follows (s : State) (op : Nat) {l : LcState} (hto : l = .returned ∨ l = .dead) :
    s.test.Follows (s.lcSignedTo op l).test := by
  unfold State.lcSignedTo
  split
  · rename_i h
    simp only [Bool.and_eq_true, Bool.or_eq_true, decide_eq_true_eq] at h
    obtain ⟨⟨hfrom, -⟩, -⟩ := h
    exact State.lcErase_follows hfrom hto
  · exact .of_cycle_eq rfl

theorem State.lcTo_follows {s : State} {l : LcState} (hmove : LcState.next s.test.lc l = true)
    (hblank : s.test.lc ≠ .blank) (hkeep : s.test.lc = .provisioned → l = .deployed) (hdepl : s.test.lc ≠ .deployed) :
    s.test.Follows (s.lcTo l).test := by
  refine .of_move (fun _ => hmove) (fun hs => (SelfTest.nextLc_of_sound hs hblank :)) fun hs => ?_
  by_cases hprov : s.test.lc = .provisioned
  · exact .inr ⟨rfl, .inr (hkeep hprov)⟩
  · exact .inl (SelfTest.eraseTo_of_sound hs hprov hdepl :)

theorem State.lcRequest_follows (s : State) (op : Nat) : s.test.Follows (s.lcRequest op).test := by
  unfold State.lcRequest
  split
  case h_1 hlc =>
    split
    · exact .of_cycle_eq rfl
    · intro hs
      have hnone : s.test.eraseTo = none := SelfTest.eraseTo_of_sound hs (by simp [hlc]) (by simp [hlc])
      exact ⟨SelfTest.sound_iff.2 ⟨by simp [State.newNonce, State.tookFresh, hlc],
        by simp [State.newNonce, State.tookFresh, hnone]⟩, .inl rfl⟩
  case h_2 hlc => exact (State.lcTo_follows (by rw [hlc]; rfl) (by simp [hlc]) (by simp [hlc])
      (by simp [hlc])).trans_cycle_eq rfl
  case h_3 hlc =>
    split
    · exact .of_cycle_eq rfl
    · exact State.lcTo_follows (by rw [hlc]; rfl) (by simp [hlc]) (by simp) (by simp [hlc])
  case h_4 => exact State.lcSignedTo_follows s 4 (.inl rfl)
  case h_5 hlc => exact State.lcTo_follows (by rw [hlc]; rfl) (by simp [hlc]) (by simp [hlc]) (by simp [hlc])
  case h_6 hlc => exact State.lcTo_follows (by rw [hlc]; rfl) (by simp [hlc]) (by simp [hlc]) (by simp [hlc])
  case h_7 => exact State.lcSignedTo_follows s 5 (.inr rfl)
  case h_8 => exact .of_cycle_eq rfl

/-! ### Register writes -/

/-- Every part of the state may change but the life cycle. -/
def exceptCycle (a : Area) : Bool := a != .cycle

theorem Kept.cycle_eq {s t : State} (h : Kept exceptCycle s t) : t.test.cycle = s.test.cycle := h.cycle rfl

theorem State.testPut_cycle {s : State} {o : Nat} (ho : o ≠ 0x28) (v : Word64) :
    (s.testPut o v).test.cycle = s.test.cycle := by
  unfold State.testPut
  split
  · exact absurd rfl ho
  · split <;> rfl
  · split <;> rfl
  · split <;> rfl

/-- A write to BAR0 leaves the life cycle, unless it is to BT_LC_CMD. -/
theorem State.bar0Put_cycle {s : State} {off : Nat} (hoff : off ≠ 0x800028) (v : Word64) :
    (s.bar0Put off v).test.cycle = s.test.cycle := by
  have hrefl : Kept exceptCycle s s := .refl s
  unfold State.bar0Put
  split
  · split
    · exact (kept_mbxPutCmd hrefl rfl).cycle_eq
    · split
      · exact (kept_mbxPutArg hrefl rfl).cycle_eq
      · split
        · exact (kept_mbxGo hrefl rfl).cycle_eq
        · rfl
  · split <;> rfl
  · split
    · exact (kept_resetCtrl hrefl rfl rfl rfl rfl rfl rfl rfl rfl rfl rfl rfl rfl rfl rfl rfl rfl rfl rfl rfl
        rfl).cycle_eq
    · rfl
  · rename_i hblock
    exact State.testPut_cycle (by omega) v
  · exact (kept_debugPut hrefl rfl rfl rfl rfl).cycle_eq
  · exact (kept_compPut hrefl rfl rfl).cycle_eq
  · rfl

theorem State.bar0Put_follows (s : State) (off : Nat) (v : Word64) : s.test.Follows (s.bar0Put off v).test := by
  by_cases hoff : off = 0x800028
  · subst hoff
    exact State.lcRequest_follows s _
  · exact .of_cycle_eq (State.bar0Put_cycle hoff v)

/-- What a write can do: put one register, or two adjacent ones, the lower at a multiple of 8. -/
theorem regWrite_cases {reg : State → Nat → Option RegView} {put : State → Nat → Word64 → State} {s t : State}
    {off size : Nat} {v : Word64} (h : regWrite reg put s off size v = some t) :
    (∃ o x, t = put s o x) ∨ off % 8 = 0 ∧ ∃ x y, t = put (put s off x) (off + 4) y := by
  unfold regWrite at h
  dsimp only at h
  split at h
  · simp at h
  rename_i hsize
  split at h
  · split at h
    · exact .inl ⟨_, _, (Option.some.inj h).symm⟩
    · simp at h
  · split at h
    · exact .inl ⟨_, _, (Option.some.inj h).symm⟩
    · rename_i hnot4
      have h8 : size = 8 := by
        by_contra hnot8
        simp [hnot4, hnot8] at hsize
      have haligned : off % 8 = 0 := by
        by_contra hnot
        simp [h8, hnot] at hsize
      obtain ⟨-, hput⟩ | ⟨-, hput⟩ := ite_eq_iff.1 (Option.some.inj h)
      · exact .inr ⟨haligned, _, _, hput.symm⟩
      · exact .inl ⟨_, _, hput.symm⟩
  · obtain ⟨-, hput⟩ | ⟨-, hput⟩ := ite_eq_iff.1 h
    · exact .inl ⟨_, _, (Option.some.inj hput).symm⟩
    · simp at hput

theorem State.bar0Write_follows (s : State) (off size : Nat) (v : Word64) :
    s.test.Follows (s.bar0Write off size v).test := by
  unfold State.bar0Write
  split
  · rename_i t h
    obtain ⟨o, x, rfl⟩ | ⟨haligned, x, y, rfl⟩ := regWrite_cases h
    · exact State.bar0Put_follows s o x
    · exact (State.bar0Put_follows s off x).trans_cycle_eq (State.bar0Put_cycle (by omega) y)
  · exact .of_cycle_eq rfl

theorem State.smbusPut_follows {s t : State} {off : Nat} {v : Word32} (h : s.smbusPut off v = some t) :
    s.test.Follows t.test := by
  have hrefl : Kept exceptCycle s s := .refl s
  unfold State.smbusPut at h
  split at h
  · obtain rfl := Option.some.inj h
    exact .of_cycle_eq (kept_resetCtrl hrefl rfl rfl rfl rfl rfl rfl rfl rfl rfl rfl rfl rfl rfl rfl rfl rfl rfl rfl rfl
      rfl).cycle_eq
  split at h
  · obtain rfl := Option.some.inj h
    exact State.lcRequest_follows s _
  split at h
  · obtain rfl := Option.some.inj h
    exact .of_cycle_eq rfl
  split at h
  · obtain rfl := Option.some.inj h
    exact .of_cycle_eq rfl
  · obtain rfl := Option.some.inj h
    exact .of_cycle_eq (kept_boardWrite hrefl rfl).cycle_eq
  · simp at h

/-! ### Commands and steps -/

theorem State.coldState_follows (s : State) : s.test.Follows s.coldState.test := .of_cold rfl rfl rfl

theorem exec_lcEraseComplete_follows {bad : List (Nat × Nat × Nat)} {s t : State}
    (h : exec (.lcEraseComplete bad) s = .next t) : s.test.Follows t.test := by
  obtain rfl := Host.Outcome.next.inj h
  split
  · rename_i hto
    exact .of_erased hto rfl rfl rfl
  · exact .of_cycle_eq rfl

theorem exec_smbusWrite_follows {off : Nat} {v : Word32} {pec : Bool} {s t : State}
    (h : exec (.smbusWrite off v pec) s = .next t) : s.test.Follows t.test := by
  obtain rfl := Host.Outcome.next.inj h
  split
  · exact .of_cycle_eq rfl
  · split
    · exact State.smbusPut_follows ‹_›
    · exact .of_cycle_eq rfl

theorem exec_registerWrite_follows {page : Option Nat} {off size : Nat} {v : Word64} {s t : State}
    (h : exec (.registerWrite page off size v) s = .next t) : s.test.Follows t.test := by
  obtain rfl := Host.Outcome.next.inj h
  cases page with
  | none => exact State.bar0Write_follows s off size v
  | some f =>
    have hrefl : Kept exceptCycle s s := .refl s
    exact .of_cycle_eq (kept_pageWrite hrefl rfl rfl rfl).cycle_eq

theorem exec_pwrGoodRise_follows {rails : List (Nat × Nat)} {s t : State}
    (h : exec (.pwrGoodRise rails) s = .next t) : s.test.Follows t.test := by
  obtain rfl := Host.Outcome.next.inj h
  split
  · exact .of_cycle_eq rfl
  · dsimp only
    split <;> exact s.coldState_follows.trans_cycle_eq rfl

/-- The commands whose frame leaves the life cycle open. -/
theorem cycle_mem_touches {c : Instr} (h : .cycle ∈ touches c) :
    (∃ rails, c = .pwrGoodRise rails) ∨ c = .coldReset ∨ (c = .toTest ∨ c = .toProvisioned ∨ c = .toDeployed ∨
      c = .toReturned ∨ c = .toDead) ∨ (∃ bad, c = .lcEraseComplete bad) ∨ (∃ off v pec, c = .smbusWrite off v pec) ∨
      (∃ v, c = .dbMemDataWrite v) ∨ ∃ page off size v, c = .registerWrite page off size v := by
  cases c <;> simp [touches] at h ⊢

theorem exec_follows {c : Instr} {s t : State} (h : exec c s = .next t) : s.test.Follows t.test := by
  by_cases hc : .cycle ∈ touches c
  · obtain ⟨rails, rfl⟩ | rfl | hto | ⟨bad, rfl⟩ | ⟨off, v, pec, rfl⟩ | ⟨v, rfl⟩ | ⟨page, off, size, v, rfl⟩ :=
      cycle_mem_touches hc
    · exact exec_pwrGoodRise_follows h
    · obtain rfl := Host.Outcome.next.inj h
      exact s.coldState_follows
    · obtain rfl | rfl | rfl | rfl | rfl := hto <;> obtain rfl := Host.Outcome.next.inj h <;>
        exact State.lcRequest_follows s _
    · exact exec_lcEraseComplete_follows h
    · exact exec_smbusWrite_follows h
    · obtain rfl := Host.Outcome.next.inj h
      exact State.bar0Write_follows s _ _ v
    · exact exec_registerWrite_follows h
  · exact .of_cycle_eq ((exec_kept c h).cycle (decide_eq_false hc))

theorem step_follows {s t : State} (h : step s = .next t) : s.test.Follows t.test := by
  obtain ⟨-, rfl⟩ | ⟨c, rest, -, hc⟩ := step_cases h
  · exact .of_cycle_eq rfl
  · exact (exec_follows hc :)

end Sys2Proof.Machine

open Sys2Proof Sys2Proof.Machine

/-- Settles O5: a step runs one command or idles; a command either leaves the life cycle, or it is a cold reset, a
request, the end of an erase or a register write, each of which makes at most one move of Table BT-3. -/
theorem stepFollowsTableBT3 : Obligations.StepFollowsTableBT3 := fun _ _ hsound h => step_follows h hsound
end

section
/-! PROOFS. The windows of a tick (Table TK-3), and where TICK changes (R36, R40). -/

namespace Sys2Proof.Machine

/-- Every part of the state may change but the tick. -/
def exceptTick (a : Area) : Bool := a != .tick && a != .clock

theorem Kept.tick_eq {s t : State} (h : Kept exceptTick s t) : t.tick = s.tick := h.tick rfl

/-! ### The windows -/

theorem State.fetchAll_window_tick (s : State) : s.retryReads.sampleTails.fetchAll.tick = s.tick :=
  (kept_fetchAll (w := exceptTick) (kept_sampleTails (kept_retryReads (.refl s) rfl) rfl) rfl rfl rfl).tick_eq

theorem State.work_window_tick (s : State) : s.checkLagging.ingestShard.frontsIngest.tick = s.tick :=
  (kept_frontsIngest (w := exceptTick) (kept_ingestShard (kept_checkLagging (.refl s) rfl) rfl rfl rfl rfl rfl rfl rfl
    rfl rfl) rfl rfl rfl rfl rfl rfl).tick_eq

theorem State.settleQuiesces_tick (s : State) : s.settleQuiesces.tick = s.tick :=
  (kept_settleQuiesces (w := exceptTick) (.refl s) rfl rfl).tick_eq

theorem State.egress_window_tick (s : State) :
    s.sendSearches.shardEgress.selectEgress.sendResults.frontsEgress.sendReplication.endUpdates.settleWatches.tick =
      s.tick := by
  have hsearch : Kept exceptTick s s.sendSearches.shardEgress.selectEgress :=
    kept_selectEgress (kept_shardEgress (kept_sendSearches (.refl s) rfl rfl rfl rfl rfl) rfl rfl rfl) rfl rfl
  have hreplies := kept_sendReplication (kept_frontsEgress (kept_sendResults hsearch rfl rfl rfl) rfl rfl) rfl rfl rfl
  exact (kept_settleWatches (kept_endUpdates hreplies rfl rfl) rfl rfl).tick_eq

theorem State.apply_tick (s : State) :
    s.fireTicks.installLists.loadsDue.applyUpdates.pruneOld.catchUpDone.tick = s.tick := by
  have hloads : Kept exceptTick s s.fireTicks.installLists.loadsDue :=
    kept_loadsDue (kept_installLists (kept_fireTicks (.refl s) rfl rfl) rfl rfl rfl rfl rfl) rfl rfl rfl rfl
  exact (kept_catchUpDone (kept_pruneOld (kept_applyUpdates hloads rfl rfl rfl rfl) rfl rfl) rfl rfl).tick_eq

/-- Of the tick, the beacon changes only the record of the bytes that left. -/
theorem State.sendBeacon_tick (s : State) : s.sendBeacon.tick = { s.tick with beaconOut := s.beaconWords } :=
  Kept.tick_eq (s := { s with tick := { s.tick with beaconOut := s.beaconWords } }) <|
    Kept.foldl (.refl _) fun _ _ hs => .ite (kept_enqueue hs rfl) hs

section
variable {s : State} (hticking : s.ticking = true)
include hticking

theorem exec_ingestStart_tick (hphase : s.tick.phase = .boundary) :
    ∃ t, exec .ingestStart s = .next t ∧ t.tick = { s.tick with phase := .ingest } := by
  refine ⟨_, rfl, ?_⟩
  rw [if_pos (by simp [hticking, hphase])]
  exact State.fetchAll_window_tick _

theorem exec_ingestEnd_tick (hphase : s.tick.phase = .ingest) :
    ∃ t, exec .ingestEnd s = .next t ∧ t.tick = { s.tick with phase := .work } := by
  refine ⟨_, rfl, ?_⟩
  rw [if_pos (by simp [hticking, hphase])]
  dsimp only
  split
  · exact State.work_window_tick _
  · rfl

theorem exec_egressWindowStart_tick (hphase : s.tick.phase = .work) :
    ∃ t, exec .egressWindowStart s = .next t ∧ t.tick = { s.tick with phase := .egress } := by
  refine ⟨_, rfl, ?_⟩
  rw [if_pos (by simp [hticking, hphase])]
  dsimp only
  split
  · exact (State.egress_window_tick _).trans (State.settleQuiesces_tick _)
  · exact State.settleQuiesces_tick _

theorem exec_guardPhaseStart_tick (lastEndNs : Nat) (hphase : s.tick.phase = .egress) :
    ∃ t, exec (.guardPhaseStart lastEndNs) s = .next t ∧ ∃ ws, t.tick = { s.tick with
      phase := .guard, slackNow := some ((s.mapNs 980 - lastEndNs) / 1000), beaconOut := ws } := by
  refine ⟨_, rfl, ?_⟩
  rw [if_pos (by simp [hticking, hphase])]
  dsimp only
  split
  · exact ⟨_, (State.apply_tick _).trans (State.sendBeacon_tick _)⟩
  · exact ⟨_, State.sendBeacon_tick _⟩

end

/-! ### TICK -/

/-- Each window opens with TICK as it was, or does nothing. -/
theorem exec_window_count {s t : State} {c : Instr} (h : exec c s = .next t)
    (hc : c = .ingestStart ∨ c = .ingestEnd ∨ c = .egressWindowStart ∨ ∃ lastEndNs, c = .guardPhaseStart lastEndNs) :
    t.tick.count = s.tick.count := by
  obtain rfl | rfl | rfl | ⟨lastEndNs, rfl⟩ := hc <;> obtain rfl := Host.Outcome.next.inj h <;> dsimp only <;> split
  · rw [State.fetchAll_window_tick]
  · rfl
  · split
    · rw [State.work_window_tick]
    · rfl
  · rfl
  · split
    · rw [State.egress_window_tick, State.settleQuiesces_tick]
    · rw [State.settleQuiesces_tick]
  · rfl
  · split
    · rw [State.apply_tick, State.sendBeacon_tick]
    · rw [State.sendBeacon_tick]
  · rfl

/-- Whether a command may change TICK: the tick edge, resets, the boot sequence and register writes. -/
def setsTick : Instr → Bool
  | .tickEdge .. | .pwrGoodRise .. | .coldReset | .warmReset | .bootStepComplete .. | .smbusWrite ..
  | .dbMemDataWrite .. | .registerWrite .. => true
  | _ => false

theorem clock_mem_touches {c : Instr} (h : .clock ∈ touches c) (hset : setsTick c = false) :
    c = .ingestStart ∨ c = .ingestEnd ∨ c = .egressWindowStart ∨ ∃ lastEndNs, c = .guardPhaseStart lastEndNs := by
  cases c <;> simp [touches, setsTick] at h hset ⊢

theorem exec_count {c : Instr} {s t : State} (h : exec c s = .next t) (hset : setsTick c = false) :
    t.tick.count = s.tick.count := by
  by_cases hc : .clock ∈ touches c
  · exact exec_window_count h (clock_mem_touches hc hset)
  · obtain ⟨hcount, -⟩ := (exec_kept c h).clock (decide_eq_false hc)
    exact hcount

end Sys2Proof.Machine

open Sys2Proof Sys2Proof.Machine

/-- Settles O7: a command whose frame leaves TICK open is a window, which keeps it, or one of those named. -/
theorem tickChangesAtEdgesBootAndResets : Obligations.TickChangesAtEdgesBootAndResets := by
  unfold Obligations.TickChangesAtEdgesBootAndResets
  intro c s t h
  by_cases hset : setsTick c = true
  · unfold setsTick at hset
    split at hset
    case h_9 => exact absurd hset Bool.false_ne_true
    all_goals trivial
  · have hcount := exec_count h (Bool.eq_false_iff.2 hset)
    split
    case h_9 => exact hcount
    all_goals trivial

/-- Settles O8: each window sets its phase, and the work done in it leaves the tick. -/
theorem windowsFollowThePhaseMap : Obligations.WindowsFollowThePhaseMap := by
  unfold Obligations.WindowsFollowThePhaseMap
  intro s lastEndNs hticking
  refine ⟨fun hphase => ?_, fun hphase => ?_, fun hphase => ?_, fun hphase => ?_⟩
  · obtain ⟨t, hexec, htick⟩ := exec_ingestStart_tick hticking hphase
    exact ⟨t, hexec, by rw [htick], by rw [htick]⟩
  · obtain ⟨t, hexec, htick⟩ := exec_ingestEnd_tick hticking hphase
    exact ⟨t, hexec, by rw [htick], by rw [htick]⟩
  · obtain ⟨t, hexec, htick⟩ := exec_egressWindowStart_tick hticking hphase
    exact ⟨t, hexec, by rw [htick], by rw [htick]⟩
  · obtain ⟨t, hexec, ws, htick⟩ := exec_guardPhaseStart_tick hticking lastEndNs hphase
    exact ⟨t, hexec, by rw [htick], by rw [htick], by rw [htick]⟩
end

section
/-! PROOFS. The tick line, the root's time base, the choice of source, beacons (R29–R38, R41). -/

namespace Sys2Proof.Machine

/-! ### The tick-line receiver -/

@[simp] theorem State.regenerate_line (s : State) (f : Word64) : (s.regenerate f).tick.line = s.tick.line := by
  unfold State.regenerate; split <;> rfl
@[simp] theorem State.regenerate_lineErr (s : State) (f : Word64) : (s.regenerate f).tick.lineErr = s.tick.lineErr := by
  unfold State.regenerate; split <;> rfl
@[simp] theorem State.regenerate_count (s : State) (f : Word64) : (s.regenerate f).tick.count = s.tick.count := by
  unfold State.regenerate; split <;> rfl

@[simp] theorem State.acceptFrame_line (s : State) (f atNs : Nat) (raw : Word64) :
    (s.acceptFrame f atNs raw).tick.line = { s.tick.line with
      tick40 := field f 16 40, lastAt := atNs, ignored := 0
      edge := if f.testBit 15 then some (s.frameEdge f atNs) else s.tick.line.edge } := by
  simp [State.acceptFrame, State.setLine]
@[simp] theorem State.acceptFrame_lineErr (s : State) (f atNs : Nat) (raw : Word64) :
    (s.acceptFrame f atNs raw).tick.lineErr = s.tick.lineErr := by
  simp [State.acceptFrame, State.setLine]

@[simp] theorem State.ignoreFrame_line (s : State) (atNs : Nat) :
    (s.ignoreFrame atNs).tick.line = { s.tick.line with ignored := s.tick.line.ignored + 1, lastAt := atNs } := by
  simp [State.ignoreFrame]
@[simp] theorem State.ignoreFrame_lineErr (s : State) (atNs : Nat) :
    (s.ignoreFrame atNs).tick.lineErr = bump s.tick.lineErr 1 := by
  simp [State.ignoreFrame]

theorem exec_tickLineFrame_locked {s : State} (h : s.tick.line.locked = true) (frame : Word64) (atNs : Nat) :
    exec (.tickLineFrame frame atNs) s =
      .next (if frameGood (scrambled frame).toNat && frameFollows (scrambled frame).toNat s.tick.line.tick40
        then s.acceptFrame (scrambled frame).toNat atNs frame else s.ignoreFrame atNs) :=
  congrArg Host.Outcome.next (if_pos h)

theorem exec_tickLineFrame_searching {s : State} (h : s.tick.line.locked = false) (frame : Word64) (atNs : Nat) :
    exec (.tickLineFrame frame atNs) s = .next (s.searchFrame (scrambled frame).toNat atNs frame) :=
  congrArg Host.Outcome.next (if_neg (by simp [h]))

/-! ### The search for lock -/

/-- The receiver after a good frame that leaves it searching, with a run of n. -/
def Line.searching (l : Line) (n f atNs : Nat) : Line := { l with run := n, tick40 := field f 16 40, lastAt := atNs }

/-- The first good frame. -/
theorem State.searchFrame_first {s : State} {f : Nat} (atNs : Nat) (raw : Word64) (hgood : frameGood f = true)
    (hrun : s.tick.line.run = 0) : s.searchFrame f atNs raw = s.setLine (s.tick.line.searching 1 f atNs) := by
  simp [State.searchFrame, hgood, hrun, Line.searching]

/-- The second, 64 bit times after the first, which it follows. -/
theorem State.searchFrame_second {s : State} {f atNs : Nat} (raw : Word64) (hgood : frameGood f = true)
    (hrun : s.tick.line.run = 1) (hat : atNs = s.tick.line.lastAt + 512)
    (hfollows : frameFollows f s.tick.line.tick40 = true) :
    s.searchFrame f atNs raw = s.setLine (s.tick.line.searching 2 f atNs) := by
  simp [State.searchFrame, hgood, hrun, ← hat, hfollows, Line.searching]

/-- The third. -/
theorem State.searchFrame_locks {s : State} {f atNs : Nat} (raw : Word64) (hgood : frameGood f = true)
    (hrun : s.tick.line.run = 2) (hat : atNs = s.tick.line.lastAt + 512)
    (hfollows : frameFollows f s.tick.line.tick40 = true) : s.searchFrame f atNs raw = s.lineLocks f atNs raw := by
  simp [State.searchFrame, hgood, hrun, ← hat, hfollows]

theorem State.lineLocks_line (s : State) (f atNs : Nat) (raw : Word64) :
    (s.lineLocks f atNs raw).tick.line.locked = true ∧ (s.lineLocks f atNs raw).tick.line.tick40 = field f 16 40 ∧
      (s.lineLocks f atNs raw).tick.line.refused =
        (s.counting && decide (extend40 s.tick.count.toNat (field f 16 40) < s.tick.count.toNat)) := by
  unfold State.lineLocks
  dsimp only
  split <;> simp [State.setLine, *]

/-! ### The choice of source -/

/-- A source that has been in lock for 16 ticks. -/
def State.sourceReady (s : State) (x : Source) : Bool := s.sourceUp x && decide (16 ≤ s.sourceLock x)

theorem State.sourceReady_iff {s : State} {x : Source} : s.sourceReady x = true ↔ s.sourceUp x = true ∧
    16 ≤ s.sourceLock x := by
  simp [State.sourceReady]

/-- The source that ends holdover is ready. -/
theorem State.sourceReady_taken {s : State} (h : s.sourceReady s.primary = true ∨ s.sourceReady s.secondary = true) :
    s.sourceReady (if s.sourceReady s.primary then s.primary else s.secondary) = true := by
  split
  · assumption
  · exact h.resolve_left ‹_›

/-! ### Beacons -/

/-- What a beacon leaves of its sender. -/
def peerOf (ws : List Word64) : PeerBeacon :=
  { node := field (nth ws 0) 32 32, flags := field (nth ws 0) 8 8, tick := BitVec.ofNat 64 (nth ws 1)
    planDigest := BitVec.ofNat 64 (nth ws 5), slack := field (nth ws 3) 32 16,
    carried := field (nth ws 6) 0 32, age := 0
    fresh := true }

theorem exec_beaconReceived_good {s : State} {port : Nat} {ws : List Word64} (hup : (s.port port).up = true)
    (hgood : beaconGood ws = true) : exec (.beaconReceived port ws) s = .next { s with tick := { s.tick with
      peers := (s.tick.peers.filter fun q => q.node != (peerOf ws).node) ++ [peerOf ws]
      beacon := if (peerOf ws).node = s.beaconNode then { s.tick.beacon with
          seen := true
          edge := some (BitVec.ofNat 64 (nth ws 1), field (nth ws 2) 0 48 * 1000000000 + field (nth ws 3) 0 32) }
        else s.tick.beacon } } :=
  (if_neg (by simp [hup])).trans (if_neg (by simp [hgood]))

theorem exec_beaconReceived_bad {s : State} {port : Nat} {ws : List Word64} (hup : (s.port port).up = true)
    (hbad : beaconGood ws = false) :
    exec (.beaconReceived port ws) s = .next { s with tick := { s.tick with beaconErr := bump s.tick.beaconErr 1 } } :=
  (if_neg (by simp [hup])).trans (if_pos (by simp [hbad]))

/-! ### The PTP clock (R308) -/

theorem State.raiseNamed_length (s : State) (c : Cause) (l : List Nat) :
    (s.raiseNamed c l).events.length = s.events.length + 1 := by
  simp [State.raiseNamed, State.raise]

/-- The offset from the master that a Sync with its stamp gives. -/
def Ptp.offsetOf (p : Ptp) (stamp rx : Nat) : Int := (rx : Int) - stamp - p.delay

/-- The count of offsets below 100 ns in a row, after one more. -/
def Ptp.goodAfter (p : Ptp) (off : Int) : Nat := if off.natAbs < 100 then min 16 (p.good + 1) else 0

/-- The clock after a complete Sync, but for its lock. -/
def Ptp.synced (p : Ptp) (stamp rx : Nat) : Ptp := { p with
  pendingSync := none, lastSync := some (stamp, rx), offset := p.offsetOf stamp rx
  good := p.goodAfter (p.offsetOf stamp rx) }

theorem State.syncDone_eq (s : State) (stamp rx : Nat) : s.syncDone stamp rx =
    if (s.ptp.synced stamp rx).good = 16 && !s.ptp.locked then
      { s with ptp := { s.ptp.synced stamp rx with locked := true } }.raiseNamed .ptpLocked []
    else { s with ptp := s.ptp.synced stamp rx } := rfl

@[simp] theorem State.syncDone_tick (s : State) (stamp rx : Nat) : (s.syncDone stamp rx).tick = s.tick :=
  (kept_syncDone (w := exceptTick) (.refl s) rfl rfl).tick_eq

/-- Lock comes with the sixteenth offset in a row that is below 100 ns, and stays. -/
theorem State.syncDone_ptp (s : State) (stamp rx : Nat) : (s.syncDone stamp rx).ptp =
    { s.ptp.synced stamp rx with locked := (s.ptp.synced stamp rx).good == 16 || s.ptp.locked } := by
  rw [State.syncDone_eq]
  split
  · rename_i hfirst
    obtain ⟨hgood, -⟩ := Bool.and_eq_true_iff.1 hfirst
    have hlock : ((s.ptp.synced stamp rx).good == 16 || s.ptp.locked) = true := by
      simpa using .inl (of_decide_eq_true hgood)
    rw [hlock]
    rfl
  · rename_i hkeep
    have hlock : ((s.ptp.synced stamp rx).good == 16 || s.ptp.locked) = (s.ptp.synced stamp rx).locked := by
      have hsame : (s.ptp.synced stamp rx).locked = s.ptp.locked := rfl
      cases hlocked : s.ptp.locked <;> simp_all
    rw [hlock]

theorem Ptp.goodAfter_of_near {p : Ptp} {off : Int} (h : off.natAbs < 100) (hgood : 15 ≤ p.good) :
    p.goodAfter off = 16 := by
  rw [Ptp.goodAfter, if_pos h]
  omega

theorem Ptp.goodAfter_of_far {p : Ptp} {off : Int} (h : 100 ≤ off.natAbs) : p.goodAfter off = 0 :=
  if_neg (by omega)

section
variable {s : State} {port : Nat} {m : PtpMsg} (hmaster : s.fromMaster port m = true)
include hmaster

theorem exec_ptpSync_oneStep (hstep : m.twoStep = false) :
    exec (.ptpSync port m) s = .next (s.syncDone m.stampNs m.rxNs) :=
  (if_neg (by simp [hmaster])).trans (if_neg (by simp [hstep]))

theorem exec_ptpSync_twoStep (hstep : m.twoStep = true) :
    exec (.ptpSync port m) s = .next { s with ptp := { s.ptp with pendingSync := some (port, m) } } :=
  (if_neg (by simp [hmaster])).trans (if_pos hstep)

theorem exec_ptpDelayResp {tx stamp rx : Nat} (hreq : s.ptp.delayReq = some (port, tx))
    (hsync : s.ptp.lastSync = some (stamp, rx)) :
    exec (.ptpDelayResp port m) s = .next { s with ptp := { s.ptp with
      delay := (((rx : Int) - stamp + ((m.stampNs : Int) - tx)) / 2).toNat, delayReq := none } } := by
  simp [exec, execPtpDelayResp, hreq, hsync, hmaster]

end

theorem exec_ptpFollowUp {s : State} {port : Nat} {m f : PtpMsg} (hpending : s.ptp.pendingSync = some (port, m))
    (hid : m.identity = f.identity) (hseq : m.seqId = f.seqId) (hmaster : s.fromMaster port f = true) :
    exec (.ptpFollowUp port f) s = .next (s.syncDone f.stampNs m.rxNs) := by
  simp [exec, execPtpFollowUp, hpending, hid, hseq, hmaster]

theorem exec_ptpAnnounce_first {s : State} {port : Nat} {a : PtpAnnounce} (hup : (s.port port).up = true)
    (hdomain : a.domain = s.cfg 5 5 0) (hnone : s.ptp.master = none) :
    exec (.ptpAnnounce port a) s = .next { s with ptp := { s.ptp with master := some (a, port) } } := by
  simp [exec, execPtpAnnounce, hup, hdomain, hnone]

theorem exec_ptpDelayReq {s : State} {port : Nat} (tx : Nat) {b : PtpAnnounce} (hmaster : s.ptp.master = some (b, port))
    (hup : (s.port port).up = true) :
    ∃ f, exec (.ptpDelayReq port tx) s =
      .next ({ s with ptp := { s.ptp with delayReq := some (port, tx) } }.enqueue port 6 f) := by
  simp only [exec, execPtpDelayReq, hmaster, hup, decide_true, Bool.and_self, if_true]
  exact ⟨_, rfl⟩

end Sys2Proof.Machine

open Sys2Proof Sys2Proof.Machine

/-- Settles O10: what `acceptFrame` and `ignoreFrame` leave in the receiver; the loss of lock is one event. -/
theorem tickLineReceiver : Obligations.TickLineReceiver := by
  unfold Obligations.TickLineReceiver
  intro s frame atNs
  refine ⟨fun hlocked hgood hfollows => ?_, fun hlocked hbad => ?_, fun hlocked hfour => ?_⟩
  · refine ⟨_, exec_tickLineFrame_locked hlocked frame atNs, ?_⟩
    rw [if_pos (by rw [hgood, hfollows]; rfl)]
    rw [State.acceptFrame_line, State.acceptFrame_lineErr]
    exact ⟨hlocked, rfl, rfl, rfl, fun hedge => if_pos hedge, fun hedge => if_neg (by simp [hedge])⟩
  · refine ⟨_, exec_tickLineFrame_locked hlocked frame atNs, ?_⟩
    rw [if_neg (by simp [hbad])]
    rw [State.ignoreFrame_line, State.ignoreFrame_lineErr]
    exact ⟨hlocked, rfl, rfl, rfl, rfl⟩
  · refine ⟨_, if_pos (by simp [hlocked, hfour]), rfl, rfl, ?_, rfl⟩
    simp [State.raiseNamed, State.raise, State.setLine]

/-- Settles O11: the three frames of the search, one after another. -/
theorem tickLineLocks : Obligations.TickLineLocks := by
  unfold Obligations.TickLineLocks
  intro s f1 f2 f3 at1 hsearch hrun hgood1 hgood2 hgood3 hfollows2 hfollows3
  let a := s.setLine (s.tick.line.searching 1 (scrambled f1).toNat at1)
  let b := a.setLine (a.tick.line.searching 2 (scrambled f2).toNat (at1 + 512))
  have ha : exec (.tickLineFrame f1 at1) s = .next a := by
    rw [exec_tickLineFrame_searching hsearch, State.searchFrame_first at1 f1 hgood1 hrun]
  have hb : exec (.tickLineFrame f2 (at1 + 512)) a = .next b := by
    rw [exec_tickLineFrame_searching (s := a) hsearch,
        State.searchFrame_second (s := a) (atNs := at1 + 512) f2 hgood2 rfl rfl hfollows2]
  have ht : exec (.tickLineFrame f3 (at1 + 1024)) b =
      .next (b.lineLocks (scrambled f3).toNat (at1 + 1024) f3) := by
    rw [exec_tickLineFrame_searching (s := b) hsearch,
        State.searchFrame_locks (s := b) (atNs := at1 + 1024) f3 hgood3 rfl rfl hfollows3]
  obtain ⟨hlocked, htick40, hrefused⟩ := State.lineLocks_line b (scrambled f3).toNat (at1 + 1024) f3
  exact ⟨a, b, _, ha, hsearch, hb, hsearch, ht, hlocked, htick40, hrefused⟩

/-- Settles O12: each command under its guard, which its clause states. -/
theorem rootAndHoldover : Obligations.RootAndHoldover := by
  unfold Obligations.RootAndHoldover
  intro s atNs
  refine ⟨fun hroot hearly hlate => ?_, fun hroot => ?_, fun hhold hup hlock => ?_, fun hhold herr => ?_,
    fun x hx hhold hup hlock => ?_⟩
  · exact ⟨_, if_pos (by simp [hroot, hearly, hlate]), rfl, rfl⟩
  · refine ⟨_, (atNs + 500000000) / 1000000000 * 1000000000, if_pos hroot, rfl, ?_, ?_, ?_, rfl⟩ <;> omega
  · exact ⟨_, if_pos (by simp [hhold, hup, hlock]), rfl, rfl⟩
  · exact ⟨_, if_pos (by simp [hhold, herr]), rfl, hhold⟩
  · have hready : s.sourceReady s.primary = true ∨ s.sourceReady s.secondary = true := by
      obtain rfl | rfl := hx
      · exact .inl (by simp [State.sourceReady, hup, hlock])
      · exact .inr (by simp [State.sourceReady, hup, hlock])
    obtain ⟨hupTaken, hlockTaken⟩ := State.sourceReady_iff.1 (State.sourceReady_taken hready)
    exact ⟨_, if_pos (by simpa [hhold, State.sourceReady] using hready), rfl, rfl, rfl, rfl, hupTaken, hlockTaken⟩

/-- Settles O13: what a beacon leaves of its sender, and what the loss of the root's beacon leaves of the source. -/
theorem beaconsAreHeard : Obligations.BeaconsAreHeard := by
  unfold Obligations.BeaconsAreHeard
  intro s port ws
  refine ⟨fun hup hgood => ?_, fun hup hbad => ?_, fun hmissed => ?_⟩
  · refine ⟨_, peerOf ws, exec_beaconReceived_good hup hgood, by simp, rfl, rfl, rfl, rfl, rfl, ?_, rfl, ?_, ?_⟩
    · intro q hq hnode
      simpa [hnode] using hq
    · intro hnode
      rw [if_pos hnode]
      exact ⟨rfl, rfl⟩
    · intro hnode
      exact if_neg hnode
  · exact ⟨_, exec_beaconReceived_bad hup hbad, rfl, rfl, rfl⟩
  · exact ⟨_, if_pos hmissed, by simp [State.sourceUp], rfl, rfl⟩

/-- Settles O14: a complete Sync is `syncDone`, and each other message sets the part of the clock that it names. -/
theorem ptpClock : Obligations.PtpClock := by
  unfold Obligations.PtpClock
  intro s port tx m f a
  refine ⟨fun hmaster hstep => ?_, fun hmaster hstep => ?_, fun hpending hid hseq hmaster => ?_,
    fun hup hdomain hnone => ?_, fun b q hmaster hup => ?_, fun stamp rx hreq hsync hmaster => ?_, ?_⟩
  · refine ⟨_, exec_ptpSync_oneStep hmaster hstep, State.syncDone_tick .., ?_⟩
    rw [State.syncDone_ptp]
    refine ⟨rfl, fun (hnear : (s.ptp.offsetOf m.stampNs m.rxNs).natAbs < 100) hgood => ?_,
      fun (hfar : 100 ≤ (s.ptp.offsetOf m.stampNs m.rxNs).natAbs) => ⟨Ptp.goodAfter_of_far hfar, ?_⟩⟩
    · simp [Ptp.synced, Ptp.goodAfter_of_near hnear hgood]
    · simp [Ptp.synced, Ptp.goodAfter_of_far hfar]
  · exact ⟨_, exec_ptpSync_twoStep hmaster hstep, rfl, rfl, rfl, rfl⟩
  · refine ⟨_, exec_ptpFollowUp hpending hid hseq hmaster, State.syncDone_tick .., ?_⟩
    rw [State.syncDone_ptp]
    exact ⟨rfl, rfl⟩
  · exact ⟨_, exec_ptpAnnounce_first hup hdomain hnone, rfl, rfl⟩
  · obtain ⟨frame, hexec⟩ := exec_ptpDelayReq q hmaster hup
    exact ⟨_, hexec, rfl, rfl⟩
  · exact ⟨_, exec_ptpDelayResp hmaster hreq hsync, rfl, rfl, rfl⟩
  · cases hlocked : s.ptp.locked with
    | true =>
      refine ⟨_, if_pos hlocked, rfl, rfl, rfl, State.raiseNamed_length ..⟩
    | false => exact ⟨_, if_neg (by simp [hlocked]), rfl, rfl, rfl, rfl⟩
end

section
/-! PROOFS. The stile engine: what one cycle does to its stile, and what the checks of Table ST-7 do (11). -/

namespace Sys2Proof.Machine

theorem foldl_keeps {α β γ : Type} {f : α → β → α} (p : α → γ) (h : ∀ a b, p (f a b) = p a) :
    ∀ (l : List β) (a : α), p (l.foldl f a) = p a
  | [], _ => rfl
  | b :: l, a => by rw [List.foldl_cons, foldl_keeps p h l, h]

/-- The parts of the state that a list names. -/
def within (l : List Area) (a : Area) : Bool := decide (a ∈ l)

/-! ### The table of stiles -/

/-- A stile is read off the table alone. -/
theorem State.stile_congr {s t : State} (h : t.stiles.table = s.stiles.table) (k : Nat) : t.stile k = s.stile k := by
  unfold State.stile; rw [h]

theorem State.flagRose_stiles (s : State) (i : Nat) (x : Stile) (was now : Bool) (n : Nat) :
    (s.flagRose i x was now n).stiles = s.stiles := by
  unfold State.flagRose; split <;> rfl

theorem State.stileApply_table (s : State) (i : Nat) (ops : List StileOp) :
    (s.stileApply i ops).stiles.table = (s.setStile i (stileCycle (s.stile i) ops).1).stiles.table := by
  have hclamps (x : State) (l : List Nat) (f : Nat) :
      (l.foldl (fun s _ => (s.bumpStile 1).bumpFn f 1) x).stiles.table = x.stiles.table :=
    foldl_keeps (f := fun (s : State) _ => (s.bumpStile 1).bumpFn f 1) (·.stiles.table) (fun _ _ => rfl) l x
  unfold State.stileApply
  dsimp only
  rw [State.flagRose_stiles, State.flagRose_stiles, hclamps]
  split <;> rfl

/-- The stile after a cycle of the stile engine. -/
theorem State.stile_stileApply (s : State) (i : Nat) (ops : List StileOp) :
    (s.stileApply i ops).stile i = (stileCycle (s.stile i) ops).1 := by
  rw [State.stile_congr (s.stileApply_table i ops), State.stile_setStile]

theorem State.stile_stileApply_ne (s : State) {i k : Nat} (ops : List StileOp) (h : k ≠ i) :
    (s.stileApply i ops).stile k = s.stile k := by
  rw [State.stile_congr (s.stileApply_table i ops), State.stile_setStile_ne s _ h]

/-! ### A cycle with one operation (Table ST-6) -/

theorem stileCycle_signal (t : Stile) (n : Nat) :
    (stileCycle t [.signal n]).1 = { t with
      count := min (t.count + n) stileMax
      overflow := t.overflow || decide (t.count + n > stileMax) } := by
  simp [stileCycle, firstSet, clearMask, signalSum, consumeAll]

theorem flag_pos (b : Bool) : 0 < flag b ↔ b = true := by cases b <;> decide

theorem stileCycle_consume (t : Stile) (n : Nat) :
    (stileCycle t [.consume n]).1 = { t with
      count := min t.count stileMax - n
      overflow := t.overflow || decide (t.count > stileMax)
      underflow := t.underflow || decide (n > min t.count stileMax) } := by
  simp [stileCycle, firstSet, clearMask, signalSum, consumeAll, flag_pos]

theorem stileCycle_set (t : Stile) (v : Nat) :
    (stileCycle t [.set v]).1 = { t with
      count := min v stileMax
      overflow := t.overflow || decide (v > stileMax) } := by
  simp [stileCycle, firstSet, clearMask, signalSum, consumeAll]

theorem stileCycle_clear (t : Stile) (m : Nat) :
    (stileCycle t [.clear m]).1 = { t with
      count := min t.count stileMax
      overflow := t.overflow && !m.testBit 0 || decide (t.count > stileMax)
      underflow := t.underflow && !m.testBit 1
      misuse := t.misuse && !m.testBit 2 } := by
  simp [stileCycle, firstSet, clearMask, signalSum, consumeAll]

/-! ### Operation words -/

/-- Replacing the OP of a word leaves the stile number that it names. -/
theorem field_withOp_stile (w : Word64) (op : Nat) : field (withOp w op) 44 14 = field w.toNat 44 14 := by
  simp only [field, withOp, Nat.shiftRight_eq_div_pow]
  omega

theorem State.stileOutside_of_apply {s : State} {src : StileSource} {fn : Nat} {addr : Option Nat} {w : Word64}
    {k : Nat} {op : StileOp} (h : stileCheck s src fn addr (withOp w k) = .apply op) :
    s.stileOutside src fn addr (withOp w k) = s.stileApply (addr.getD (field w.toNat 44 14)) [op] := by
  unfold State.stileOutside
  rw [h, field_withOp_stile]
  rfl

/-- What an operation leaves as it was: owner, state and generation of its stile, and every other stile. -/
theorem State.stileApply_same (s : State) (i : Nat) (ops : List StileOp) :
    ((s.stileApply i ops).stile i).owner = (s.stile i).owner ∧
      ((s.stileApply i ops).stile i).state = (s.stile i).state ∧
      ((s.stileApply i ops).stile i).gen = (s.stile i).gen ∧
      ∀ k, k ≠ i → (s.stileApply i ops).stile k = s.stile k := by
  rw [State.stile_stileApply]
  exact ⟨rfl, rfl, rfl, fun k hk => s.stile_stileApply_ne ops hk⟩

/-! ### The verdicts of Table ST-7 -/

theorem State.stileMisuse_stile (s : State) (i : Nat) :
    (s.stileMisuse i).stile i = { s.stile i with misuse := true } := by
  exact (State.stile_congr (congrArg _ (State.flagRose_stiles ..)) i).trans (State.stile_setStile s i _)

theorem State.stileMisuse_stile_ne (s : State) {i k : Nat} (h : k ≠ i) : (s.stileMisuse i).stile k = s.stile k := by
  exact (State.stile_congr (congrArg _ (State.flagRose_stiles ..)) k).trans (State.stile_setStile_ne s _ h)

theorem State.stileMisuse_counters (s : State) (i : Nat) :
    (s.stileMisuse i).stiles.counters = s.stiles.counters := by
  unfold State.stileMisuse
  rw [State.flagRose_stiles]
  rfl

/-- A misuse counted in counter `m` of Table ST-11. -/
theorem State.counted_misuse (s : State) (i f m : Nat) :
    (((s.bumpStile m).bumpFn f m).stileMisuse i).stile i = { s.stile i with misuse := true } ∧
      (∀ j, j ≠ i → (((s.bumpStile m).bumpFn f m).stileMisuse i).stile j = s.stile j) ∧
      (((s.bumpStile m).bumpFn f m).stileMisuse i).stiles.counters = bumpAt s.stiles.counters m 1 :=
  ⟨State.stileMisuse_stile _ i, fun _ hj => State.stileMisuse_stile_ne _ hj, State.stileMisuse_counters _ i⟩

/-- A foreign operation: the function's page is marked, and the first since the mark was cleared raises an event. -/
theorem State.stileVerdict_foreign (s : State) (fn i gen : Nat) :
    (∀ j, (s.stileVerdict fn i gen .foreign).stile j = s.stile j) ∧
      ((s.stileVerdict fn i gen .foreign).fn fn).foreign = true ∧
      (s.stileVerdict fn i gen .foreign).stiles.counters = bumpAt s.stiles.counters 5 1 ∧
      (s.stileVerdict fn i gen .foreign).events.length = s.events.length + if (s.fn fn).foreign then 0 else 1 := by
  have hfn : (((s.bumpStile 5).bumpFn fn 5).fn fn).foreign = (s.fn fn).foreign :=
    (congrArg Fn.foreign (State.fn_setFn_of (s.bumpStile 5)
      (x := { s.fn fn with counters := bumpAt (s.fn fn).counters 5 1 }) (State.fn_id s fn))).trans rfl
  have hid : (((s.bumpStile 5).bumpFn fn 5).fn fn).id = fn := State.fn_id _ fn
  have hmarked := State.fn_setFn_of ((s.bumpStile 5).bumpFn fn 5)
    (x := { ((s.bumpStile 5).bumpFn fn 5).fn fn with foreign := true }) hid
  unfold State.stileVerdict
  dsimp only
  rw [hfn]
  split
  · exact ⟨fun _ => rfl, congrArg Fn.foreign hmarked, rfl, rfl⟩
  · exact ⟨fun _ => rfl, congrArg Fn.foreign hmarked, rfl, by simp [State.raise]⟩

/-- What each refusing verdict does. -/
theorem State.stileOutside_refused (s : State) (src : StileSource) (fn : Nat) (addr : Option Nat) (w : Word64)
    (i k : Nat) (hi : i = addr.getD (field w.toNat 44 14)) :
    (stileCheck s src fn addr (withOp w k) = .foreign →
      (∀ j, (s.stileOutside src fn addr (withOp w k)).stile j = s.stile j) ∧
        ((s.stileOutside src fn addr (withOp w k)).fn fn).foreign = true ∧
        (s.stileOutside src fn addr (withOp w k)).stiles.counters = bumpAt s.stiles.counters 5 1 ∧
        (s.stileOutside src fn addr (withOp w k)).events.length =
          s.events.length + if (s.fn fn).foreign then 0 else 1) ∧
    (∀ v m, (v, m) ∈ [(StileVerdict.misuse, 2), (.stale, 3), (.future, 4)] →
      stileCheck s src fn addr (withOp w k) = v →
      (s.stileOutside src fn addr (withOp w k)).stile i = { s.stile i with misuse := true } ∧
        (∀ j, j ≠ i → (s.stileOutside src fn addr (withOp w k)).stile j = s.stile j) ∧
        (s.stileOutside src fn addr (withOp w k)).stiles.counters = bumpAt s.stiles.counters m 1) ∧
    (stileCheck s src fn addr (withOp w k) = .late →
      (∀ j, (s.stileOutside src fn addr (withOp w k)).stile j = s.stile j) ∧
        (s.stileOutside src fn addr (withOp w k)).stiles.counters = bumpAt s.stiles.counters 6 1 ∧
        (s.stileOutside src fn addr (withOp w k)).events = s.events) := by
  unfold State.stileOutside
  rw [field_withOp_stile, ← hi]
  refine ⟨fun h => ?_, fun v m hv h => ?_, fun h => ?_⟩ <;> rw [h]
  · exact s.stileVerdict_foreign fn i _
  · simp only [List.mem_cons, Prod.mk.injEq, List.not_mem_nil, or_false] at hv
    obtain ⟨rfl, rfl⟩ | ⟨rfl, rfl⟩ | ⟨rfl, rfl⟩ := hv <;> exact s.counted_misuse i _ _
  · exact ⟨fun _ => rfl, rfl, rfl⟩

end Sys2Proof.Machine

open Sys2Proof Sys2Proof.Machine

/-- Settles O26: each word that passes is one cycle with its one operation. -/
theorem stileOperationsApply : Obligations.StileOperationsApply := by
  unfold Obligations.StileOperationsApply
  rintro s src fn addr w i n rfl
  refine ⟨fun h => ?_, fun h hmax => ?_, fun h hmax => ?_, fun h hmax => ?_⟩ <;>
    refine ⟨_, rfl, ?_⟩ <;> rw [State.stileOutside_of_apply h] <;>
    refine ⟨State.stileApply_same s _ _, ?_⟩ <;> rw [State.stile_stileApply]
  · rw [stileCycle_signal]
    exact ⟨rfl, rfl, rfl⟩
  · rw [stileCycle_consume]
    simp [stileMax, hmax, Nat.not_lt.mpr hmax]
  · rw [stileCycle_set]
    simp [stileMax, hmax, Nat.not_lt.mpr hmax]
  · rw [stileCycle_clear]
    simp [stileMax, hmax, Nat.not_lt.mpr hmax]

/-- Settles O27: the four operations share one check and one table of verdicts. -/
theorem stileChecksRefuse : Obligations.StileChecksRefuse := by
  unfold Obligations.StileChecksRefuse
  rintro s src fn addr w i k c hi (⟨rfl, rfl⟩ | ⟨rfl, rfl⟩ | ⟨rfl, rfl⟩ | ⟨rfl, rfl⟩) <;>
    exact ⟨_, rfl, s.stileOutside_refused src fn addr w i _ hi⟩

/-- Settles O28: a read changes only the register that answers it, the end of a quarantine only its stile. -/
theorem stileReadAndUpkeep : Obligations.StileReadAndUpkeep := by
  unfold Obligations.StileReadAndUpkeep
  intro s fn off size i
  refine ⟨⟨_, rfl, rfl, fun hoff hsize hseen => if_pos ?_, fun hother => if_neg ?_⟩, fun hq hdue => ?_,
      fun hq hdue => ?_,
    ⟨_, rfl, rfl, rfl, rfl⟩, ?_⟩
  · simpa [hoff, hsize] using hseen
  · rintro h
    simp only [Bool.and_eq_true, decide_eq_true_eq] at h
    omega
  · refine ⟨_, rfl, ?_⟩
    rw [if_pos (by simp [hq, hdue])]
    exact ⟨State.stile_setStile s i _, fun k hk => State.stile_setStile_ne s _ hk⟩
  · refine congrArg Host.Outcome.next (if_neg ?_)
    simp [hdue]
  · refine ⟨_, rfl, ?_⟩
    rw [if_neg (by simp)]
    split
    next hbroken => exact ⟨by simpa using hbroken, rfl, rfl⟩
    next => exact ⟨List.mem_append_right _ (List.mem_singleton_self i), rfl, rfl⟩
end

section
/-! PROOFS. The tiles: how a record issues and runs, its waits and its holds, copies and faults (04). -/

namespace Sys2Proof.Machine

/-! ### Scratch -/

theorem find?_cellPut_ne {k a : Nat} (b : Byte) (h : k ≠ a) :
    ∀ m : List Host.Cell, (cellPut m a b).find? (fun c => c.1 == k) = m.find? (fun c => c.1 == k)
  | [] => by simp [cellPut, h.symm]
  | (j, c) :: m => by
    unfold cellPut
    split
    · simp [List.find?_cons, h.symm]
    · split
      next e => simp [h.symm, ← e]
      next => simp [List.find?_cons, find?_cellPut_ne b h m]

theorem find?_cellPutBytes_ne {k : Nat} (bs : List Byte) : ∀ (m : List Host.Cell) (a : Nat),
    k < a ∨ a + bs.length ≤ k → (cellPutBytes m a bs).find? (fun c => c.1 == k) = m.find? (fun c => c.1 == k) := by
  induction bs with
  | nil => intro m a _; rfl
  | cons b bs ih =>
    intro m a h
    rw [List.length_cons] at h
    unfold cellPutBytes
    split
    · rw [ih _ _ (by omega), find?_cellPut_ne b (by omega)]
    · rfl

/-- Writes leave a byte of scratch that none of them covers. -/
theorem find?_writes_ne {k : Nat} : ∀ (ws : List (Nat × List Byte)) (m : List Host.Cell),
    (∀ w ∈ ws, k < w.1 ∨ w.1 + w.2.length ≤ k) →
    (ws.foldl (fun m w => cellPutBytes m w.1 w.2) m).find? (fun c => c.1 == k) = m.find? (fun c => c.1 == k)
  | [], _, _ => rfl
  | w :: ws, m, h => by
    rw [List.foldl_cons, find?_writes_ne ws _ fun x hx => h x (List.mem_cons_of_mem _ hx),
      find?_cellPutBytes_ne _ _ _ (h w List.mem_cons_self)]

/-! ### The list of tiles -/

/-- A tile is read off the list of tiles alone. -/
theorem State.tile_congr {s t : State} (h : t.mesh.tiles = s.mesh.tiles) (k : Nat) : t.tile k = s.tile k := by
  unfold State.tile; rw [h]

/-- Every tile is as it was but for its scoreboard. -/
def SameButBoards (s t : State) : Prop := ∀ k, t.tile k = { s.tile k with board := (t.tile k).board }

theorem SameButBoards.of_tiles {s t : State} (h : t.mesh.tiles = s.mesh.tiles) : SameButBoards s t := fun k => by
  rw [State.tile_congr h k]

theorem SameButBoards.trans {s t u : State} (h : SameButBoards s t) (h' : SameButBoards t u) :
    SameButBoards s u := fun k => by
  rw [h' k, h k]

theorem State.takeBoard_tile (s : State) (i id base len : Nat) : (s.takeBoard i id base len).tile i =
    { s.tile i with board := (s.tile i).board ++ [{ id := id, base := base, len := len, landed := false }] } :=
  State.tile_setTile_of s (x := { s.tile i with board := _ }) (State.tile_id s i)

theorem State.takeBoard_tile_ne (s : State) {i k : Nat} (id base len : Nat) (h : k ≠ i) :
    (s.takeBoard i id base len).tile k = s.tile k :=
  State.tile_setTile_ne s { s.tile i with board := _ } (by rwa [State.tile_id s i])

theorem State.takeBoard_same (s : State) (i id base len : Nat) : SameButBoards s (s.takeBoard i id base len) :=
    fun k => by
  by_cases hk : k = i
  · subst hk
    rw [State.takeBoard_tile]
  · exact (State.takeBoard_tile_ne s id base len hk).symm ▸ rfl

theorem State.takeBoard_entry (s : State) (i id base len : Nat) :
    { id := id, base := base, len := len, landed := false : Landing } ∈ ((s.takeBoard i id base len).tile i).board := by
  rw [State.takeBoard_tile]
  exact List.mem_append_right _ (List.mem_singleton_self _)

theorem State.planSignal_mesh (s : State) (i n : Nat) : (s.planSignal i n).mesh = s.mesh :=
  (kept_planSignal (w := within [.host, .events, .stiles]) (.refl s) rfl rfl rfl).mesh rfl

theorem State.stileApply_mesh (s : State) (i : Nat) (ops : List StileOp) : (s.stileApply i ops).mesh = s.mesh :=
  (kept_stileApply (w := within [.host, .events, .stiles]) (.refl s) rfl rfl rfl).mesh rfl

/-! ### What an opcode does beyond its tile -/

/-- An opcode that does nothing beyond its own tile but signal its SIGDONE. -/
def PlainOp (r : CmdRec) : Prop :=
  (r.opcode = 0x0D → r.ext.testBit 12 = false) ∧ r.opcode ≠ 0x0E ∧ r.opcode ≠ 0x0F ∧ r.opcode ≠ 0x10

theorem State.tileBeyond_plain {r : CmdRec} (h : PlainOp r) (s : State) (tile : Nat) (ti : TileIn) :
    s.tileBeyond tile ti r = if r.sigdone then s.planSignal r.stile r.value else s := by
  obtain ⟨hcopy, hload, hstore, hstile⟩ := h
  unfold State.tileBeyond
  dsimp only
  split
  next e => rw [if_neg (by simp [hcopy e])]
  next e => exact absurd e hload
  next e => exact absurd e hstore
  next e => exact absurd e hstile
  next => rfl

theorem State.tileBeyond_plain_mesh {r : CmdRec} (h : PlainOp r) (s : State) (tile : Nat) (ti : TileIn) :
    (s.tileBeyond tile ti r).mesh = s.mesh := by
  rw [State.tileBeyond_plain h]
  split
  · exact State.planSignal_mesh s _ _
  · rfl

/-- What an opcode does beyond its tile leaves every tile but for the scoreboards. -/
theorem State.tileBeyond_same (s : State) (tile : Nat) (ti : TileIn) (r : CmdRec) :
    SameButBoards s (s.tileBeyond tile ti r) := by
  have hstile (ops : List StileOp) : SameButBoards s (s.stileApply r.stile ops) :=
    .of_tiles (congrArg Mesh.tiles (State.stileApply_mesh s _ ops))
  have hsig : SameButBoards s (if r.sigdone then s.planSignal r.stile r.value else s) := by
    split
    · exact .of_tiles (congrArg Mesh.tiles (State.planSignal_mesh s _ _))
    · exact .of_tiles rfl
  unfold State.tileBeyond
  dsimp only
  split
  · split
    · exact (SameButBoards.of_tiles rfl).trans (State.takeBoard_same _ _ _ _ _)
    · exact hsig
  · exact (SameButBoards.of_tiles rfl).trans ((State.takeBoard_same _ _ _ _ _).trans (State.takeBoard_same _ _ _ _ _))
  · exact .of_tiles rfl
  · split <;> exact hstile _
  · exact hsig

/-! ### The run of a record -/

/-- A tile once a record has run on it. -/
def State.ranTile (s : State) (tile cycle : Nat) (held : Bool) (r : CmdRec) : Tile :=
  let t := s.tile tile
  let o := tileEffect { epoch := s.mesh.epoch, tile := t } r
  { t with
    scratch := if t.fenced then t.scratch else o.writes.foldl (fun m w => cellPutBytes m w.1 w.2) t.scratch
    sel := o.sel
    part := o.part
    lastDone := max (max r.issue t.lastDone) cycle + cmdCost r
    counts := o.counts
    hold := held }

/-- The state once a record has run on its own tile and its counts are latched. -/
def State.ranAlone (s : State) (tile cycle : Nat) (held : Bool) (r : CmdRec) : State :=
  (s.setTile (s.ranTile tile cycle held r)).latchTile (s.ranTile tile cycle held r).counts held

theorem State.ranTile_id (s : State) (tile cycle : Nat) (held : Bool) (r : CmdRec) :
    (s.ranTile tile cycle held r).id = tile := State.tile_id s tile

theorem State.ranAlone_mesh (s : State) (tile cycle : Nat) (held : Bool) (r : CmdRec) :
    (s.ranAlone tile cycle held r).mesh = (s.setTile (s.ranTile tile cycle held r)).mesh := by
  unfold State.ranAlone State.latchTile
  simp only [State.total_mesh]

theorem State.ranAlone_kept (s : State) (tile cycle : Nat) (held : Bool) (r : CmdRec) :
    Kept (within [.mesh, .obs]) s (s.ranAlone tile cycle held r) := by
  unfold State.ranAlone
  exact kept_latchTile (kept_setTile (.refl s) rfl) rfl

theorem State.tile_ranAlone (s : State) (tile cycle : Nat) (held : Bool) (r : CmdRec) :
    (s.ranAlone tile cycle held r).tile tile = s.ranTile tile cycle held r := by
  rw [State.tile_congr (congrArg Mesh.tiles (s.ranAlone_mesh tile cycle held r)),
    State.tile_setTile_of s (s.ranTile_id tile cycle held r)]

theorem State.tile_ranAlone_ne (s : State) {tile k : Nat} (cycle : Nat) (held : Bool) (r : CmdRec) (h : k ≠ tile) :
    (s.ranAlone tile cycle held r).tile k = s.tile k := by
  rw [State.tile_congr (congrArg Mesh.tiles (s.ranAlone_mesh tile cycle held r)),
    State.tile_setTile_ne s _ (by rwa [s.ranTile_id])]

/-- A run is the run on the tile and what the opcode does beyond it; the rest is trace. -/
theorem State.tileRun_kept (s : State) (tile cycle : Nat) (held : Bool) (r : CmdRec) :
    Kept (within [.obs])
      (if (s.tile tile).fenced then s.ranAlone tile cycle held r
        else (s.ranAlone tile cycle held r).tileBeyond tile { epoch := s.mesh.epoch, tile := s.tile tile } r)
      (s.tileRun tile cycle held r) := by
  unfold State.tileRun
  dsimp only
  exact .ite (kept_traceEnd (kept_traceBegin (.refl _) rfl) rfl) (.refl _)

theorem State.tileRun_same (s : State) (tile cycle : Nat) (held : Bool) (r : CmdRec) :
    SameButBoards (s.ranAlone tile cycle held r) (s.tileRun tile cycle held r) := by
  refine SameButBoards.trans ?_ (.of_tiles (congrArg Mesh.tiles ((s.tileRun_kept tile cycle held r).mesh rfl)))
  split
  · exact .of_tiles rfl
  · exact State.tileBeyond_same _ _ _ _

/-- The tile after a run is the tile that ran, but for its scoreboard. -/
theorem State.tile_tileRun (s : State) (tile cycle : Nat) (held : Bool) (r : CmdRec) :
    (s.tileRun tile cycle held r).tile tile =
      { s.ranTile tile cycle held r with board := ((s.tileRun tile cycle held r).tile tile).board } := by
  rw [s.tileRun_same tile cycle held r tile, State.tile_ranAlone]

/-- A run whose effect writes nothing leaves every byte of scratch. -/
theorem State.tileRun_scratch {s : State} {tile : Nat} {r : CmdRec}
    (h : (tileEffect { epoch := s.mesh.epoch, tile := s.tile tile } r).writes = []) (cycle : Nat) (held : Bool)
        (k : Nat) :
    ((s.tileRun tile cycle held r).tile k).scratch = (s.tile k).scratch := by
  rw [s.tileRun_same tile cycle held r k]
  by_cases hk : k = tile
  · subst hk
    rw [State.tile_ranAlone]
    show (if _ then _ else List.foldl _ _ (tileEffect _ r).writes) = _
    rw [h]
    exact ite_self _
  · rw [State.tile_ranAlone_ne s cycle held r hk]

/-- A plain opcode changes the mesh by what happened on its tile. -/
theorem State.tileRun_plain_mesh (s : State) (tile cycle : Nat) (held : Bool) {r : CmdRec} (h : PlainOp r) :
    (s.tileRun tile cycle held r).mesh = (s.setTile (s.ranTile tile cycle held r)).mesh := by
  rw [(s.tileRun_kept tile cycle held r).mesh rfl, ← s.ranAlone_mesh]
  split
  · rfl
  · exact State.tileBeyond_plain_mesh h _ _ _

/-- Without SIGDONE a plain opcode leaves every stile. -/
theorem State.tileRun_plain_stiles (s : State) (tile cycle : Nat) (held : Bool) {r : CmdRec} (h : PlainOp r)
    (hsig : r.sigdone = false) : (s.tileRun tile cycle held r).stiles = s.stiles := by
  rw [(s.tileRun_kept tile cycle held r).stiles rfl, State.tileBeyond_plain h,
      if_neg (c := r.sigdone = true) (by simp [hsig]),
    ite_self]
  exact (s.ranAlone_kept tile cycle held r).stiles rfl

/-- A tile that is not fenced runs its record as Tables TL-8 and TL-9 say. -/
theorem State.tileRun_ran {s : State} {tile : Nat} {r : CmdRec} (hplain : PlainOp r)
    (hqueue : (s.tile tile).queue = []) (hfence : (s.tile tile).fenced = false) :
    TileRan s (s.tileRun tile 0 false r) tile r (tileEffect { epoch := s.mesh.epoch, tile := s.tile tile } r) := by
  have hmesh := s.tileRun_plain_mesh tile 0 false hplain
  have htile : (s.tileRun tile 0 false r).tile tile = s.ranTile tile 0 false r := by
    rw [State.tile_congr (congrArg Mesh.tiles hmesh)]
    exact State.tile_setTile_of s (State.tile_id s tile)
  have hscratch : (s.ranTile tile 0 false r).scratch =
      (tileEffect { epoch := s.mesh.epoch, tile := s.tile tile } r).writes.foldl
        (fun m w => cellPutBytes m w.1 w.2) (s.tile tile).scratch := if_neg (by simp [hfence])
  refine ⟨?_, ?_, ?_, ?_, ?_, ?_, fun k hk => ?_, fun a ha => ?_⟩
  · rw [htile, hscratch]
  · rw [htile]; rfl
  · rw [htile]; rfl
  · rw [htile]; rfl
  · rw [htile]; exact congrArg (· + cmdCost r) (Nat.max_zero _)
  · rw [htile]; exact ⟨hqueue, hfence⟩
  · rw [State.tile_congr (congrArg Mesh.tiles hmesh), State.tile_setTile_ne s _ (by rwa [s.ranTile_id])]
  · rw [htile, hmesh]
    unfold scratchByte
    rw [hscratch, find?_writes_ne _ _ ha]
    rfl

/-! ### Issue -/

/-- What readiness says, part by part. -/
theorem State.tileReady_iff (s : State) (tile : Nat) (r : CmdRec) : s.tileReady tile r = true ↔
    s.running = true ∧ tile < 4096 ∧ cmdOk r = true ∧ (s.tile tile).queue = [] ∧ (s.tile tile).fenced = false ∧
      landingPending (s.tile tile) r = false := by
  simp only [State.tileReady, Bool.and_eq_true, Bool.not_eq_true', decide_eq_true_eq, List.isEmpty_iff, and_assoc]

section
variable {s : State} {tile : Nat} {r : CmdRec} (hready : s.tileReady tile r = true)
include hready

theorem State.tileIssue_of_ready : s.tileIssue tile r = (s.tileTry tile 0 false r).getD
    (s.setTile { s.tile tile with queue := [r], held := decide (r.opcode ≠ 0x11) }) := by
  obtain ⟨hrun, htile, hok, hqueue, _, _⟩ := (s.tileReady_iff tile r).1 hready
  unfold State.tileIssue
  rw [if_neg (by simp [hrun, hok, htile])]
  dsimp only
  rw [if_neg (by simp [hqueue])]
  cases s.tileTry tile 0 false r with
  | some x => rfl
  | none => by_cases hop : r.opcode = 0x11 <;> simp [hop]

/-- A record that is no WAIT runs as it arrives. -/
theorem State.tileIssue_run (hop : r.opcode ≠ 0x11) : s.tileIssue tile r = s.tileRun tile 0 false r := by
  obtain ⟨_, _, _, _, _, hland⟩ := (s.tileReady_iff tile r).1 hready
  rw [State.tileIssue_of_ready hready, State.tileTry, if_neg hop, if_neg (by simp [hland]), Option.getD_some]

/-- A ready tile runs a plain command with the effect of its opcode. -/
theorem State.tileIssue_ran (hop : r.opcode ≠ 0x11) (hplain : PlainOp r) :
    TileRan s (s.tileIssue tile r) tile r (tileEffect { epoch := s.mesh.epoch, tile := s.tile tile } r) ∧
      (s.tileIssue tile r).mesh.copies = s.mesh.copies ∧
      (r.sigdone = false → (s.tileIssue tile r).stiles = s.stiles) := by
  obtain ⟨_, _, _, hqueue, hfence, _⟩ := (s.tileReady_iff tile r).1 hready
  rw [State.tileIssue_run hready hop]
  exact ⟨State.tileRun_ran hplain hqueue hfence, (congrArg Mesh.copies
      (s.tileRun_plain_mesh tile 0 false hplain)).trans rfl,
    s.tileRun_plain_stiles tile 0 false hplain⟩

/-- What a ready record that is no WAIT does beyond its tile. -/
theorem State.tileIssue_kept (hop : r.opcode ≠ 0x11) : Kept (within [.obs])
    ((s.ranAlone tile 0 false r).tileBeyond tile { epoch := s.mesh.epoch, tile := s.tile tile } r)
        (s.tileIssue tile r) := by
  obtain ⟨_, _, _, _, hfence, _⟩ := (s.tileReady_iff tile r).1 hready
  have h := s.tileRun_kept tile 0 false r
  rw [if_neg (by simp [hfence])] at h
  rwa [State.tileIssue_run hready hop]

end

theorem withSelreg_testBit (fs : Nat) (on : Bool) : (withSelreg fs on).testBit 1 = on := by
  unfold withSelreg
  split
  next h => exact h
  next h =>
    rw [Nat.testBit_eq_decide_div_mod_eq] at h ⊢
    cases on <;> simp at h ⊢ <;> omega

theorem withRemote_testBit (ext : Nat) (on : Bool) : (withRemote ext on).testBit 12 = on := by
  unfold withRemote
  split
  next h => exact h
  next h =>
    rw [Nat.testBit_eq_decide_div_mod_eq] at h ⊢
    cases on <;> simp at h ⊢ <;> omega

theorem tileEffect_topkArray {q : CmdRec} (hop : q.opcode = 0x09) (h : q.selreg = false) (ti : TileIn) :
    tileEffect ti q = effTopkArray ti q := by simp [tileEffect, hop, h]

theorem tileEffect_topkRegister {q : CmdRec} (hop : q.opcode = 0x09) (h : q.selreg = true) (ti : TileIn) :
    tileEffect ti q = effTopkRegister ti q := by simp [tileEffect, hop, h]

theorem tileEffect_copyLocal {q : CmdRec} (hop : q.opcode = 0x0D) (h : q.ext.testBit 12 = false) (ti : TileIn) :
    tileEffect ti q = effCopyLocal ti q := by simp [tileEffect, hop, h]

/-! ### Stiles and waits of a tile -/

theorem field_extMode {ext m : Nat} (h : m < 4) : field (extMode ext m) 0 2 = m := by
  simp only [field, extMode, Nat.shiftRight_zero]
  omega

/-- A WAIT has no flags (Table TL-8), so it signals nothing when it is done. -/
theorem sigdone_of_wait {r : CmdRec} (hop : r.opcode = 0x11) (hok : cmdOk r = true) : r.sigdone = false := by
  unfold cmdOk at hok
  simp only [Bool.and_eq_true, and_assoc] at hok
  obtain ⟨hflags, -⟩ := hok
  simp only [flagsAllowed, hop, Bool.and_eq_true, decide_eq_true_eq] at hflags
  obtain ⟨⟨hzero, -⟩, -⟩ := hflags
  have h0 : r.flags = 0 := by simpa using hzero.symm
  simp [CmdRec.sigdone, h0]

theorem plainOp_of_wait {r : CmdRec} (hop : r.opcode = 0x11) : PlainOp r := by simp [PlainOp, hop]

end Sys2Proof.Machine

open Sys2Proof Sys2Proof.Machine

/-- Settles O15: on a ready tile each opcode runs at once with its effect (`State.tileIssue_ran`). -/
theorem tileComputeCommandsRun : Obligations.TileComputeCommandsRun := by
  unfold Obligations.TileComputeCommandsRun
  intro s tile r run
  have ran {c : Instr} {q : CmdRec} {o : TileIn → TileOut} (hexec : exec c s = .next (s.tileIssue tile q))
      (hop : q.opcode ≤ 0x0D) (hlocal : q.opcode = 0x0D → q.ext.testBit 12 = false)
      (heffect : ∀ ti, tileEffect ti q = o ti) : run c q o := fun hready => by
    refine ⟨_, hexec, ?_⟩
    rw [← heffect]
    exact State.tileIssue_ran hready (by omega) ⟨hlocal, by omega, by omega, by omega⟩
  clear_value run
  have selreg (on : Bool) : ({ r with opcode := 0x09, flags := withSelreg r.flags on } : CmdRec).selreg = on :=
    withSelreg_testBit r.flags on
  have onTile : ({ r with opcode := 0x0D, ext := withRemote r.ext false } : CmdRec).ext.testBit 12 = false :=
    withRemote_testBit r.ext false
  refine ⟨ran rfl ?_ ?_ fun _ => rfl, ran rfl ?_ ?_ fun _ => rfl, ran rfl ?_ ?_ fun _ => rfl,
      ran rfl ?_ ?_ fun _ => rfl,
    ran rfl ?_ ?_ fun _ => rfl, ran rfl ?_ ?_ fun _ => rfl, ran rfl ?_ ?_ fun _ => rfl, ran rfl ?_ ?_ fun _ => rfl,
    ran rfl ?_ ?_ fun _ => rfl, ran rfl ?_ ?_ fun _ => rfl,
    ran rfl ?_ ?_ fun ti => tileEffect_topkArray rfl (selreg false) ti,
    ran rfl ?_ ?_ fun ti => tileEffect_topkRegister rfl (selreg true) ti,
    ran rfl ?_ ?_ fun _ => rfl, ran rfl ?_ ?_ fun _ => rfl, ran rfl ?_ ?_ fun _ => rfl,
    ran rfl ?_ ?_ fun ti => tileEffect_copyLocal rfl onTile ti⟩ <;>
    simp [withRemote_testBit]
end

section
/-! PROOFS. Copies, sheaf commands, stiles, waits and faults of the tiles (R96, R116–R118, R290, Table TL-9). -/

namespace Sys2Proof.Machine

theorem State.ranAlone_stiles (s : State) (tile cycle : Nat) (held : Bool) (r : CmdRec) :
    (s.ranAlone tile cycle held r).stiles = s.stiles := (s.ranAlone_kept tile cycle held r).stiles rfl

theorem State.ranAlone_tiers (s : State) (tile cycle : Nat) (held : Bool) (r : CmdRec) :
    (s.ranAlone tile cycle held r).tiers = s.tiers := (s.ranAlone_kept tile cycle held r).tiers rfl

theorem State.ranAlone_t1 (s : State) (tile cycle : Nat) (held : Bool) (r : CmdRec) :
    (s.ranAlone tile cycle held r).t1 = s.t1 := (s.ranAlone_kept tile cycle held r).t1 rfl

/-- A run on a tile sends no copy of its own and takes no landing number. -/
theorem State.ranAlone_copies (s : State) (tile cycle : Nat) (held : Bool) (r : CmdRec) :
    (s.ranAlone tile cycle held r).mesh.copies = s.mesh.copies ∧
      (s.ranAlone tile cycle held r).mesh.nextId = s.mesh.nextId := by
  rw [s.ranAlone_mesh]
  exact ⟨rfl, rfl⟩

/-! ### Landings -/

theorem State.boardLanded_tile (s : State) (i id : Nat) : (s.boardLanded i id).tile i =
    { s.tile i with board := (s.tile i).board.map fun l => if l.id = id then { l with landed := true } else l } :=
  State.tile_setTile_of s (x := { s.tile i with board := _ }) (State.tile_id s i)

theorem State.boardLanded_tile_ne (s : State) {i k : Nat} (id : Nat) (h : k ≠ i) :
    (s.boardLanded i id).tile k = s.tile k :=
  State.tile_setTile_ne s { s.tile i with board := _ } (by rwa [State.tile_id s i])

theorem State.boardLanded_copies (s : State) (i id : Nat) : (s.boardLanded i id).mesh.copies = s.mesh.copies := rfl

theorem landed_of_mem_boardLanded {s : State} {i id : Nat} {l : Landing} (h : l ∈ ((s.boardLanded i id).tile i).board)
    (hid : l.id = id) : l.landed = true := by
  rw [State.boardLanded_tile] at h
  obtain ⟨m, -, rfl⟩ := List.mem_map.1 h
  by_cases hm : m.id = id
  · rw [if_pos hm]
  · rw [if_neg hm] at hid
    exact absurd hid hm

/-- The bytes of a copy in its destination, none when they are poisoned (R391). -/
def State.placeCopy (s : State) (c : RemoteCopy) : State :=
  let t := s.tile c.dst
  if c.poisoned then s else s.setTile { t with scratch := cellPutBytes t.scratch c.addr c.bytes }

theorem State.placeCopy_tile (s : State) (c : RemoteCopy) : ((s.placeCopy c).tile c.dst).scratch =
    if c.poisoned then (s.tile c.dst).scratch else cellPutBytes (s.tile c.dst).scratch c.addr c.bytes := by
  unfold State.placeCopy
  split
  · rfl
  · rw [State.tile_setTile_of]
    exact State.tile_id s c.dst

theorem State.placeCopy_tile_ne (s : State) (c : RemoteCopy) {k : Nat} (h : k ≠ c.dst) :
    (s.placeCopy c).tile k = s.tile k := by
  unfold State.placeCopy
  split
  · rfl
  · rw [State.tile_setTile_ne]
    rwa [show Tile.id _ = c.dst from State.tile_id s c.dst]

theorem State.placeCopy_copies (s : State) (c : RemoteCopy) : (s.placeCopy c).mesh.copies = s.mesh.copies := by
  unfold State.placeCopy
  split <;> rfl

/-- A landing: the copy leaves the list, its bytes arrive, its entry is marked, and its stile is signalled. -/
theorem exec_remoteCopyLanding {s : State} {id : Nat} {c : RemoteCopy}
    (h : (s.mesh.copies.find? fun x => x.id == id) = some c) :
    ∃ t, exec (.remoteCopyLanding id) s = .next t ∧ t.mesh =
      ((({ s with mesh := { s.mesh with copies := s.mesh.copies.filter fun x => x.id != id } }).placeCopy c).boardLanded
        c.dst id).mesh := by
  refine ⟨_, show execRemoteCopyLanding id s = _ by unfold execRemoteCopyLanding; rw [h], ?_⟩
  dsimp only
  split
  · exact State.planSignal_mesh _ _ _
  · rfl

/-! ### The queue -/

theorem State.tileDrain_one {s s' : State} {tile cycle : Nat} {r : CmdRec} (hqueue : (s.tile tile).queue = [r])
    (htry : (s.setTile { s.tile tile with queue := [], held := false }).tileTry tile cycle (s.tile tile).held r =
        some s') :
    s.tileDrain tile 1 cycle = s' := by
  unfold State.tileDrain
  dsimp only
  rw [hqueue]
  dsimp only
  rw [htry]
  rfl

/-- The state once the one record of a tile's queue has left it. -/
theorem State.tile_dequeued (s : State) (tile : Nat) :
    (s.setTile { s.tile tile with queue := [], held := false }).tile tile =
      { s.tile tile with queue := [], held := false } :=
  State.tile_setTile_of s (x := { s.tile tile with queue := [], held := false }) (State.tile_id s tile)

/-- When the one record that waits gives way, it runs on the tile without it. -/
theorem State.tileDrain_run {s : State} {tile cycle : Nat} {r : CmdRec} (hqueue : (s.tile tile).queue = [r])
    (htry : (s.setTile { s.tile tile with queue := [], held := false }).tileTry tile cycle (s.tile tile).held r =
      some ((s.setTile { s.tile tile with queue := [], held := false }).tileRun tile cycle (s.tile tile).held r)) :
    ((s.tileDrain tile 1 cycle).tile tile).queue = [] ∧
      ((s.tileDrain tile 1 cycle).tile tile).hold = (s.tile tile).held ∧
      ((s.tileDrain tile 1 cycle).tile tile).lastDone = max (max r.issue (s.tile tile).lastDone) cycle + cmdCost r := by
  rw [State.tileDrain_one hqueue htry, State.tile_tileRun]
  unfold State.ranTile
  rw [State.tile_dequeued]
  exact ⟨rfl, rfl, rfl⟩

theorem cmdCost_wait {r : CmdRec} (hop : r.opcode = 0x11) : cmdCost r = 3 := by simp [cmdCost, hop]

theorem tileEffect_writes {r : CmdRec} (hop : r.opcode = 0x0E ∨ r.opcode = 0x0F ∨ r.opcode = 0x10 ∨ r.opcode = 0x11)
    (ti : TileIn) : (tileEffect ti r).writes = [] := by
  obtain h | h | h | h := hop <;> simp [tileEffect, h, TileIn.out]

theorem State.tileIssue_scratch {s : State} {tile : Nat} {r : CmdRec} (hready : s.tileReady tile r = true)
    (hop : r.opcode = 0x0E ∨ r.opcode = 0x0F ∨ r.opcode = 0x10) (k : Nat) :
    ((s.tileIssue tile r).tile k).scratch = (s.tile k).scratch := by
  rw [State.tileIssue_run hready (by omega)]
  exact State.tileRun_scratch (tileEffect_writes (by omega) _) 0 false k

theorem State.tileBeyond_signal {r : CmdRec} {tile : Nat} (hop : r.opcode = 0x10) (hmode : field r.ext 0 2 = 0)
    (s : State)
    (ti : TileIn) : s.tileBeyond tile ti r = s.stileApply r.stile [.signal r.value] := by
  simp [State.tileBeyond, hop, hmode]

theorem State.tileBeyond_consume {r : CmdRec} {tile : Nat} (hop : r.opcode = 0x10) (hmode : field r.ext 0 2 = 1)
    (s : State)
    (ti : TileIn) : s.tileBeyond tile ti r = s.stileApply r.stile [.consume r.value] := by
  simp [State.tileBeyond, hop, hmode]

theorem State.tileBeyond_set {r : CmdRec} {tile : Nat} (hop : r.opcode = 0x10) (hmode : field r.ext 0 2 = 2) (s : State)
    (ti : TileIn) : s.tileBeyond tile ti r = s.stileApply r.stile [.set r.value] := by
  simp [State.tileBeyond, hop, hmode]

/-- A SIGNAL, CONSUME or SET of a tile is one cycle of the stile engine on its stile. -/
theorem tileStile_ready {s : State} {tile : Nat} {q : CmdRec} {c : Instr} {op : StileOp} (hq : q.opcode = 0x10)
    (hexec : exec c s = .next (s.tileIssue tile q))
    (hready : s.tileReady tile q = true)
    (hbeyond : ∀ (x : State) (ti : TileIn), x.tileBeyond tile ti q = x.stileApply q.stile [op]) :
    ∃ t, exec c s = .next t ∧ (t.stile q.stile).count = (stileCycle (s.stile q.stile) [op]).1.count ∧
      (t.tile tile).scratch = (s.tile tile).scratch ∧ ∀ k, k ≠ q.stile → t.stile k = s.stile k := by
  have hne : q.opcode ≠ 0x11 := by simp [hq]
  have hk := State.tileIssue_kept hready hne
  rw [hbeyond] at hk
  have hstiles (k : Nat) := State.stile_congr (congrArg StileEngine.table (hk.stiles rfl)) k
  have hsame (k : Nat) : (s.ranAlone tile 0 false q).stile k = s.stile k :=
    State.stile_congr (congrArg StileEngine.table (s.ranAlone_stiles tile 0 false q)) k
  refine ⟨_, hexec, ?_, ?_, fun k hk => ?_⟩
  · rw [hstiles, State.stile_stileApply, hsame]
  · exact State.tileIssue_scratch hready (.inr (.inr hq)) tile
  · rw [hstiles, State.stile_stileApply_ne _ _ hk, hsame]

/-! ### Waits -/

section
variable {s : State} {tile : Nat} {r : CmdRec} (hready : s.tileReady tile r = true) (hop : r.opcode = 0x11)
include hready hop

/-- A WAIT whose condition holds as it arrives takes its amount, if it takes one, and is done. -/
theorem State.tileIssue_wait (hholds : s.waitHolds tile r = true) :
    (s.tileIssue tile r).stiles =
        (if r.ext.testBit 0 && r.value ≠ 0 then s.stileApply r.stile [.consume r.value] else s).stiles ∧
      ((s.tileIssue tile r).tile tile).scratch = (s.tile tile).scratch ∧ ((s.tileIssue tile r).tile tile).queue = [] ∧
      ((s.tileIssue tile r).tile tile).lastDone = max r.issue (s.tile tile).lastDone + 3 := by
  obtain ⟨_, _, hok, hqueue, _, _⟩ := (s.tileReady_iff tile r).1 hready
  rw [State.tileIssue_of_ready hready, State.tileTry, if_pos hop, if_pos hholds]
  dsimp only [Option.getD_some]
  generalize hs : (if r.ext.testBit 0 && r.value ≠ 0 then s.stileApply r.stile [.consume r.value] else s) = x
  have htile : x.tile tile = s.tile tile := by
    rw [← hs]
    split
    · exact State.tile_congr (congrArg Mesh.tiles (s.stileApply_mesh _ _)) tile
    · rfl
  have hplain := plainOp_of_wait hop
  refine ⟨x.tileRun_plain_stiles tile 0 false hplain (sigdone_of_wait hop hok), ?_⟩
  rw [State.tileRun_scratch (tileEffect_writes (.inr (.inr (.inr hop))) _), State.tile_tileRun, ← cmdCost_wait hop,
    ← Nat.max_zero (max r.issue (s.tile tile).lastDone), htile, ← hqueue, ← htile]
  exact ⟨rfl, rfl, rfl⟩

/-- A WAIT whose condition does not hold waits at the head of the queue. -/
theorem State.tileIssue_waits (hholds : s.waitHolds tile r = false) :
    (s.tileIssue tile r).stiles = s.stiles ∧
      ((s.tileIssue tile r).tile tile).scratch = (s.tile tile).scratch ∧ ((s.tileIssue tile r).tile tile).queue = [r] ∧
      ((s.tileIssue tile r).tile tile).lastDone = (s.tile tile).lastDone := by
  rw [State.tileIssue_of_ready hready, State.tileTry, if_pos hop, if_neg (by simp [hholds])]
  dsimp only [Option.getD_none]
  rw [State.tile_setTile_of s (x := { s.tile tile with queue := [r], held := decide (r.opcode ≠ 0x11) })
    (State.tile_id s tile)]
  exact ⟨rfl, rfl, rfl, rfl⟩

end

theorem exec_stileWaitSatisfied_burrow {s : State} {b k n cycle : Nat} (hrun : s.running = true)
    (hwait : (s.burrow b).wait = .stile k n) (hholds : s.stileHolds k n = true) :
    exec (.stileWaitSatisfied (.burrow b) cycle) s = .next (s.setBurrow { s.burrow b with wait := .none }) := by
  refine (show exec _ s = execStileWaitSatisfied (.burrow b) cycle s from rfl).trans ?_
  simp [execStileWaitSatisfied, hwait, hrun, hholds]

/-- The entries of a tile's scoreboard whose landing has completed are released. -/
def State.releaseBoard (s : State) (tile : Nat) : State :=
  s.setTile { s.tile tile with board := (s.tile tile).board.filter fun l => !l.landed }

theorem State.releaseBoard_tile (s : State) (tile : Nat) : (s.releaseBoard tile).tile tile =
    { s.tile tile with board := (s.tile tile).board.filter fun l => !l.landed } :=
  State.tile_setTile_of s (x := { s.tile tile with board := _ }) (State.tile_id s tile)

theorem exec_scoreboardRelease (s : State) (tile cycle : Nat) :
    ∃ t, exec (.scoreboardRelease tile cycle) s = .next t ∧ t =
      if s.running then (s.releaseBoard tile).tileDrain tile
          (s.tile tile).queue.length cycle else s.releaseBoard tile :=
  ⟨_, rfl, rfl⟩

/-! ### Faults -/

/-- A part that is fenced stands in the list, and the fence changes nothing else. -/
theorem State.mem_fence (s : State) (p : Part) : p ∈ (s.fence p).faults.fenced := by
  unfold State.fence
  split
  next h => simpa using h
  next => exact List.mem_append_right _ (List.mem_singleton_self p)

theorem State.fence_kept (s : State) (p : Part) : Kept (within [.faults]) s (s.fence p) := kept_fence (.refl s) rfl

theorem exec_tileFault_corrected {s : State} {tile : Nat} (htile : ¬ tile ≥ 4096) :
    exec (.tileFault tile (.corrected false)) s = .next ((s.setTile { s.tile tile with
      counts := addCounts (s.tile tile).counts { Counts0 with ecc := 1 } }).total 5 1) := if_neg htile

/-- A fault that takes a tile out of work. -/
def State.tileFails (s : State) (tile : Nat) : State :=
  ((s.setTile { s.tile tile with fenced := true }).fence (.tile (s.physTile tile).1 (s.physTile tile).2)).raiseNamed
    .tileFault [(s.physTile tile).1, (s.physTile tile).2, tile]

theorem exec_tileFault_fails {s : State} {tile : Nat} {k : TileFaultKind} (htile : ¬ tile ≥ 4096)
    (hk : k = .double ∨ k = .parity ∨ k = .residue) : exec (.tileFault tile k) s = .next (s.tileFails tile) := by
  obtain rfl | rfl | rfl := hk <;> exact if_neg htile

end Sys2Proof.Machine

open Sys2Proof Sys2Proof.Machine

/-- Settles O16: what a copy or a sheaf command does beyond its tile (`State.tileIssue_kept`), and its landing. -/
theorem tileCopiesAndSheafCommands : Obligations.TileCopiesAndSheafCommands := by
  unfold Obligations.TileCopiesAndSheafCommands
  intro s tile r
  refine ⟨?_, ?_, ?_, ?_⟩
  · rintro q rfl hready
    have hremote := withRemote_testBit r.ext true
    obtain ⟨_, _, _, _, hfence, _⟩ := (s.tileReady_iff tile _).1 hready
    have hk := State.tileIssue_kept hready (by simp)
    obtain ⟨hcopies, hnext⟩ := s.ranAlone_copies tile 0 false { r with opcode := 0x0D, ext := withRemote r.ext true }
    unfold State.tileBeyond at hk
    dsimp only at hk
    rw [if_pos hremote, hfence, hnext, hcopies] at hk
    refine ⟨_, _, rfl, congrArg Mesh.copies (hk.mesh rfl), rfl, rfl, rfl, rfl, rfl, rfl, ?_, fun k => ?_⟩
    · rw [State.tile_congr (congrArg Mesh.tiles (hk.mesh rfl))]
      exact State.takeBoard_entry _ _ _ _ _
    · rw [State.tileIssue_run hready (by simp)]
      refine State.tileRun_scratch ?_ 0 false k
      simp [tileEffect, hremote, TileIn.out]
  · rintro q rfl hready
    have hk := State.tileIssue_kept hready (by simp)
    unfold State.tileBeyond at hk
    dsimp only at hk
    rw [s.ranAlone_tiers] at hk
    refine ⟨_, _, rfl, congrArg Tiers.moves (hk.tiers rfl), rfl, rfl, rfl, rfl, rfl, rfl, rfl, fun k => ?_⟩
    exact State.tileIssue_scratch hready (by simp) k
  · rintro q rfl hready
    have hk := State.tileIssue_kept hready (by simp)
    unfold State.tileBeyond at hk
    dsimp only at hk
    rw [s.ranAlone_tiers, s.ranAlone_t1] at hk
    refine ⟨_, _, rfl, congrArg Tiers.moves (hk.tiers rfl), rfl, rfl, rfl, rfl, rfl, hk.t1 rfl, fun k => ?_⟩
    exact State.tileIssue_scratch hready (by simp) k
  · intro id c hc
    obtain ⟨t, hexec, hmesh⟩ := exec_remoteCopyLanding hc
    have htile (k : Nat) := State.tile_congr (congrArg Mesh.tiles hmesh) k
    refine ⟨t, hexec, ?_, ?_, ?_, fun k hk => ?_⟩
    · intro x hx
      rw [hmesh, State.boardLanded_copies, State.placeCopy_copies] at hx
      simpa using (List.mem_filter.1 hx).2
    · rw [htile, State.boardLanded_tile]
      exact State.placeCopy_tile _ c
    · rw [htile]
      exact fun l hl => landed_of_mem_boardLanded hl
    · rw [htile, State.boardLanded_tile_ne _ _ hk, State.placeCopy_tile_ne _ _ hk]
      rfl

/-- Settles O17: SIGNAL, CONSUME and SET through `tileStile_ready`, the two WAITs through `tileIssue_wait`. -/
theorem tileStileCommands : Obligations.TileStileCommands := by
  unfold Obligations.TileStileCommands
  intro s tile r
  refine ⟨fun h => ?_, fun h => ?_, fun h => ?_, ?_, ?_⟩
  · obtain ⟨t, hexec, hcount, hrest⟩ := tileStile_ready (c := .tileSignal tile r) rfl rfl h
      (State.tileBeyond_signal rfl (field_extMode (by decide)))
    rw [stileCycle_signal] at hcount
    exact ⟨t, hexec, hcount, hrest⟩
  · obtain ⟨t, hexec, hcount, hrest⟩ := tileStile_ready (c := .tileConsume tile r) rfl rfl h
      (State.tileBeyond_consume rfl (field_extMode (by decide)))
    rw [stileCycle_consume] at hcount
    exact ⟨t, hexec, hcount, hrest⟩
  · obtain ⟨t, hexec, hcount, hrest⟩ := tileStile_ready (c := .tileSet tile r) rfl rfl h
      (State.tileBeyond_set rfl (field_extMode (by decide)))
    rw [stileCycle_set] at hcount
    exact ⟨t, hexec, hcount, hrest⟩
  · rintro q rfl hready
    have hbit : (r.ext / 2 * 2).testBit 0 = false := by simp [Nat.testBit_zero]
    refine ⟨_, rfl, ?_⟩
    by_cases hholds : s.waitHolds tile { r with opcode := 0x11, ext := r.ext / 2 * 2 } = true
    · obtain ⟨hstiles, hscratch, hqueue, hdone⟩ := State.tileIssue_wait hready rfl hholds
      rw [if_neg (by simp [hbit])] at hstiles
      exact ⟨hstiles, hscratch, fun _ => ⟨hqueue, hdone⟩, fun h => by simp [h] at hholds⟩
    · obtain ⟨hstiles, hscratch, hqueue, hdone⟩ := State.tileIssue_waits hready rfl (by simpa using hholds)
      exact ⟨hstiles, hscratch, fun h => absurd h hholds, fun _ => ⟨hqueue, hdone⟩⟩
  · rintro q rfl hready
    have hbit : (r.ext / 2 * 2 + 1).testBit 0 = true := by simp [Nat.testBit_zero]
    refine ⟨_, rfl, ?_⟩
    by_cases hholds : s.waitHolds tile { r with opcode := 0x11, ext := r.ext / 2 * 2 + 1 } = true
    · obtain ⟨hstiles, hscratch, hqueue, -⟩ := State.tileIssue_wait hready rfl hholds
      refine ⟨hscratch, fun _ => ⟨hqueue, ?_⟩, fun h => by simp [h] at hholds⟩
      rw [State.stile_congr (congrArg StileEngine.table hstiles)]
      by_cases hv : r.value = 0
      · rw [if_neg (by simp [hv]), if_pos hv]
      · rw [if_pos (by simp [hbit, hv]), if_neg hv, State.stile_stileApply, stileCycle_consume]
    · obtain ⟨hstiles, hscratch, hqueue, -⟩ := State.tileIssue_waits hready rfl (by simpa using hholds)
      exact ⟨hscratch, fun h => absurd h hholds, fun _ => ⟨hqueue, hstiles⟩⟩

/-- Settles O18: a wait that gives way and a hold that is released run the record that stood first
(`State.tileDrain_run`). -/
theorem waitsAreReleased : Obligations.WaitsAreReleased := by
  unfold Obligations.WaitsAreReleased
  intro s tile cycle r
  refine ⟨fun hrun hqueue hop hplain hholds => ?_, fun b k n hrun hwait hholds => ?_, fun hqueue => ?_,
    fun hrun hqueue hheld hop hlanded _ => ?_⟩
  · have htry : (s.setTile { s.tile tile with queue := [], held := false }).tileTry tile cycle (s.tile tile).held r =
        some ((s.setTile { s.tile tile with queue := [], held := false }).tileRun tile cycle (s.tile tile).held r) := by
      unfold State.tileTry
      rw [if_pos hop, if_pos hholds, if_neg (by simp [hplain])]
    obtain ⟨hq, -, hdone⟩ := State.tileDrain_run hqueue htry
    refine ⟨s.tileDrain tile 1 cycle, ?_, hq, ?_⟩
    · show Host.Outcome.next (if s.running = true then _ else _) = _
      rw [if_pos hrun, hqueue]
      rfl
    · rw [hdone, cmdCost_wait hop]
  · refine ⟨_, exec_stileWaitSatisfied_burrow hrun hwait hholds, ?_⟩
    have hid : ({ s.burrow b with wait := .none } : Burrow).id = b := State.burrow_id s b
    rw [State.burrow_setBurrow_of s hid]
    exact ⟨rfl, rfl, fun i hi => State.burrow_setBurrow_ne s _ (hi.trans_eq hid.symm)⟩
  · obtain ⟨t, hexec, ht⟩ := exec_scoreboardRelease s tile cycle
    rw [hqueue] at ht
    obtain rfl : t = s.releaseBoard tile := ht.trans (ite_self _)
    refine ⟨_, hexec, ?_⟩
    rw [State.releaseBoard_tile]
    exact ⟨rfl, rfl⟩
  · obtain ⟨t, hexec, ht⟩ := exec_scoreboardRelease s tile cycle
    rw [if_pos hrun, hqueue] at ht
    have htile := s.releaseBoard_tile tile
    have hboard : (s.tile tile).board.filter (fun l => !l.landed) = [] :=
      List.filter_eq_nil_iff.2 fun l hl => by simp [hlanded l hl]
    have hq' : ((s.releaseBoard tile).tile tile).queue = [r] := by rw [htile]; exact hqueue
    obtain ⟨hq, hhold, hdone⟩ := State.tileDrain_run (cycle := cycle) hq' (by
      unfold State.tileTry
      rw [if_neg hop, if_neg]
      rw [State.tile_dequeued, htile, hboard]
      simp [landingPending])
    rw [htile] at hhold hdone
    exact ⟨t, hexec, ht ▸ hq, ht ▸ hhold.trans hheld, ht ▸ hdone⟩

/-- Settles O19: each fault changes its counter, or its tile, the list of fenced parts and one event. -/
theorem tileFaultsFence : Obligations.TileFaultsFence := by
  unfold Obligations.TileFaultsFence
  intro s tile htile
  have hlt : ¬ tile ≥ 4096 := by omega
  refine ⟨?_, ?_, fun k hk => ?_, fun x p d hspare => ?_⟩
  · refine ⟨_, exec_tileFault_corrected hlt, ?_⟩
    rw [State.tile_congr (congrArg Mesh.tiles (State.total_mesh _ _ _)), State.tile_setTile_of]
    · exact ⟨rfl, rfl, rfl, rfl⟩
    · exact State.tile_id s tile
  · exact ⟨_, if_neg hlt, rfl, rfl, rfl⟩
  · refine ⟨_, exec_tileFault_fails hlt hk, ?_⟩
    have hfence := (s.setTile { s.tile tile with fenced := true }).fence_kept
      (.tile (s.physTile tile).1 (s.physTile tile).2)
    have htiles (i : Nat) : (s.tileFails tile).tile i = (s.setTile { s.tile tile with fenced := true }).tile i :=
      State.tile_congr (congrArg Mesh.tiles (hfence.mesh rfl)) i
    have hid : ({ s.tile tile with fenced := true } : Tile).id = tile := State.tile_id s tile
    refine ⟨?_, State.mem_fence _ _, ?_, fun i hi => ?_⟩
    · rw [htiles, State.tile_setTile_of s hid]
    · exact (State.raiseNamed_length ..).trans (congrArg (·.length + 1) (hfence.events rfl))
    · rw [htiles, State.tile_setTile_ne s _ (hi.trans_eq hid.symm)]
  · refine ⟨_, (if_neg hlt).trans (congrArg Host.Outcome.next (if_neg (ne_true_of_eq_false hspare))), ?_⟩
    refine ⟨State.mem_fence _ _, (congrArg Mesh.tiles ((State.fence_kept _ _).mesh rfl)).trans rfl, ?_⟩
    exact (congrArg List.length ((State.fence_kept _ _).events rfl)).trans (State.raiseNamed_length ..)
end

section
/-! PROOFS. The warrens: a burrow's micro-ops, its LUTs and rows, and the conditions of a stack (05). -/

namespace Sys2Proof.Machine

/-! ### Burrows and their micro-ops -/

/-- A burrow is read off the list of burrows alone. -/
theorem State.burrow_congr {s t : State} (h : t.warren = s.warren) (k : Nat) : t.burrow k = s.burrow k := by
  unfold State.burrow; rw [h]

theorem State.issued_id (s : State) (i w : Nat) : (s.issued i w).id = i := State.burrow_id s i

/-- A burrow that is at a micro-op issues it, and then the micro-op acts. -/
theorem State.micro_of_at {s : State} {i op w : Nat} (h : s.atMicro i op w = true) (f : State → Burrow → Nat → State) :
    s.micro i op f = f (s.setBurrow (s.issued i w)) (s.issued i w) w := by
  simp only [State.atMicro, Bool.and_eq_true, beq_iff_eq] at h
  obtain ⟨⟨⟨hrun, hword⟩, hop⟩, hwait⟩ := h
  simp only [State.micro, hword]
  exact if_pos (by simp [hrun, hop, hwait])

/-- The burrow `i` ends as `b`, and every other burrow as it was. -/
def BurrowBecomes (s t : State) (i : Nat) (b : Burrow) : Prop :=
  t.burrow i = b ∧ ∀ j, j ≠ i → t.burrow j = s.burrow j

theorem State.setBurrow_becomes {s x : State} {i : Nat} {b b' : Burrow} (h : BurrowBecomes s x i b) (hid : b'.id = i) :
    BurrowBecomes s (x.setBurrow b') i b' :=
  ⟨x.burrow_setBurrow_of hid, fun j hj => (x.burrow_setBurrow_ne b' (hj.trans_eq hid.symm)).trans (h.2 j hj)⟩

theorem BurrowBecomes.congr {s x t : State} {i : Nat} {b : Burrow} (h : BurrowBecomes s x i b)
    (hw : t.warren = x.warren) :
    BurrowBecomes s t i b :=
  ⟨(State.burrow_congr hw i).trans h.1, fun j hj => (State.burrow_congr hw j).trans (h.2 j hj)⟩

theorem BurrowBecomes.refl (s : State) (i : Nat) : BurrowBecomes s s i (s.burrow i) := ⟨rfl, fun _ _ => rfl⟩

/-- The issue of a micro-op, before it acts. -/
theorem State.issued_becomes (s : State) (i w : Nat) : BurrowBecomes s (s.setBurrow (s.issued i w)) i (s.issued i w) :=
  State.setBurrow_becomes (.refl s i) (s.issued_id i w)

theorem State.latchItem_warren (s : State) (b : Burrow) : (s.latchItem b).warren = s.warren :=
  (kept_latchItem (w := within [.obs]) (.refl s) rfl).warren rfl

theorem State.planSignal_warren (s : State) (i n : Nat) : (s.planSignal i n).warren = s.warren :=
  (kept_planSignal (w := within [.host, .events, .stiles]) (.refl s) rfl rfl rfl).warren rfl

section
variable {s : State} {i w : Nat}

theorem exec_burrowSlotStart_of {slot : Nat} {k : BSlot} (hslot : s.bslot i slot = some k) (hrun : s.running = true)
    (hfree : (s.burrow i).running = none) (hstore : (s.burrow i).store ≠ []) :
    exec (.burrowSlotStart i slot) s = .next (s.setBurrow { s.burrow i with
      running := some slot, pc := k.entry, wait := .none, item := none, cursor := 0, counts := Counts0, scanned := 0
      cycles := 0 }) := by
  rw [exec_burrowSlotStart, execBurrowSlotStart, hslot]
  exact if_pos (by simp [hrun, hfree, hstore])

/-- The burrow once NEXT has loaded an item, with nothing of the one before it. -/
def State.loaded (s : State) (i w k : Nat) (it : BurrowItem) : Burrow :=
  { s.issued i w with
    running := some k, item := some it, cursor := 0, counts := Counts0, scanned := 0, topk := []
    bound := dropFirst k (s.burrow i).bound }

/-- NEXT with a bound item. -/
theorem exec_nextItem_some {k : Nat} {it : BurrowItem} (hat : s.atMicro i 0x01 w = true)
    (hrun : (s.burrow i).running = some k) (hnext : (s.burrow i).nextItem = some it) :
    ∃ t, exec (.nextItem i) s = .next t ∧ BurrowBecomes s t i (s.loaded i w k it) := by
  have hnext' : (s.issued i w).nextItem = some it := hnext
  have hrun' : (s.issued i w).running = some k := hrun
  have hput := State.setBurrow_becomes (b' := s.loaded i w k it)
    ((s.issued_becomes i w).congr (State.latchItem_warren (s.setBurrow (s.issued i w)) (s.issued i w)))
    (s.issued_id i w)
  refine ⟨_, rfl, ?_⟩
  rw [State.micro_of_at hat]
  dsimp only
  rw [hnext', hrun']
  dsimp only
  split
  · exact hput.congr ((kept_traceBegin (w := within [.obs]) (.refl _) rfl).warren rfl)
  · exact hput

/-- NEXT without a bound item: the program jumps. -/
theorem exec_nextItem_none (hat : s.atMicro i 0x01 w = true) (hnext : (s.burrow i).nextItem = none) :
    ∃ t, exec (.nextItem i) s = .next t ∧ BurrowBecomes s t i { s.issued i w with
      item := none, cursor := 0, counts := Counts0, scanned := 0, topk := [], pc := mTarget w } := by
  have hnext' : (s.issued i w).nextItem = none := hnext
  refine ⟨_, rfl, ?_⟩
  rw [State.micro_of_at hat]
  dsimp only
  rw [hnext']
  exact State.setBurrow_becomes ((s.issued_becomes i w).congr (State.latchItem_warren _ _)) (s.issued_id i w)

/-- Whether the item that runs has an entry at the cursor. -/
def burrowMore (b : Burrow) : Bool :=
  match b.item with | some it => decide (b.cursor < it.entries.length) | none => false

/-- JUMP: to its target unless it asks for more entries and there are none. -/
theorem exec_jump (hat : s.atMicro i 0x0B w = true) :
    ∃ t, exec (.jump i) s = .next t ∧ BurrowBecomes s t i
      (if !mFlag w 3 || burrowMore (s.burrow i) then { s.issued i w with pc := mTarget w } else s.issued i w) := by
  refine ⟨_, rfl, ?_⟩
  rw [State.micro_of_at hat]
  show BurrowBecomes s (if (!mFlag w 3 || burrowMore (s.burrow i)) = true then _ else _) i _
  by_cases h : (!mFlag w 3 || burrowMore (s.burrow i)) = true
  · rw [if_pos h, if_pos h]
    exact State.setBurrow_becomes (s.issued_becomes i w) (s.issued_id i w)
  · rw [if_neg h, if_neg h]
    exact s.issued_becomes i w

theorem exec_endSlot (hat : s.atMicro i 0x0C w = true) :
    ∃ t, exec (.endSlot i) s = .next t ∧
      BurrowBecomes s t i { s.issued i w with running := none, item := none, cursor := 0, topk := [] } := by
  refine ⟨_, rfl, ?_⟩
  rw [State.micro_of_at hat]
  exact State.setBurrow_becomes ((s.issued_becomes i w).congr (State.latchItem_warren _ _)) (s.issued_id i w)

end

/-! ### LUT pulls -/

theorem Burrow_lut_putLut (b : Burrow) (h : Nat) (bs : List Byte) (slot : Nat) : (b.putLut h bs slot).lut h = bs := by
  by_cases e : h = 0 <;> simp [Burrow.putLut, Burrow.lut, e]

theorem Burrow_ready_putLut (b : Burrow) (h : Nat) (bs : List Byte) (slot : Nat) :
    (b.putLut h bs slot).ready h = some slot := by
  by_cases e : h = 0 <;> simp [Burrow.putLut, Burrow.ready, e]

theorem Burrow_putLut_kept (b : Burrow) (h : Nat) (bs : List Byte) (slot : Nat) :
    (b.putLut h bs slot).pulls = b.pulls ∧ (b.putLut h bs slot).item = b.item ∧ (b.putLut h bs slot).id = b.id := by
  unfold Burrow.putLut
  split <;> exact ⟨rfl, rfl, rfl⟩

/-- The burrow once a pull into half `h` has been asked for. -/
def pullAsked (b : Burrow) (h : Nat) (it : BurrowItem) : Burrow :=
  let b1 := if h = 0 then { b with ready0 := none } else { b with ready1 := none }
  { b1 with pulls := b1.pulls ++ [(h, it)] }

theorem pullAsked_kept (b : Burrow) (h : Nat) (it : BurrowItem) :
    (pullAsked b h it).pulls = b.pulls ++ [(h, it)] ∧ (pullAsked b h it).ready h = none ∧
      (pullAsked b h it).item = b.item ∧ (pullAsked b h it).pc = b.pc ∧ (pullAsked b h it).id = b.id := by
  by_cases e : h = 0 <;> simp [pullAsked, Burrow.ready, e]

section
variable {s : State} {i w : Nat} {it : BurrowItem}

theorem exec_lutget (hat : s.atMicro i 0x02 w = true) (hnext : (s.burrow i).nextItem = some it) :
    ∃ t, exec (.lutget i) s = .next t ∧ BurrowBecomes s t i (pullAsked (s.issued i w) (flag (mFlag w 0)) it) := by
  have hnext' : (s.issued i w).nextItem = some it := hnext
  refine ⟨_, rfl, ?_⟩
  rw [State.micro_of_at hat]
  dsimp only
  rw [hnext']
  obtain ⟨-, -, -, -, hid⟩ := pullAsked_kept (s.issued i w) (flag (mFlag w 0)) it
  exact State.setBurrow_becomes (s.issued_becomes i w) (hid.trans (s.issued_id i w))

/-- A pull lands: its block is in the half, and a LUTW that waits for it takes it up. -/
theorem exec_lutPullLanded {h : Nat} (hpull : (s.burrow i).pulls.find? (fun p => p.1 == h) = some (h, it)) :
    ∃ t b, exec (.lutPullLanded i h) s = .next t ∧ BurrowBecomes s t i b ∧ b.lut h = s.delivery it ∧
      b.ready h = some it.slot ∧ b.pulls = (s.burrow i).pulls.erase (h, it) ∧ b.item = (s.burrow i).item := by
  generalize hb : ({ s.burrow i with pulls := (s.burrow i).pulls.erase (h, it) } : Burrow).putLut h
      (s.delivery it) it.slot = b
  have hlut := hb ▸ Burrow_lut_putLut { s.burrow i with pulls := (s.burrow i).pulls.erase (h, it) } h
      (s.delivery it) it.slot
  have hready := hb ▸ Burrow_ready_putLut { s.burrow i with pulls := (s.burrow i).pulls.erase (h, it) } h
      (s.delivery it) it.slot
  obtain ⟨hpulls, hitem, hid⟩ :=
    hb ▸ Burrow_putLut_kept { s.burrow i with pulls := (s.burrow i).pulls.erase (h, it) } h (s.delivery it) it.slot
  have hid' : b.id = i := hid.trans (s.burrow_id i)
  have hexec : ∃ b', exec (.lutPullLanded i h) s = .next (s.setBurrow b') ∧ (b' = b.useHalf h ∨ b' = b) := by
    refine ⟨if b.wait = .lut h && b.item.map BurrowItem.slot = b.ready h then b.useHalf h else b, ?_, ?_⟩
    · show execLutPullLanded i h s = _
      simp only [execLutPullLanded, hpull, hb]
    · split
      · exact .inl rfl
      · exact .inr rfl
  obtain ⟨b', hexec, rfl | rfl⟩ := hexec
  · exact ⟨_, _, hexec, State.setBurrow_becomes (.refl s i) hid', hlut, hready, hpulls, hitem⟩
  · exact ⟨_, _, hexec, State.setBurrow_becomes (.refl s i) hid', hlut, hready, hpulls, hitem⟩

/-- LUTW takes up the half that holds its item's block, and waits for it otherwise. -/
theorem exec_lutw (hat : s.atMicro i 0x03 w = true) (hitem : (s.burrow i).item = some it) :
    ∃ t, exec (.lutw i) s = .next t ∧ BurrowBecomes s t i
      (if (s.burrow i).ready (flag (mFlag w 0)) = some it.slot then (s.issued i w).useHalf (flag (mFlag w 0))
        else { s.issued i w with wait := .lut (flag (mFlag w 0)) }) := by
  have hitem' : (s.issued i w).item = some it := hitem
  have hready : (s.issued i w).ready (flag (mFlag w 0)) = (s.burrow i).ready (flag (mFlag w 0)) := rfl
  refine ⟨_, rfl, ?_⟩
  rw [State.micro_of_at hat]
  dsimp only
  rw [hitem', hready]
  by_cases h : (s.burrow i).ready (flag (mFlag w 0)) = some it.slot
  · rw [if_pos h, if_pos (by simp [h])]
    exact State.setBurrow_becomes (s.issued_becomes i w) (s.issued_id i w)
  · rw [if_neg h, if_neg (by simp [Ne.symm h])]
    exact State.setBurrow_becomes (s.issued_becomes i w) (s.issued_id i w)

end

/-! ### Rows -/

/-- Nothing changes but the scratch of one tile. -/
structure ScratchOnly (dst : Nat) (s t : State) : Prop where
  kept : Kept (within [.mesh]) s t
  others : ∀ k, k ≠ dst → t.tile k = s.tile k

theorem ScratchOnly.refl (dst : Nat) (s : State) : ScratchOnly dst s s := ⟨.refl s, fun _ _ => rfl⟩

theorem ScratchOnly.scratchPut {dst : Nat} {s t : State} (h : ScratchOnly dst s t) (addr : Nat) (bs : List Byte) :
    ScratchOnly dst s (t.scratchPut dst addr bs) :=
  ⟨kept_scratchPut h.kept rfl, fun k hk =>
    (t.tile_setTile_ne { t.tile dst with scratch := _ } (by rwa [t.tile_id dst])).trans (h.others k hk)⟩

theorem State.scratchPut_tile (s : State) (dst addr : Nat) (bs : List Byte) :
    ((s.scratchPut dst addr bs).tile dst).scratch = cellPutBytes (s.tile dst).scratch addr bs :=
  congrArg Tile.scratch (s.tile_setTile_of
    (x := { s.tile dst with scratch := cellPutBytes (s.tile dst).scratch addr bs }) (s.tile_id dst))

/-- Writes to one tile, with results of another kind beside them. -/
theorem ScratchOnly.foldl_fst {α β : Type} {dst : Nat} {g : State × β → α → State × β}
    (hg : ∀ a x s, ScratchOnly dst s a.1 → ScratchOnly dst s (g a x).1) :
    ∀ (l : List α) (a : State × β), ScratchOnly dst a.1 (l.foldl g a).1 := fun l a => by
  suffices ∀ (l : List α) (b : State × β), ScratchOnly dst a.1 b.1 → ScratchOnly dst a.1 (l.foldl g b).1 from
    this l a (.refl dst a.1)
  intro l
  induction l with
  | nil => exact fun _ h => h
  | cons x l ih => exact fun b h => ih _ (hg b x a.1 h)

/-- GATH's write of one row. -/
def State.gathRow (i n : Nat) (it : BurrowItem) (s : State) (e : Word64 × Nat) : State :=
  if entNone e.1.toNat then s
  else s.scratchPut it.dstTile (it.dstAddr + e.2 * stride64 n)
    (memReadBytes s.t1 (chanAddr i (entOffset e.1.toNat)) n)

theorem State.gathRow_only {dst i n : Nat} {it : BurrowItem} (hdst : it.dstTile = dst) (e : Word64 × Nat) {s t : State}
    (h : ScratchOnly dst s t) : ScratchOnly dst s (t.gathRow i n it e) := by
  unfold State.gathRow
  split
  · exact h
  · exact hdst ▸ (hdst ▸ h).scratchPut _ _

/-- GATH's rows: nothing but the scratch of the item's tile changes, and each row is written there in entry order. -/
theorem State.foldl_gathRow (s : State) (i n : Nat) (it : BurrowItem) : ∀ (l : List (Word64 × Nat)) (t : State),
    ScratchOnly it.dstTile s t →
    ScratchOnly it.dstTile s (l.foldl (State.gathRow i n it) t) ∧
      ((l.foldl (State.gathRow i n it) t).tile it.dstTile).scratch = l.foldl (fun m e =>
        if entNone e.1.toNat then m
        else cellPutBytes m (it.dstAddr + e.2 * stride64 n) (memReadBytes s.t1 (chanAddr i (entOffset e.1.toNat)) n))
          (t.tile it.dstTile).scratch
  | [], _, h => ⟨h, rfl⟩
  | e :: l, t, h => by
    obtain ⟨hrest, hscratch⟩ := s.foldl_gathRow i n it l (t.gathRow i n it e) (State.gathRow_only rfl e h)
    refine ⟨hrest, ?_⟩
    rw [List.foldl_cons, List.foldl_cons, hscratch]
    congr 1
    unfold State.gathRow
    split
    · rfl
    · rw [State.scratchPut_tile, h.kept.t1 rfl]

/-- The one leaf of a tree of one row goes out as it is stored. -/
theorem rsubParts_single : rsubParts [0] 1 13 0 (pow2Up 13 1 1) = [(0, 1)] := by decide

/-- RSUB: its outputs are writes to the item's tile; a single leaf goes out as stored, with its scale. -/
theorem exec_rsub {s : State} {i w : Nat} {it : BurrowItem} {t0 : TableDef} (hat : s.atMicro i 0x07 w = true)
    (hitem : (s.burrow i).item = some it) (hfence : (s.burrow i).fenced = false)
    (htable : s.tableDef it.fn it.object = some t0) :
    ∃ x c, exec (.rsub i) s =
        .next ((x.setBurrow { s.issued i w with counts := addCounts (s.issued i w).counts c }).microDone w) ∧
      ScratchOnly it.dstTile (s.setBurrow (s.issued i w)) x ∧
      ∀ e : Word64, it.entries = [e] → it.leaves = 1 → entNone e.toNat = false → entLeaf e.toNat = 0 →
        (x.tile it.dstTile).scratch = cellPutBytes (s.tile it.dstTile).scratch it.dstAddr
          (bytesAt (memReadBytes s.t1 (chanAddr i (entOffset e.toNat)) (rowBytes t0.fmt t0.elems)) 0 (4 * t0.elems) ++
            leBytes 4 (s.rowScale t0 (localOfAddr t0 (chanAddr i (entOffset e.toNat)))).toNat) := by
  have hitem' : (s.issued i w).item = some it := hitem
  have hfence' : ¬ (s.issued i w).fenced = true := by simp [show (s.issued i w).fenced = false from hfence]
  have htable' : (s.setBurrow (s.issued i w)).tableDef it.fn it.object = some t0 := htable
  rw [show exec (.rsub i) s = execRsub i s from rfl, execRsub, State.micro_of_at hat]
  dsimp only
  rw [hitem']
  dsimp only
  rw [htable']
  dsimp only
  rw [if_neg hfence']
  refine ⟨_, _, rfl, ScratchOnly.foldl_fst (fun a x z h => ?_) _ (s.setBurrow (s.issued i w), Counts0),
    fun e hentries hleaves hrow hzero => ?_⟩
  · split
    · split
      · exact h.scratchPut _ _
      · exact h
    · exact h.scratchPut _ _
  · simp only [hentries, hleaves, List.zipIdx_cons, List.zipIdx_nil, hrow, Bool.not_false, List.filter_cons_of_pos,
      List.filter_nil, List.map_cons, List.map_nil, hzero, rsubParts_single, List.foldl_cons, List.foldl_nil,
          if_true, beq_self_eq_true,
      List.find?_cons_of_pos, Nat.zero_add, Nat.zero_mul, Nat.add_zero]
    exact State.scratchPut_tile _ _ _ _

/-- What SIGDONE of a micro-op leaves. -/
theorem State.microDone_kept (s : State) (w : Nat) : Kept (within [.host, .events, .stiles]) s (s.microDone w) :=
  kept_microDone (.refl s) rfl rfl rfl

theorem State.microDone_stiles (s : State) {w : Nat} (h : mFlag w 2 = false) : (s.microDone w).stiles = s.stiles := by
  rw [State.microDone, h]
  rfl

theorem State.microDone_tile (s : State) (w k : Nat) : (s.microDone w).tile k = s.tile k :=
  State.tile_congr (congrArg Mesh.tiles ((s.microDone_kept w).mesh rfl)) k

/-! ### Copies between burrows -/

/-- The burrow `d` with the words that BCOPY of burrow `i` puts into its landing area. -/
def State.copyLanding (s : State) (i w d : Nat) : Burrow :=
  { s.burrow d with
    landing := (s.burrow i).landing.take (field (mValue w) 0 4 + 1) ++
      (s.burrow d).landing.drop (field (mValue w) 0 4 + 1) }

theorem State.copyLanding_id (s : State) (i w d : Nat) : (s.copyLanding i w d).id = d := s.burrow_id d

theorem exec_bcopy {s : State} {i w d : Nat} (hat : s.atMicro i 0x0A w = true) (hfence : (s.burrow i).fenced = false)
    (hd : d = i / 32 * 32 + field (mValue w) 8 5) (hne : d ≠ i) : exec (.bcopy i) s =
      .next (((s.setBurrow (s.issued i w)).setBurrow (s.copyLanding i w d)).microDone w) := by
  have hfence' : ¬ (s.issued i w).fenced = true := by simp [show (s.issued i w).fenced = false from hfence]
  rw [show exec (.bcopy i) s = execBcopy i s from rfl, execBcopy, State.micro_of_at hat]
  dsimp only
  rw [if_neg hfence', ← hd, (s.issued_becomes i w).2 d hne]
  rfl

/-! ### Stacks -/

theorem State.raiseIf_stack (s : State) (c : Bool) (e : Cause) (f src d0 d1 j : Nat) :
    (if c then s.raise e f src d0 d1 else s).stack j = s.stack j := by
  cases c <;> rfl

theorem State.raiseIf_length (s : State) (c : Bool) (e : Cause) (f src d0 d1 : Nat) :
    (if c then s.raise e f src d0 d1 else s).events.length = s.events.length + if c then 1 else 0 := by
  cases c
  · rfl
  · simp [State.raise]

/-- A unit that fails: it is fenced with the burrow of its channel, and one event says so. -/
theorem State.unitFails_of_chan {s : State} {stack unit c : Nat} (cause : Cause)
    (hchan : (s.stack stack).chanOf unit = some c) :
    Part.unit stack unit ∈ (s.unitFails stack unit cause).faults.fenced ∧
      ((s.unitFails stack unit cause).burrow (32 * stack + c)).fenced = true ∧
      (s.unitFails stack unit cause).events.length = s.events.length + 1 := by
  unfold State.unitFails
  dsimp only
  rw [hchan]
  dsimp only
  generalize hx : (s.fence (.unit stack unit)).raiseNamed cause [stack, unit, (some c).getD 255] = x
  have hpoison := kept_poisonItems (w := within [.search, .tables, .flash, .obs]) (ch := 32 * stack + c)
    (its := (x.burrow (32 * stack + c)).item.toList ++ (x.burrow (32 * stack + c)).bound.map (·.2))
        (.refl x) rfl rfl rfl rfl
  refine ⟨?_, ?_, ?_⟩
  · show _ ∈ (State.poisonItems x _ _).faults.fenced
    rw [hpoison.faults rfl, ← hx]
    exact s.mem_fence _
  · rw [State.burrow_setBurrow_of]
    exact x.burrow_id _
  · show (State.poisonItems x _ _).events.length = _
    rw [hpoison.events rfl, ← hx, State.raiseNamed_length, (s.fence_kept _).events rfl]

end Sys2Proof.Machine

open Sys2Proof Sys2Proof.Machine

/-- Settles O20: each micro-op of control sets its burrow's place in the program (`BurrowBecomes`). -/
theorem burrowProgramControl : Obligations.BurrowProgramControl := by
  unfold Obligations.BurrowProgramControl
  intro s i w
  refine ⟨fun slot k hslot hrun hfree hstore => ?_, fun k it hat hrun hnext => ?_, fun hat hnext => ?_,
    fun hat hflag => ?_, fun it hat hflag hitem => ?_, fun hat => ?_⟩
  · refine ⟨_, exec_burrowSlotStart_of hslot hrun hfree hstore, ?_⟩
    obtain ⟨hi, hothers⟩ := State.setBurrow_becomes (.refl s i) (b' := { s.burrow i with
      running := some slot, pc := k.entry, wait := .none, item := none, cursor := 0, counts := Counts0, scanned := 0
      cycles := 0 }) (State.burrow_id s i)
    rw [hi]
    exact ⟨rfl, rfl, rfl, rfl, rfl, rfl, hothers⟩
  · obtain ⟨t, hexec, hi, hothers⟩ := exec_nextItem_some hat hrun hnext
    refine ⟨t, hexec, ?_⟩
    rw [hi]
    exact ⟨rfl, rfl, rfl, rfl, hothers⟩
  · obtain ⟨t, hexec, hi, hothers⟩ := exec_nextItem_none hat hnext
    refine ⟨t, hexec, ?_⟩
    rw [hi]
    exact ⟨rfl, rfl, rfl, hothers⟩
  · obtain ⟨t, hexec, hi, hothers⟩ := exec_jump hat
    exact ⟨t, hexec, hi.trans (if_pos (by simp [hflag])), hothers⟩
  · obtain ⟨t, hexec, hi, hothers⟩ := exec_jump hat
    refine ⟨t, hexec, ?_, hothers⟩
    rw [hi, burrowMore, hitem, hflag]
    simp only [Bool.not_true, Bool.false_or, decide_eq_true_eq]
    split <;> rfl
  · obtain ⟨t, hexec, hi, hothers⟩ := exec_endSlot hat
    refine ⟨t, hexec, ?_⟩
    rw [hi]
    exact ⟨rfl, rfl, rfl, hothers⟩

/-- Settles O21: a pull starts, lands in its half, and is taken up there. -/
theorem burrowLutPulls : Obligations.BurrowLutPulls := by
  unfold Obligations.BurrowLutPulls
  intro s i w it
  refine ⟨fun hat hnext => ?_, fun h hpull => ?_, fun hat hitem hready => ?_, fun hat hitem hready => ?_⟩
  · obtain ⟨t, hexec, hi, -⟩ := exec_lutget hat hnext
    obtain ⟨hpulls, hready, hitem, hpc, -⟩ := pullAsked_kept (s.issued i w) (flag (mFlag w 0)) it
    refine ⟨t, hexec, ?_⟩
    rw [hi]
    exact ⟨hpulls, hready, hitem, hpc⟩
  · obtain ⟨t, b, hexec, ⟨hi, hothers⟩, hb⟩ := exec_lutPullLanded hpull
    obtain ⟨hlut, hready, hpulls, hitem⟩ := hb
    refine ⟨t, hexec, ?_⟩
    rw [hi]
    exact ⟨hlut, hready, hpulls, hitem, hothers⟩
  · obtain ⟨t, hexec, hi, -⟩ := exec_lutw hat hitem
    refine ⟨t, hexec, ?_⟩
    rw [hi, if_pos hready]
    exact ⟨rfl, rfl, rfl, rfl⟩
  · obtain ⟨t, hexec, hi, -⟩ := exec_lutw hat hitem
    refine ⟨t, hexec, ?_⟩
    rw [hi, if_neg hready]
    exact ⟨rfl, rfl⟩

/-- Settles O23: rows are put into scratch one after another (`ScratchOnly`), and nothing else is written. -/
theorem burrowRows : Obligations.BurrowRows := by
  unfold Obligations.BurrowRows
  intro s i w it
  refine ⟨fun hat hitem hfence => ?_, fun t0 hat hitem hfence htable => ?_⟩
  · have hitem' : (s.issued i w).item = some it := hitem
    have hfence' : (s.issued i w).fenced = false := hfence
    refine ⟨_, rfl, ?_⟩
    rw [State.micro_of_at hat]
    dsimp only
    rw [hitem']
    dsimp only
    rw [if_neg (by simp [hfence'])]
    obtain ⟨honly, hscratch⟩ := State.foldl_gathRow (s.setBurrow (s.issued i w)) i
        (s.itemRow it).1 it it.entries.zipIdx _
      (.refl _ _)
    refine ⟨?_, ?_, fun k hk => ?_, fun hflag => ?_⟩
    · rw [State.microDone_tile]
      exact hscratch
    · exact ((State.microDone_kept _ w).t1 rfl).trans (honly.kept.t1 rfl)
    · rw [State.microDone_tile]
      exact honly.others k hk
    · rw [State.microDone_stiles _ hflag]
      exact honly.kept.stiles rfl
  · obtain ⟨x, c, hexec, honly, hleaf⟩ := exec_rsub hat hitem hfence htable
    refine ⟨_, hexec, ((State.microDone_kept _ w).t1 rfl).trans (honly.kept.t1 rfl), ?_, fun k hk => ?_,
        fun hflag => ?_,
      fun e hentries hleaves hrow hzero => ?_⟩
    · rw [State.burrow_congr ((State.microDone_kept _ w).warren rfl), State.burrow_setBurrow_of]
      · rfl
      · exact s.issued_id i w
    · rw [State.microDone_tile]
      exact honly.others k hk
    · rw [State.microDone_stiles _ hflag]
      exact honly.kept.stiles rfl
    · rw [State.microDone_tile]
      exact hleaf e hentries hleaves hrow hzero

/-- Settles O24: a signal is one cycle of its stile, a wait asks `stileHolds`, a copy writes the other burrow. -/
theorem burrowSignalsAndCopies : Obligations.BurrowSignalsAndCopies := by
  unfold Obligations.BurrowSignalsAndCopies
  intro s i w
  obtain ⟨hi, hothers⟩ := s.issued_becomes i w
  refine ⟨fun hat => ?_, fun hat => ?_, fun d hd hne hat hfence => ?_⟩
  · refine ⟨_, rfl, ?_⟩
    rw [State.micro_of_at hat]
    refine ⟨(State.burrow_congr (State.planSignal_warren _ _ _) i).trans hi, ?_, fun k hk => ?_⟩
    · rw [State.planSignal, State.stile_stileApply, stileCycle_signal]
      rfl
    · exact State.stile_stileApply_ne _ _ hk
  · refine ⟨_, rfl, ?_⟩
    rw [State.micro_of_at hat]
    dsimp only
    have hsame : (s.setBurrow (s.issued i w)).stileHolds (mStile w) (mValue w) =
        s.stileHolds (mStile w) (mValue w) := rfl
    rw [hsame]
    by_cases h : s.stileHolds (mStile w) (mValue w) = true
    · rw [if_pos h]
      exact ⟨rfl, fun _ => hi, fun h' => by simp [h] at h'⟩
    · rw [if_neg h]
      refine ⟨rfl, fun h' => absurd h' h, fun _ => ?_⟩
      exact State.burrow_setBurrow_of _ (s.issued_id i w)
  · refine ⟨_, exec_bcopy hat hfence hd hne, ?_⟩
    have hid := s.copyLanding_id i w d
    have hburrow (j : Nat) := State.burrow_congr
      ((((s.setBurrow (s.issued i w)).setBurrow (s.copyLanding i w d)).microDone_kept w).warren rfl) j
    refine ⟨?_, ?_, fun j hj hjd => ?_⟩
    · rw [hburrow, State.burrow_setBurrow_of _ hid]
      rfl
    · rw [hburrow, State.burrow_setBurrow_ne _ _ (hne.symm.trans_eq hid.symm), hi]
    · rw [hburrow, State.burrow_setBurrow_ne _ _ (hjd.trans_eq hid.symm), hothers j hj]

/-- Settles O25: each condition changes its stack's counters, or fences a unit with one event. -/
theorem stackConditions : Obligations.StackConditions := by
  unfold Obligations.StackConditions
  intro s stack hstack hlen
  have hlt : ¬ stack ≥ 8 := by omega
  have hput (x : Stack) : (s.setStack stack x).stack stack = x := State.stack_setStack x (by omega)
  have hne (x : Stack) : ∀ j, j ≠ stack → (s.setStack stack x).stack j = s.stack j := fun j hj =>
    State.stack_setStack_ne s x hj
  refine ⟨fun temp power cool calm => ?_, fun temp => ⟨_, if_neg hlt, hput _, hne _⟩, fun unit n hunit => ?_,
    fun unit c k hunit hk hchan => ?_, ⟨_, if_neg hlt, hput _, hne _⟩⟩
  · refine ⟨_, if_neg hlt, ?_⟩
    simp only [State.raiseIf_stack, State.raiseIf_length, hput]
    refine ⟨trivial, trivial, trivial, fun h => if_pos h, fun h hcool => ?_, fun h => by rw [if_pos h], ?_, hne _⟩
    · rw [if_neg (by omega), if_neg (by simp [hcool])]
    · simp [State.setStack]
  · exact ⟨_, if_neg (by simp [hlt, hunit]), hput _, rfl, rfl⟩
  · have hle : ¬ (decide (stack ≥ 8) || decide (unit > 32)) = true := by simp [hlt, hunit]
    obtain rfl | rfl | rfl := hk
    · exact ⟨_, if_neg hle, State.unitFails_of_chan _ hchan⟩
    · exact ⟨_, if_neg hle, State.unitFails_of_chan _ hchan⟩
    · exact ⟨_, if_neg hle, State.unitFails_of_chan _ hchan⟩
end

section
/-! PROOFS. The layer of the descriptor rows: what acceptance and completion keep, and how a row that its checks pass
runs (R59, R364–R366, R370, R375). -/

namespace Sys2Proof.Machine

/-! ### Functions and rings -/

theorem State.fn_congr {s t : State} (h : t.host = s.host) (k : Nat) : t.fn k = s.fn k := by
  unfold State.fn; rw [h]

theorem State.ring_of_rings {s t : State} {f : Nat} (h : (t.fn f).rings = (s.fn f).rings) (r : Nat) :
    t.ring f r = s.ring f r := by
  unfold State.ring; rw [h]

/-- The administration watermark is all that a completion changes in a function. -/
theorem State.markAdmin_fn (s : State) (f : Nat) (q : Word64) (k : Nat) :
    ∃ m, (s.markAdmin f q).fn k = { s.fn k with adminMark := m } ∧ (k ≠ f → m = (s.fn k).adminMark) := by
  have hput (m : Option Word64) : ∃ m', (s.setFn { s.fn f with adminMark := m }).fn k =
      { s.fn k with adminMark := m' } ∧
      (k ≠ f → m' = (s.fn k).adminMark) := by
    by_cases hk : k = f
    · subst hk
      exact ⟨m, State.fn_setFn_of s (s.fn_id k), fun h => absurd rfl h⟩
    · exact ⟨(s.fn k).adminMark, State.fn_setFn_ne s _ (by rwa [show Fn.id _ = f from s.fn_id f]), fun _ => rfl⟩
  unfold State.markAdmin
  dsimp only
  split
  · split
    · exact ⟨_, rfl, fun _ => rfl⟩
    · exact hput _
  · exact hput _

theorem State.markAdmin_host (s : State) (f : Nat) (q : Word64) :
    (s.markAdmin f q).host = { s.host with fns := (s.markAdmin f q).host.fns } := by
  unfold State.markAdmin
  dsimp only
  split
  · split <;> rfl
  · rfl

/-! ### Work -/

/-- Changing the work of one descriptor changes it where it is looked up. -/
theorem State.workAt_mapWork (s : State) (f r : Nat) (q : Word64) {g : Work → Work}
    (hg : ∀ w, (g w).fn = w.fn ∧ (g w).ring = w.ring ∧ (g w).seq = w.seq) (f' r' : Nat) (q' : Word64) :
    (s.mapWork f r q g).workAt f' r' q' =
      (s.workAt f' r' q').map fun w => if w.fn == f && w.ring == r && w.seq == q then g w else w := by
  have hkey : ((fun w : Work => w.fn == f' && w.ring == r' && w.seq == q') ∘
      fun w : Work => if w.fn == f && w.ring == r && w.seq == q then g w else w) =
      fun w : Work => w.fn == f' && w.ring == r' && w.seq == q' := by
    funext w
    obtain ⟨hfn, hring, hseq⟩ := hg w
    simp only [Function.comp_apply]
    split <;> simp [hfn, hring, hseq]
  unfold State.workAt State.mapWork
  dsimp only
  rw [List.find?_map, hkey]

theorem State.workAt_key {s : State} {f r : Nat} {q : Word64} {w : Work} (h : s.workAt f r q = some w) :
    (w.fn == f && w.ring == r && w.seq == q) = true :=
  List.find?_some (p := fun w : Work => w.fn == f && w.ring == r && w.seq == q) h

/-- What a descriptor is known by does not change: the rings stand as they stood, and each work has its opcode, words,
class, tick and start. -/
structure SameWork (s t : State) : Prop where
  ring : ∀ f r, t.ring f r = s.ring f r
  work : ∀ f r q w, s.workAt f r q = some w → ∃ w', t.workAt f r q = some w' ∧ w'.opcode = w.opcode ∧
    w'.words = w.words ∧ w'.cls = w.cls ∧ w'.admitTick = w.admitTick ∧ w'.started = w.started

theorem SameWork.of_host {s t : State} (h : t.host = s.host) : SameWork s t :=
  ⟨fun f r => State.ring_of_host h f r,
    fun f r q w hw => ⟨w, (State.workAt_of_host h f r q).trans hw, rfl, rfl, rfl, rfl, rfl⟩⟩

theorem SameWork.of_parts {s t : State} (hrings : ∀ f, (t.fn f).rings = (s.fn f).rings)
    (hwork : t.host.work = s.host.work) : SameWork s t := by
  refine ⟨fun f r => State.ring_of_rings (hrings f) r, fun f r q w hw => ⟨w, ?_, rfl, rfl, rfl, rfl, rfl⟩⟩
  unfold State.workAt
  rwa [hwork]

theorem SameWork.trans {s t u : State} (h : SameWork s t) (h' : SameWork t u) : SameWork s u := by
  refine ⟨fun f r => (h'.ring f r).trans (h.ring f r), fun f r q w hw => ?_⟩
  obtain ⟨w', hw', hop, hwords, hcls, htick, hstarted⟩ := h.work f r q w hw
  obtain ⟨w'', hw'', hop', hwords', hcls', htick', hstarted'⟩ := h'.work f r q w' hw'
  exact ⟨w'', hw'', hop'.trans hop, hwords'.trans hwords, hcls'.trans hcls, htick'.trans htick,
    hstarted'.trans hstarted⟩

theorem SameWork.to_host {s t u : State} (h : SameWork s t) (hu : u.host = t.host) : SameWork s u :=
    h.trans (.of_host hu)

theorem SameWork.from_host {s t u : State} (h : SameWork t u) (ht : t.host = s.host) : SameWork s u :=
  SameWork.trans (.of_host ht) h

theorem SameWork.foldl {α : Type} {g : State → α → State} (hg : ∀ s x, SameWork s (g s x)) :
    ∀ (l : List α) (s : State), SameWork s (l.foldl g s)
  | [], _ => .of_host rfl
  | x :: l, s => (hg s x).trans (SameWork.foldl hg l (g s x))

/-- The work of a descriptor once it is finished. -/
def finished (c : Comp) (bufs : List (Nat × List Byte)) (w : Work) : Work :=
  if w.done.isSome then w
  else { w with done := some { c with flags := c.flags ||| (if w.late then fLate else 0) }, bufs := bufs }

theorem finished_keeps (c : Comp) (bufs : List (Nat × List Byte)) (w : Work) :
    ((finished c bufs w).fn = w.fn ∧ (finished c bufs w).ring = w.ring ∧ (finished c bufs w).seq = w.seq) ∧
      (finished c bufs w).opcode = w.opcode ∧ (finished c bufs w).words = w.words ∧ (finished c bufs w).cls = w.cls ∧
      (finished c bufs w).admitTick = w.admitTick ∧ (finished c bufs w).started = w.started := by
  unfold finished
  split <;> exact ⟨⟨rfl, rfl, rfl⟩, rfl, rfl, rfl, rfl, rfl⟩

/-- A completion changes the work that ends, and perhaps the watermark. -/
theorem State.finish_eq (s : State) (f r : Nat) (q : Word64) (c : Comp) (bufs : List (Nat × List Byte)) :
    s.finish f r q c bufs = s.mapWork f r q (finished c bufs) ∨
      s.finish f r q c bufs = (s.mapWork f r q (finished c bufs)).markAdmin f q := by
  unfold State.finish
  dsimp only
  split
  · split
    · exact .inr rfl
    · exact .inl rfl
  · exact .inl rfl

theorem State.finish_fn (s : State) (f r : Nat) (q : Word64) (c : Comp) (bufs : List (Nat × List Byte)) (k : Nat) :
    ∃ m, (s.finish f r q c bufs).fn k = { s.fn k with adminMark := m } ∧ (k ≠ f → m = (s.fn k).adminMark) := by
  obtain h | h := s.finish_eq f r q c bufs <;> rw [h]
  · exact ⟨(s.fn k).adminMark, rfl, fun _ => rfl⟩
  · exact (s.mapWork f r q (finished c bufs)).markAdmin_fn f q k

theorem State.finish_host (s : State) (f r : Nat) (q : Word64) (c : Comp) (bufs : List (Nat × List Byte)) :
    ∃ fns work, (s.finish f r q c bufs).host = { s.host with fns := fns, work := work } := by
  obtain h | h := s.finish_eq f r q c bufs <;> rw [h]
  · exact ⟨_, _, rfl⟩
  · exact ⟨_, _, State.markAdmin_host _ f q⟩

theorem State.workAt_markAdmin (s : State) (f : Nat) (q : Word64) (f' r' : Nat) (q' : Word64) :
    (s.markAdmin f q).workAt f' r' q' = s.workAt f' r' q' := by
  unfold State.workAt
  rw [s.markAdmin_host]

/-- The work of any descriptor after a completion. -/
theorem State.workAt_finish (s : State) (f r : Nat) (q : Word64) (c : Comp) (bufs : List (Nat × List Byte))
    (f' r' : Nat)
    (q' : Word64) : (s.finish f r q c bufs).workAt f' r' q' =
      (s.workAt f' r' q').map fun w => if w.fn == f && w.ring == r && w.seq == q then finished c bufs w else w := by
  have hmap := s.workAt_mapWork f r q (g := finished c bufs) (fun w => (finished_keeps c bufs w).1) f' r' q'
  obtain h | h := s.finish_eq f r q c bufs <;> rw [h]
  · exact hmap
  · rw [State.workAt_markAdmin, hmap]

theorem State.finish_same (s : State) (f r : Nat) (q : Word64) (c : Comp) (bufs : List (Nat × List Byte)) :
    SameWork s (s.finish f r q c bufs) := by
  refine ⟨fun f' r' => State.ring_of_rings ?_ r', fun f' r' q' w hw => ?_⟩
  · obtain ⟨m, hm, -⟩ := s.finish_fn f r q c bufs f'
    rw [hm]
  · rw [State.workAt_finish, hw]
    refine ⟨_, rfl, ?_⟩
    dsimp only
    split
    · exact (finished_keeps c bufs w).2
    · exact ⟨rfl, rfl, rfl, rfl, rfl⟩

theorem Accepted.of_same {s t u : State} {d : Desc} {op : Nat} (h : Accepted s t d op) (hsame : SameWork t u) :
    Accepted s u d op := by
  obtain ⟨hring, w, hat, hop, hwords, hcls, htick, hstarted⟩ := h
  obtain ⟨w', hat', hop', hwords', hcls', htick', hstarted'⟩ := hsame.work _ _ _ _ hat
  exact ⟨(hsame.ring _ _).trans hring, w', hat', hop'.trans hop, hwords'.trans hwords, hcls'.trans hcls,
    htick'.trans htick, hstarted'.trans hstarted⟩

/-- The work of a descriptor runs: it is listed and has not ended. -/
def State.runs (t : State) (d : Desc) : Prop := ∃ w, t.workAt d.fn d.ring d.seq = some w ∧ w.done = none

theorem State.runs_of_work {s t : State} {d : Desc} (h : s.runs d) (hwork : t.host.work = s.host.work) : t.runs d := by
  obtain ⟨w, hat, hdone⟩ := h
  exact ⟨w, by unfold State.workAt; rw [hwork]; exact hat, hdone⟩

/-- A completion ends the work that runs, with its status. -/
theorem State.finish_ends {s : State} {f r : Nat} {q : Word64} {w : Work} (hat : s.workAt f r q = some w)
    (hdone : w.done = none) (c : Comp) (bufs : List (Nat × List Byte)) :
    ∃ w' c', (s.finish f r q c bufs).workAt f r q = some w' ∧ w'.done = some c' ∧ c'.status = c.status := by
  refine ⟨finished c bufs w, { c with flags := c.flags ||| (if w.late then fLate else 0) }, ?_, ?_, rfl⟩
  · rw [State.workAt_finish, hat, Option.map_some, if_pos (State.workAt_key hat)]
  · simp [finished, hdone]

theorem State.finish_endedWith {t : State} {d : Desc} (h : t.runs d) (c : Comp) (bufs : List (Nat × List Byte)) :
    (t.finish d.fn d.ring d.seq c bufs).endedWith d c.status := by
  obtain ⟨w, hat, hdone⟩ := h
  exact State.finish_ends hat hdone c bufs

theorem State.endWith_endedWith {t : State} {d : Desc} (h : t.runs d) (status : Nat) :
    (t.endWith d status).endedWith d status := State.finish_endedWith h (compOf status) []

theorem State.endWith_same (s : State) (d : Desc) (status : Nat) : SameWork s (s.endWith d status) :=
  s.finish_same _ _ _ _ _

theorem State.endWith_kept (s : State) (d : Desc) (status : Nat) : Kept (within [.host]) s (s.endWith d status) :=
  kept_endWith (.refl s) rfl

/-! ### The state in which a row runs -/

/-- The state in which the body of an accepted descriptor runs. -/
def State.admitted (s : State) (d : Desc) (op need : Nat) : State :=
  s.acceptWork d op (if classHasSlots d.cls then need else 0) true none

theorem State.admitted_kept (s : State) (d : Desc) (op need : Nat) :
    Kept (within [.host, .obs]) s (s.admitted d op need) :=
  kept_acceptWork (.refl s) rfl rfl

section
variable (s : State) (d : Desc) (op need : Nat)

@[simp] theorem State.admitted_tick : (s.admitted d op need).tick = s.tick := (s.admitted_kept d op need).tick rfl
@[simp] theorem State.admitted_plan : (s.admitted d op need).plan = s.plan := (s.admitted_kept d op need).plan rfl
@[simp] theorem State.admitted_items : (s.admitted d op need).items = s.items := (s.admitted_kept d op need).items rfl
@[simp] theorem State.admitted_search : (s.admitted d op need).search = s.search :=
    (s.admitted_kept d op need).search rfl
@[simp] theorem State.admitted_tables : (s.admitted d op need).tables = s.tables :=
    (s.admitted_kept d op need).tables rfl
@[simp] theorem State.admitted_flash : (s.admitted d op need).flash = s.flash := (s.admitted_kept d op need).flash rfl
@[simp] theorem State.admitted_fabric : (s.admitted d op need).fabric = s.fabric :=
    (s.admitted_kept d op need).fabric rfl
@[simp] theorem State.admitted_t1 : (s.admitted d op need).t1 = s.t1 := (s.admitted_kept d op need).t1 rfl
@[simp] theorem State.admitted_hostMem : (s.admitted d op need).hostMem = s.hostMem :=
    (s.admitted_kept d op need).hostMem rfl
@[simp] theorem State.admitted_faults : (s.admitted d op need).faults = s.faults :=
    (s.admitted_kept d op need).faults rfl
@[simp] theorem State.admitted_power : (s.admitted d op need).power = s.power := (s.admitted_kept d op need).power rfl
@[simp] theorem State.admitted_watches : (s.admitted d op need).obs.watches = s.obs.watches := s.acceptWork_watches ..

theorem State.admitted_index (f o : Nat) : (s.admitted d op need).index f o = s.index f o := by
  unfold State.index; rw [State.admitted_search]

theorem State.admitted_tableDef (f o : Nat) : (s.admitted d op need).tableDef f o = s.tableDef f o := by
  unfold State.tableDef; rw [State.admitted_tables]

/-- Acceptance changes of the host interface the rings of the function and the list of work. -/
theorem State.admitted_host : ∃ fns work, (s.admitted d op need).host = { s.host with fns := fns, work := work } := by
  unfold State.admitted State.acceptWork
  dsimp only
  rw [State.classBump_host]
  exact ⟨_, _, rfl⟩

theorem State.admitted_fn (k : Nat) : ∃ rings, (s.admitted d op need).fn k = { s.fn k with rings := rings } ∧
    (k ≠ d.fn → rings = (s.fn k).rings) := by
  have hfns : (s.admitted d op need).fn k = (s.ringAccepts d).fn k := by
    unfold State.fn State.admitted
    rw [State.acceptWork_fns]
  rw [hfns]
  unfold State.ringAccepts State.setRing
  dsimp only
  by_cases hk : k = d.fn
  · subst hk
    exact ⟨_, State.fn_setFn_of s (x := { s.fn d.fn with rings := _ }) (s.fn_id d.fn), fun h => absurd rfl h⟩
  · exact ⟨_, State.fn_setFn_ne s _ (by rwa [show Fn.id _ = d.fn from s.fn_id d.fn]), fun _ => rfl⟩

end

section
variable {s : State} {d : Desc} {op : Nat} {check : State → Desc → Option Nat}

theorem State.admitted_accepted {need : Nat} (h : s.takes d op check need = true) :
    Accepted s (s.admitted d op need) d op := by
  obtain ⟨hnew, hserved, -⟩ := State.takes_iff.1 h
  exact State.acceptWork_accepted hnew hserved _ _ _

theorem State.admitted_runs {need : Nat} (h : s.takes d op check need = true) : (s.admitted d op need).runs d := by
  obtain ⟨hnew, -⟩ := State.takes_iff.1 h
  obtain ⟨w, hat, -, -, -, -, -, hdone⟩ := State.workAt_acceptWork hnew op
      (if classHasSlots d.cls then need else 0) true none
  exact ⟨w, hat, by simpa using hdone⟩

/-- A row that its checks pass runs its body on the state after acceptance. -/
theorem exec_of_takes {c : Instr} {need : State → Desc → Nat} {body : State → Desc → State}
    (hexec : exec c s = .next (s.runDesc d op check need body)) (h : s.takes d op check (need s d) = true) :
    exec c s = .next (body (s.admitted d op (need s d)) d) :=
  hexec.trans (congrArg Host.Outcome.next (State.runDesc_takes h body))

/-- A row whose descriptor is expected and refused ends it with the status of the refusal. -/
theorem exec_of_refused {c : Instr} {need : State → Desc → Nat} {body : State → Desc → State} {status : Nat}
    (hexec : exec c s = .next (s.runDesc d op check need body)) (hnew : s.workAt d.fn d.ring d.seq = none)
    (hserved : s.ringServed d.fn d.ring = true) (hseq : d.seq = (s.ring d.fn d.ring).nextSeq)
    (hadmin : s.adminDone d = false)
    (hrefused : formCheck d op = some status ∨ formCheck d op = none ∧ check s d = some status) :
    exec c s = .next (s.acceptWork d op 0 true (some (compOf status))) :=
  hexec.trans (congrArg Host.Outcome.next (State.runDesc_refused hnew hserved hseq hadmin hrefused need body))

/-- A row whose descriptor is out of sequence halts its ring. -/
theorem exec_of_unexpected {c : Instr} {need : State → Desc → Nat} {body : State → Desc → State}
    (hexec : exec c s = .next (s.runDesc d op check need body)) (hnew : s.workAt d.fn d.ring d.seq = none)
    (hserved : s.ringServed d.fn d.ring = true) (hseq : d.seq ≠ (s.ring d.fn d.ring).nextSeq) :
    exec c s = .next (s.haltRing d.fn d.ring 1) := by
  rw [hexec]
  simp [State.runDesc, hnew, hserved, hseq]

end

/-- Every descriptor row is a run of its descriptor, with the opcode and the check that `descOf` names. -/
theorem exec_descOf {c : Instr} {d : Desc} {op : Nat} {check : State → Desc → Option Nat} (s : State)
    (h : descOf c = some (d, op, check)) :
    ∃ need body, exec c s = .next (s.runDesc d op check need body) := by
  cases c <;> simp only [descOf, reduceCtorEq, Option.some.injEq, Prod.mk.injEq] at h
  all_goals
    obtain ⟨rfl, rfl, rfl⟩ := h
    exact ⟨_, _, rfl⟩

end Sys2Proof.Machine

open Sys2Proof Sys2Proof.Machine

/-- Settles O43: a row that is out of sequence, or that its checks refuse, never reaches its body. -/
theorem descriptorsRefused : Obligations.DescriptorsRefused := by
  unfold Obligations.DescriptorsRefused
  intro c d op check s hdesc hnew hserved
  obtain ⟨need, body, hexec⟩ := exec_descOf s hdesc
  refine ⟨fun hseq => ?_, fun status hseq hadmin hrefused => ?_⟩
  · refine ⟨_, _, exec_of_unexpected hexec hnew hserved hseq, ?_, rfl, rfl, rfl⟩
    exact State.ring_setRing _ (State.lt_rings_of_ringServed hserved)
  · have hkept := kept_acceptWork (w := within [.host, .obs]) (d := d) (op := op) (slots := 0) (started := true)
      (ended := some (compOf status)) (.refl s) rfl rfl
    exact ⟨_, exec_of_refused hexec hnew hserved hseq hadmin hrefused, State.acceptWork_accepted hnew hserved _ _ _,
      State.acceptWork_endedWith hnew _ _ _ _, hkept.search rfl, hkept.tables rfl, hkept.flash rfl, hkept.plan rfl,
      hkept.items rfl, hkept.fabric rfl, hkept.events rfl, hkept.t1 rfl, hkept.hostMem rfl⟩
end

section
/-! PROOFS. Searches, selections, lookups, watches, plans, loads and formats: what their descriptors begin. -/

namespace Sys2Proof.Machine

/-! ### Lookups -/

theorem State.mem_setLookup (s : State) (l : Lookup) : l ∈ (s.setLookup l).tables.lookups := by
  unfold State.setLookup
  dsimp only
  split
  next h =>
    obtain ⟨x, hx, hsame⟩ := List.any_eq_true.1 h
    exact List.mem_map.2 ⟨x, hx, if_pos hsame⟩
  next => exact List.mem_append_right _ (List.mem_singleton_self l)

theorem State.fireOne_same (s : State) (w : Watch) (t : Tensor) : SameWork s (s.fireOne w t) := by
  unfold State.fireOne
  dsimp only
  split
  · exact .of_host rfl
  · unfold State.endWatch
    exact .trans (t := (s.total 20 1).dropWatch w) (.of_host rfl) (State.finish_same _ _ _ _ _ _)

theorem State.fireStep_same (s : State) (f r : Nat) (q : Word64) (tensor : Nat) (t : Tensor) :
    SameWork s (s.fireStep f r q tensor t) :=
  SameWork.foldl (fun s w => s.fireOne_same w t) _ s

theorem State.fireStep_kept (s : State) (f r : Nat) (q : Word64) (tensor : Nat) (t : Tensor) :
    Kept (within [.host, .obs]) s (s.fireStep f r q tensor t) := kept_fireStep (.refl s) rfl rfl

/-- The rows that a lookup descriptor names in its table: its list, or what its search selects; whether a NaN key was
met, and the saturations. -/
def State.lookFound (s : State) (pk : Bool) (t : TableDef) (d : Desc) : List (Nat × Word32) × Bool × Nat :=
  if pk then
    pkSearch t (lkQfmt d) (if pk then lkK d else lkN d)
      (memReadBytes s.hostMem (d.w 2) (rowBytes (lkQfmt d) (2 * t.dims)))
  else
    ((List.range (if pk then lkK d else lkN d)).map fun i =>
      (memNat s.hostMem (d.w 2 + 8 * i) 8,
        if lkWmode d = 1 then BitVec.ofNat 32 (memNat s.hostMem (d.w 3 + 4 * i) 4) else 0x3F800000#32), false, 0)

/-- The lookup that a descriptor asks for. -/
def State.lookOf (s : State) (pk : Bool) (t : TableDef) (d : Desc) : Lookup :=
  let found := s.lookFound pk t d
  let rows := found.1.map fun x => lookRow t x.1 x.2
  let n := if pk then lkK d else lkN d
  { fn := d.fn, ring := d.ring, seq := d.seq, cls := d.cls, table := lkTable d, pk := pk, ofmt := lkOfmt d
    wmode := lkWmode d, k := n, want := n, raddr := d.w 4, tag := BitVec.ofNat 32 (field (d.w 5) 32 32)
    tick := s.tick.count, rows := rows, dropped := (rows.filter fun r => r.st == .dropped).length, nan := found.2.1
    sats := found.2.2, drops := ingestDrops t (found.1.map (·.1)), spilled := false, asked := [], late := false }

theorem State.lookOf_gather_rows (s : State) (t : TableDef) (d : Desc) : (s.lookOf false t d).rows =
    (List.range (lkN d)).map fun i => lookRow t (memNat s.hostMem (d.w 2 + 8 * i) 8)
      (if lkWmode d = 1 then BitVec.ofNat 32 (memNat s.hostMem (d.w 3 + 4 * i) 4) else 0x3F800000#32) := by
  simp only [State.lookOf, State.lookFound, Bool.false_eq_true, if_false, List.map_map, Function.comp_def]

theorem State.lookOf_pklookup_rows (s : State) (t : TableDef) (d : Desc) : (s.lookOf true t d).rows =
    (pkSearch t (lkQfmt d) (lkK d)
      (memReadBytes s.hostMem (d.w 2) (rowBytes (lkQfmt d) (2 * t.dims)))).1.map fun x => lookRow t x.1 x.2 := rfl

theorem lookupBody_gather {s : State} {d : Desc} {t : TableDef} (h : s.tableDef d.fn (lkTable d) = some t) :
    lookupBody false s d = s.setLookup (s.lookOf false t d) := by
  unfold lookupBody
  rw [h]
  rfl

/-- A PKLOOKUP holds its lookup, and the watches of its query and of its selection fire. -/
theorem lookupBody_pklookup {s : State} {d : Desc} {t : TableDef} (h : s.tableDef d.fn (lkTable d) = some t) :
    ∃ q1 q2, lookupBody true s d =
      ((s.setLookup (s.lookOf true t d)).fireStep d.fn d.ring d.seq 1 q1).fireStep d.fn d.ring d.seq 5 q2 := by
  unfold lookupBody
  rw [h]
  exact ⟨_, _, rfl⟩

/-! ### FORMAT -/

theorem State.setSb_jot_words (s : State) (x : Superblock) (type : Nat) (args : List Nat) :
    ((s.setSb x).jot type args).flash.words = s.flash.words := rfl

theorem State.setSb_jot_host (s : State) (x : Superblock) (type : Nat) (args : List Nat) :
    ((s.setSb x).jot type args).host = s.host := rfl

/-- A completed FORMAT changes the volumes and its work, no word of the flash. -/
theorem State.formatEnds_words (s : State) : s.formatEnds.flash.words = s.flash.words := by
  unfold State.formatEnds
  dsimp only
  refine foldl_keeps (fun s : State => s.flash.words) (fun s j => ?_) _ _
  exact (congrArg Flash.words ((kept_finish (w := within [.host]) (.refl _) rfl).flash rfl)).trans rfl

theorem State.formatEnds_same (s : State) : SameWork s s.formatEnds := by
  unfold State.formatEnds
  dsimp only
  refine (SameWork.foldl (fun s j => ?_) _ s).to_host rfl
  exact (State.finish_same _ _ _ _ _ _).from_host rfl

theorem formatBody_kept (s : State) (d : Desc) : Kept (within [.host, .flash, .free]) s (formatBody s d) :=
  kept_formatBody (.refl s) rfl rfl rfl

/-- FORMAT discards the words of the die sets that it may format. -/
theorem formatBody_words (s : State) (d : Desc) :
    (formatBody s d).flash.words = s.flash.words.filter fun w => !(s.formatMask d).testBit w.set := by
  unfold formatBody
  dsimp only
  rw [State.formatEnds_words]
  exact foldl_keeps (fun s : State => s.flash.words) (fun s x => State.setSb_jot_words s _ _ _) _ _

theorem formatBody_same (s : State) (d : Desc) : SameWork s (formatBody s d) := by
  unfold formatBody
  dsimp only
  refine .trans (.of_host ?_) (State.formatEnds_same _)
  exact foldl_keeps (fun s : State => s.host) (fun s x => State.setSb_jot_host s _ _ _) _ _

section
variable (s : State) (d e : Desc) (op need : Nat)

theorem State.admitted_formatMask : (s.admitted d op need).formatMask e = s.formatMask e := by
  unfold State.formatMask State.die
  rw [State.admitted_flash]

/-- An item in force is read off the list of items and the composition record. -/
theorem State.cfg_congr {s t : State} (hitems : t.items = s.items) (hcomp : t.host.comp = s.host.comp)
    (block number index : Nat) : t.cfg block number index = s.cfg block number index := by
  have hentry (f : Nat) : t.compEntry f = s.compEntry f := by unfold State.compEntry; rw [hcomp]
  have hdefault : t.itemDefault block number index = s.itemDefault block number index := by
    unfold State.itemDefault State.compBytes
    simp only [hcomp, hentry]
  unfold State.cfg State.itemVals State.itemAt
  rw [hitems, hdefault]

theorem State.admitted_nodeId : (s.admitted d op need).nodeId = s.nodeId := by
  obtain ⟨fns, work, hhost⟩ := s.admitted_host d op need
  exact State.cfg_congr (s.admitted_items d op need) ((congrArg HostIf.comp hhost).trans rfl) 2 3 0

theorem State.admitted_replica : (s.admitted d op need).replica = s.replica := by
  unfold State.replica State.ownDomain
  rw [State.admitted_nodeId, State.admitted_faults]

theorem State.admitted_applied (o f r : Nat) (q : Word64) :
    (s.admitted d op need).applied o f r q = s.applied o f r q := by
  unfold State.applied State.watermark
  rw [State.admitted_tables]

end

end Sys2Proof.Machine

open Sys2Proof Sys2Proof.Machine

/-- Settles O29: each descriptor's body on the state after acceptance is one record added to those under way. -/
theorem searchAndSelectBegin : Obligations.SearchAndSelectBegin := by
  unfold Obligations.SearchAndSelectBegin
  intro s d
  refine ⟨fun x h hindex => ?_, fun h => ?_⟩
  · have hindex' : (s.admitted d 0x20 1).index d.fn (seIndex d) = some x :=
        (s.admitted_index d 0x20 1 d.fn (seIndex d)).trans hindex
    have hexec := exec_of_takes (need := oneSlot) (body := searchBody) (c := .search d) rfl h
    unfold searchBody at hexec
    rw [show oneSlot s d = 1 from rfl, hindex'] at hexec
    dsimp only at hexec
    refine ⟨_, _, hexec, (State.admitted_accepted h).of_host rfl,
        congrArg (·.front ++ _) (s.admitted_search d 0x20 1), rfl, rfl,
      rfl, rfl, rfl, rfl, fun hcls => ?_, fun hcls => ?_, rfl, ?_, rfl, rfl, ?_, ?_⟩
    · simp [seNprobe, hcls]
    · exact (if_pos (by simp [hcls])).trans rfl
    · rw [State.admitted_tick]
    · rw [State.admitted_hostMem]
      rfl
    · exact s.admitted_hostMem d 0x20 1
  · have hexec := exec_of_takes (need := selPieces) (body := selectBody) (c := .select d) rfl h
    exact ⟨_, _, hexec, (State.admitted_accepted h).of_host rfl,
        congrArg (·.selects ++ _) (s.admitted_search d 0x24 (selPieces s d)), rfl, rfl,
      rfl, rfl, rfl, rfl, rfl, rfl, rfl, rfl, rfl, rfl, s.admitted_hostMem d 0x24 (selPieces s d)⟩

/-- Settles O30: the body adds the lookup whose rows `lookOf` gives. -/
theorem lookupsBegin : Obligations.LookupsBegin := by
  unfold Obligations.LookupsBegin
  intro s d t0 htable
  refine ⟨fun h => ?_, fun h => ?_⟩
  · have htable' := (s.admitted_tableDef d 0x25 1 d.fn (lkTable d)).trans htable
    have hexec := exec_of_takes (need := oneSlot) (body := lookupBody false) (c := .gather d) rfl h
    rw [show oneSlot s d = 1 from rfl, lookupBody_gather htable'] at hexec
    refine ⟨_, _, State.mem_setLookup _ _, hexec, (State.admitted_accepted h).of_host rfl, rfl, rfl, rfl, rfl, ?_,
        rfl, ?_, rfl, ?_, ?_⟩
    · exact congrArg (·.count) (s.admitted_tick d 0x25 1)
    · rw [State.lookOf_gather_rows, State.admitted_hostMem]
    · exact s.admitted_hostMem d 0x25 1
    · exact s.admitted_t1 d 0x25 1
  · have htable' := (s.admitted_tableDef d 0x26 1 d.fn (lkTable d)).trans htable
    have hexec := exec_of_takes (need := oneSlot) (body := lookupBody true) (c := .pklookup d) rfl h
    obtain ⟨q1, q2, hbody⟩ := lookupBody_pklookup htable'
    rw [show oneSlot s d = 1 from rfl, hbody] at hexec
    refine ⟨_, (s.admitted d 0x26 1).lookOf true t0 d, ?_, hexec, ?_, rfl, rfl, rfl, rfl, ?_, rfl, ?_, rfl, ?_⟩
    · rw [(State.fireStep_kept _ _ _ _ _ _).tables rfl, (State.fireStep_kept _ _ _ _ _ _).tables rfl]
      exact State.mem_setLookup _ _
    · refine .of_same (.of_same ?_ (State.fireStep_same _ _ _ _ _ _)) (State.fireStep_same _ _ _ _ _ _)
      exact (State.admitted_accepted h).of_host rfl
    · exact congrArg (·.count) (s.admitted_tick d 0x26 1)
    · rw [State.lookOf_pklookup_rows, State.admitted_hostMem]
    · rw [(State.fireStep_kept _ _ _ _ _ _).t1 rfl, (State.fireStep_kept _ _ _ _ _ _).t1 rfl]
      exact s.admitted_t1 d 0x26 1

/-- Settles O31: each body on the state after acceptance; a FORMAT drops its die sets' words (`formatBody_words`). -/
theorem watchPlanLoadFormatBegin : Obligations.WatchPlanLoadFormatBegin := by
  unfold Obligations.WatchPlanLoadFormatBegin
  intro s d
  refine ⟨fun h => ?_, fun h => ?_, fun h hnew => ?_, fun h => ?_⟩
  · have hexec := exec_of_takes (need := oneSlot) (body := watchBody) (c := .watch d) rfl h
    exact ⟨_, watchOf d, hexec, (State.admitted_accepted h).of_host rfl,
        congrArg (· ++ _) (s.admitted_watches d 0x30 1), rfl,
      rfl, rfl, rfl, rfl, rfl, rfl, rfl, rfl, rfl, rfl, s.admitted_hostMem d 0x30 1⟩
  · have hexec := exec_of_takes (need := oneSlot) (body := planStageBody) (c := .planStage d) rfl h
    refine ⟨_, hexec, (State.admitted_accepted h).of_host rfl, ?_, rfl, congrArg (·.active) (s.admitted_plan d 0x05 1)⟩
    unfold planStageBody
    rw [State.admitted_hostMem]
  · have hexec := exec_of_takes (need := oneSlot) (body := loadBody) (c := .load d) rfl h
    have hnew' : (s.admitted d 0x23 1).applied (s.admitted d 0x23 1).replica d.fn d.ring d.seq = false := by
      rw [State.admitted_applied, State.admitted_replica, hnew]
    unfold loadBody at hexec
    rw [show oneSlot s d = 1 from rfl, if_neg (by simp [hnew'])] at hexec
    exact ⟨_, _, hexec, (State.admitted_accepted h).of_host rfl,
        congrArg (·.loads ++ _) (s.admitted_tables d 0x23 1), rfl, rfl,
      rfl, rfl, rfl, rfl, rfl, rfl, congrArg (·.queue) (s.admitted_tables d 0x23 1), s.admitted_t1 d 0x23 1⟩
  · have hexec := exec_of_takes (need := oneSlot) (body := formatBody) (c := .format d) rfl h
    refine ⟨_, hexec, ?_, ?_, ?_, ?_⟩
    · exact (State.admitted_accepted h).of_same (formatBody_same _ d)
    · rw [formatBody_words, State.admitted_formatMask, State.admitted_flash]
    · rw [(formatBody_kept _ d).t1 rfl, State.admitted_t1]
    · rw [(formatBody_kept _ d).hostMem rfl, State.admitted_hostMem]
end

section
/-! PROOFS. Transactions, connections and quiesces: what their descriptors do at once (R379, R380, R382, R383, R386). -/

namespace Sys2Proof.Machine

/-! ### Transactions -/

section
variable (s : State) (d : Desc) (op need : Nat)

theorem State.admitted_txns : (s.admitted d op need).host.txns = s.host.txns := by
  obtain ⟨fns, work, h⟩ := s.admitted_host d op need
  rw [h]

theorem State.admitted_txn (f : Nat) : (s.admitted d op need).txn f = s.txn f := by
  unfold State.txn; rw [s.admitted_txns]

theorem State.admitted_commits : (s.admitted d op need).host.commits = s.host.commits := by
  obtain ⟨fns, work, h⟩ := s.admitted_host d op need
  rw [h]

theorem State.admitted_functions : (s.admitted d op need).functions = s.functions := by
  obtain ⟨fns, work, h⟩ := s.admitted_host d op need
  unfold State.functions
  rw [h]

theorem State.admitted_isFallow : (s.admitted d op need).isFallow = s.isFallow := by
  unfold State.isFallow
  rw [s.admitted_power]

end

section
variable (s : State) (d : Desc) (f r status : Nat) (q : Word64) (c : Comp) (bufs : List (Nat × List Byte))

theorem State.finish_txn (g : Nat) : (s.finish f r q c bufs).txn g = s.txn g := by
  obtain ⟨fns, work, h⟩ := s.finish_host f r q c bufs
  unfold State.txn; rw [h]

theorem State.finish_commits : (s.finish f r q c bufs).host.commits = s.host.commits := by
  obtain ⟨fns, work, h⟩ := s.finish_host f r q c bufs
  rw [h]

theorem State.finish_kept : Kept (within [.host]) s (s.finish f r q c bufs) := kept_finish (.refl s) rfl

theorem State.endWith_txn (g : Nat) : (s.endWith d status).txn g = s.txn g := s.finish_txn _ _ _ _ _ g

end

/-- The transactions of the host interface replaced: rings and work stay. -/
def State.setTxns (s : State) (ts : List Txn) : State := { s with host := { s.host with txns := ts } }

theorem State.setTxns_same (s : State) (ts : List Txn) : SameWork s (s.setTxns ts) := .of_parts (fun _ => rfl) rfl

theorem State.endTxn_txn (s : State) (f : Nat) : (s.endTxn f).txn f = none := by
  refine List.find?_eq_none.2 fun t ht => ?_
  have hne := (List.mem_filter.1 ht).2
  simpa using hne

theorem State.endTxn_same (s : State) (f : Nat) : SameWork s (s.endTxn f) := .of_parts (fun _ => rfl) rfl

/-- A BEGIN passes its checks only while its function has no transaction open. -/
theorem txn_none_of_begin {s : State} {d : Desc} (h : s.takes d 0x01 (txnCheck 1) 1 = true) : s.txn d.fn = none := by
  obtain ⟨-, -, -, -, hcheck, -⟩ := State.takes_iff.1 h
  unfold txnCheck at hcheck
  split at hcheck
  · simp at hcheck
  · split at hcheck
    · simp at hcheck
    next hsome => simpa using hsome

theorem txn_append {s : State} {f : Nat} {t : Txn} (h : s.txn f = none) (hfn : t.fn = f) :
    (s.setTxns (s.host.txns ++ [t])).txn f = some t := by
  have hold : s.host.txns.find? (fun t => t.fn == f) = none := h
  simp [State.txn, State.setTxns, List.find?_append, hold, hfn]

/-- The transaction of a function with a further record. -/
def extendTxns (f : Nat) (r : Nat × Nat) (ts : List Txn) : List Txn :=
  ts.map fun t => if t.fn = f then { t with sets := t.sets ++ [r] } else t

theorem txn_extend {s : State} {f : Nat} {x : Txn} (h : s.txn f = some x) (r : Nat × Nat) :
    (s.setTxns (extendTxns f r s.host.txns)).txn f = some { x with sets := x.sets ++ [r] } := by
  have hfn : x.fn = f := by simpa using List.find?_some h
  have hkey : ((fun t : Txn => t.fn == f) ∘ fun t : Txn => if t.fn = f then { t with sets := t.sets ++ [r] } else t) =
      fun t : Txn => t.fn == f := by
    funext t
    simp only [Function.comp_apply]
    split <;> rfl
  have hx : s.host.txns.find? (fun t => t.fn == f) = some x := h
  show List.find? _ (List.map _ _) = _
  rw [List.find?_map, hkey, hx, Option.map_some, if_pos hfn]

/-- Administration descriptors have class 0, which takes no slot. -/
theorem State.admitted_admin {s : State} {d : Desc} {op : Nat} {check : State → Desc → Option Nat}
    (hop : adminOp op = true)
    (h : s.takes d op check 1 = true) : s.admitted d op 1 = s.acceptWork d op 0 true none := by
  obtain ⟨-, -, -, hform, -⟩ := State.takes_iff.1 h
  have hcls : d.cls = 0 := by
    by_contra hne
    unfold formCheck at hform
    split_ifs at hform with _ _ _ hclass
    exact hclass (by simp [hop, hne])
  have hslots : classHasSlots d.cls = false := by rw [hcls]; decide
  rw [State.admitted, hslots]
  rfl

/-- What a body leaves once it has ended its descriptor on a state that still runs it. -/
theorem endWith_after {s a x : State} {d : Desc} {op : Nat} (status : Nat) (hacc : Accepted s a d op) (hruns : a.runs d)
    (hsame : SameWork a x) (hwork : x.host.work = a.host.work) :
    Accepted s (x.endWith d status) d op ∧ (x.endWith d status).endedWith d status :=
  ⟨(hacc.of_same hsame).of_same (x.endWith_same d status),
      State.endWith_endedWith (State.runs_of_work hruns hwork) status⟩

/-! ### COMMIT -/

/-- The commit of a transaction that passes. -/
def State.commitOf (a : State) (d : Desc) (x : Txn) : Commit :=
  { fn := d.fn, ring := d.ring, seq := d.seq, beginSeq := x.beginSeq, items := (a.txnItems x).map (·.1), keys := []
    data := (a.txnItems x).map (·.2), result := d.w 2, apply := a.applyTick }

/-- The swap of the plan that a transaction sets, if it sets one. -/
def State.withSwap (a : State) (x : Txn) : State :=
  match itemIn (a.txnItems x) 2 9 0 with
  | some p => { a with plan := { a.plan with swap := some (p.1.v0, p.1.v1) } }
  | none => a

/-- A transaction that passes is closed and listed for its boundary. -/
def State.listCommit (a : State) (d : Desc) (x : Txn) : State :=
  let b := (a.withSwap x).endTxn d.fn
  { b with host := { b.host with commits := b.host.commits ++ [a.commitOf d x] } }

section
variable (a : State) (d : Desc) (x : Txn)

theorem State.withSwap_kept : Kept (within [.plan]) a (a.withSwap x) := by
  unfold State.withSwap
  split
  · exact (Kept.refl a).mk_plan rfl
  · exact .refl a

theorem State.listCommit_fn (k : Nat) : (a.listCommit d x).fn k = a.fn k :=
  State.fn_congr ((a.withSwap_kept x).host rfl) k

theorem State.listCommit_work : (a.listCommit d x).host.work = a.host.work := by
  show (a.withSwap x).host.work = _
  rw [(a.withSwap_kept x).host rfl]

theorem State.listCommit_txn : (a.listCommit d x).txn d.fn = none := State.endTxn_txn (a.withSwap x) d.fn

theorem State.listCommit_items : (a.listCommit d x).items = a.items := (a.withSwap_kept x).items rfl

theorem State.listCommit_commits : (a.listCommit d x).host.commits = a.host.commits ++ [a.commitOf d x] := by
  show (a.withSwap x).host.commits ++ _ = _
  rw [(a.withSwap_kept x).host rfl]

/-- A transaction that does not pass is closed, and its COMMIT ends with the status of its record's reason. -/
theorem State.rejectCommit_finish (n i k : Nat) : ∃ bufs, a.rejectCommit d n i k =
    (a.endTxn d.fn).finish d.fn d.ring d.seq (compOf (if k = 3 then stNotPermitted else stRejected)) bufs := ⟨_, rfl⟩

end

section
variable {a : State} {d : Desc} {x : Txn} (htxn : a.txn d.fn = some x) (hawake : a.isFallow = false)
include htxn hawake

theorem commitBody_passes (hfault : firstFault a (a.afterCommits a.applyTick) d.fn (a.txnItems x)
    (a.afterCommits a.applyTick) [] (a.txnItems x) = none) : commitBody a d = a.listCommit d x := by
  unfold commitBody
  rw [htxn]
  dsimp only
  rw [if_neg (by simp [hawake]), hfault]
  rfl

theorem commitBody_faults {i k : Nat} (hfault : firstFault a (a.afterCommits a.applyTick) d.fn (a.txnItems x)
    (a.afterCommits a.applyTick) [] (a.txnItems x) = some (i, k)) :
    commitBody a d = a.rejectCommit d (a.txnItems x).length i k := by
  unfold commitBody
  rw [htxn]
  dsimp only
  rw [if_neg (by simp [hawake]), hfault]

end

/-! ### Connections -/

theorem State.conn_congr {s t : State} (h : t.fabric = s.fabric) (n : Nat) : t.conn n = s.conn n := by
  unfold State.conn; rw [h]

theorem State.admitted_lowestNum (s : State) (d : Desc) (op need : Nat) (resident qp : Bool) :
    (s.admitted d op need).lowestNum resident qp = s.lowestNum resident qp := by
  unfold State.lowestNum State.numFree State.conn
  rw [s.admitted_fabric, s.admitted_tick]

/-- A CONN_OPEN that finds a number puts one connection there, with the fields of its descriptor, and ends. -/
theorem connOpenBody_opens {a : State} {d : Desc} {n : Nat}
    (hn : a.lowestNum ((d.w 1).testBit 36) (field (d.w 1) 34 2 == 0 || field (d.w 1) 34 2 == 3) = some n) :
    ∃ (b : State) (c : Conn) (result : Word64), connOpenBody a d =
        (b.setConn c).finish d.fn d.ring d.seq { status := stOk, flags := 0, result := result } [] ∧
      b.host = a.host ∧ b.fabric.conns = a.fabric.conns ∧ c.num = n ∧
      c.fn = d.fn ∧ c.tc = field (d.w 1) 37 3 ∧ c.kind = connKind (field (d.w 1) 34 2) ∧ c.state = .opening ∧
      c.peerHi = BitVec.ofNat 64 (d.w 2) ∧ c.peerLo = BitVec.ofNat 64 (d.w 3) ∧ c.peerMac = field (d.w 4) 0 48 ∧
      c.peerConn = field (d.w 5) 0 21 ∧ c.mtu = 1024 * 2 ^ field (d.w 1) 32 2 ∧ c.expPsn = field (d.w 1) 0 24 := by
  unfold connOpenBody
  dsimp only
  rw [hn]
  exact ⟨_, _, _, rfl, rfl, rfl, rfl, rfl, rfl, rfl, rfl, rfl, rfl, rfl, rfl, rfl, rfl⟩

/-! ### Quiesces -/

section
variable (s : State) (f : Nat) (on : Bool)

theorem State.setQuiesce_fn : (s.setQuiesce f on).fn f = { s.fn f with quiesceNext := some on } :=
  State.fn_setFn_of s (x := { s.fn f with quiesceNext := some on }) (s.fn_id f)

theorem State.setQuiesce_fn_ne {k : Nat} (h : k ≠ f) : (s.setQuiesce f on).fn k = s.fn k :=
  State.fn_setFn_ne s { s.fn f with quiesceNext := some on } (h.trans_eq (s.fn_id f).symm)

theorem State.setQuiesce_same : SameWork s (s.setQuiesce f on) := by
  refine .of_parts (fun k => ?_) rfl
  by_cases hk : k = f
  · subst hk
    rw [s.setQuiesce_fn]
  · rw [s.setQuiesce_fn_ne f on hk]

end

/-- The quiesce or resume of several functions. -/
def State.setQuiesces (s : State) (fs : List Nat) (on : Bool) : State := fs.foldl (fun s f => s.setQuiesce f on) s

theorem State.setQuiesces_next (fs : List Nat) (on : Bool) (k : Nat) : ∀ s : State,
    ((s.setQuiesces fs on).fn k).quiesceNext = if k ∈ fs then some on else (s.fn k).quiesceNext := by
  induction fs with
  | nil => exact fun _ => rfl
  | cons f fs ih =>
    intro s
    refine (ih (s.setQuiesce f on)).trans ?_
    by_cases hk : k = f
    · subst hk
      rw [s.setQuiesce_fn]
      simp
    · rw [s.setQuiesce_fn_ne f on hk]
      simp [hk]

theorem State.setQuiesces_same (s : State) (fs : List Nat) (on : Bool) : SameWork s (s.setQuiesces fs on) :=
  .foldl (fun s f => s.setQuiesce_same f on) fs s

theorem State.setQuiesces_work (s : State) (fs : List Nat) (on : Bool) :
    (s.setQuiesces fs on).host.work = s.host.work :=
  foldl_keeps (f := fun (s : State) (f : Nat) => s.setQuiesce f on) (fun s : State => s.host.work) (fun _ _ => rfl) fs s

theorem State.endWith_next (s : State) (d : Desc) (status k : Nat) :
    ((s.endWith d status).fn k).quiesceNext = (s.fn k).quiesceNext := by
  obtain ⟨m, hm, -⟩ := s.finish_fn d.fn d.ring d.seq (compOf status) [] k
  exact (congrArg Fn.quiesceNext hm).trans rfl

theorem State.admitted_next (s : State) (d : Desc) (op need k : Nat) :
    ((s.admitted d op need).fn k).quiesceNext = (s.fn k).quiesceNext := by
  obtain ⟨rings, h, -⟩ := s.admitted_fn d op need k
  rw [h]

theorem State.endWith_fn_ne (s : State) (d : Desc) (status : Nat) {k : Nat} (h : k ≠ d.fn) :
    (s.endWith d status).fn k = s.fn k := by
  obtain ⟨m, hm, hsame⟩ := s.finish_fn d.fn d.ring d.seq (compOf status) [] k
  exact hm.trans (by rw [hsame h])

theorem State.admitted_fn_ne (s : State) (d : Desc) (op need : Nat) {k : Nat} (h : k ≠ d.fn) :
    (s.admitted d op need).fn k = s.fn k := by
  obtain ⟨rings, hfn, hsame⟩ := s.admitted_fn d op need k
  rw [hfn, hsame h]

/-- A quiesce or resume of TARGET 0 that its checks pass: the issuing function's next state, and its end. -/
theorem quiesce_own {s : State} {d : Desc} {op k : Nat} (on : Bool) (h : s.takes d op (quiesceCheck k) 1 = true) :
    let t := quiesceBody 0 on (s.admitted d op 1) d
    Accepted s t d op ∧ t.endedWith d stOk ∧ (t.fn d.fn).quiesceNext = some on ∧ ∀ f, f ≠ d.fn → t.fn f = s.fn f := by
  obtain ⟨hacc, hended⟩ := endWith_after stOk (State.admitted_accepted h) (State.admitted_runs h)
    ((s.admitted d op 1).setQuiesce_same d.fn on) rfl
  refine ⟨hacc, hended, ?_, fun f hf => ?_⟩
  · exact (State.endWith_next _ _ _ _).trans (congrArg Fn.quiesceNext (State.setQuiesce_fn _ _ _))
  · exact ((State.endWith_fn_ne _ d stOk hf).trans (State.setQuiesce_fn_ne _ _ _ hf)).trans (s.admitted_fn_ne d op 1 hf)

/-- A quiesce or resume of TARGET 1 that its checks pass: every function of the composition, and its end. -/
theorem quiesce_all {s : State} {d : Desc} {op k : Nat} (on : Bool) (h : s.takes d op (quiesceCheck k) 1 = true) :
    let t := quiesceBody 1 on (s.admitted d op 1) d
    Accepted s t d op ∧ t.endedWith d stOk ∧
      ∀ f, (t.fn f).quiesceNext = if f ∈ s.functions then some on else (s.fn f).quiesceNext := by
  obtain ⟨hacc, hended⟩ := endWith_after stOk (State.admitted_accepted h) (State.admitted_runs h)
    ((s.admitted d op 1).setQuiesces_same (s.admitted d op 1).functions on) (State.setQuiesces_work _ _ _)
  refine ⟨hacc, hended, fun f => ?_⟩
  refine (State.endWith_next _ _ _ _).trans ((State.setQuiesces_next _ on f (s.admitted d op 1)).trans ?_)
  rw [s.admitted_functions, s.admitted_next]

/-- TARGET 2 sends to the peer and lists the quiesce until the peer has acknowledged. -/
theorem quiesceBody_remote (a : State) (d : Desc) :
    ∃ q : RemoteQuiesce, (quiesceBody 2 true a d).host = { a.host with remoteQuiesce := a.host.remoteQuiesce ++ [q] } ∧
      q.fn = d.fn ∧ q.ring = d.ring ∧ q.seq = d.seq ∧ q.peer = field (d.w 3) 0 32 ∧ q.func = field (d.w 1) 0 12 ∧
      q.quiesce = true := by
  have hsent (bytes : List Byte) : (a.sendPlan 7 (field (d.w 3) 0 32) bytes).host = a.host :=
    (kept_sendPlan (w := within [.fabric, .egress]) (.refl a) rfl rfl).host rfl
  unfold quiesceBody
  dsimp only
  rw [hsent]
  exact ⟨_, rfl, rfl, rfl, rfl, rfl, rfl, rfl⟩

end Sys2Proof.Machine

open Sys2Proof Sys2Proof.Machine

/-- Settles O33: each body makes one change of the open transaction and ends its descriptor. -/
theorem transactionsFollowTheirDescriptors : Obligations.TransactionsFollowTheirDescriptors := by
  unfold Obligations.TransactionsFollowTheirDescriptors
  intro s d
  refine ⟨fun h => ?_, fun x h htxn => ?_, fun h => ?_, ?_⟩
  · have hexec := exec_of_takes (need := oneSlot) (body := beginBody) (c := .beginTxn d) rfl h
    have hnone : (s.admitted d 0x01 1).txn d.fn = none := (s.admitted_txn d 0x01 1 d.fn).trans (txn_none_of_begin h)
    obtain ⟨hacc, hended⟩ := endWith_after stOk (State.admitted_accepted h) (State.admitted_runs h)
      ((s.admitted d 0x01 1).setTxns_same ((s.admitted d 0x01 1).host.txns ++ [⟨d.fn, d.seq, []⟩])) rfl
    refine ⟨_, _, hexec, hacc, hended, (State.endWith_txn _ _ _ _).trans (txn_append hnone rfl), rfl, rfl, ?_⟩
    exact ((State.endWith_kept _ d stOk).items rfl).trans (s.admitted_items d 0x01 1)
  · have hexec := exec_of_takes (need := oneSlot) (body := setBody) (c := .setItem d) rfl h
    have hx : (s.admitted d 0x02 1).txn d.fn = some x := (s.admitted_txn d 0x02 1 d.fn).trans htxn
    have hcount : (s.admitted d 0x02 1).txnCount d.fn = (x.sets.map (·.2)).sum := by
      unfold State.txnCount; rw [hx]
    unfold setBody at hexec
    rw [show oneSlot s d = 1 from rfl, hcount] at hexec
    by_cases hfull : (x.sets.map (·.2)).sum + (field (d.w 1) 0 9 + 1) > 4096
    · rw [if_pos hfull] at hexec
      obtain ⟨hacc, hended⟩ := endWith_after stRejected (State.admitted_accepted h) (State.admitted_runs h)
        ((s.admitted d 0x02 1).endTxn_same d.fn) rfl
      refine ⟨_, hexec, hacc, ?_, fun hle => by omega, fun _ => ⟨hended, ?_⟩⟩
      · exact ((State.endWith_kept _ d stRejected).items rfl).trans (s.admitted_items d 0x02 1)
      · rw [State.endWith_txn, State.endTxn_txn]
    · rw [if_neg hfull] at hexec
      obtain ⟨hacc, hended⟩ := endWith_after stOk (State.admitted_accepted h) (State.admitted_runs h)
        ((s.admitted d 0x02 1).setTxns_same
          (extendTxns d.fn (d.w 2, field (d.w 1) 0 9 + 1) (s.admitted d 0x02 1).host.txns)) rfl
      refine ⟨_, hexec, hacc, ?_, fun _ => ⟨hended, ?_⟩, fun hgt => absurd hgt hfull⟩
      · exact ((State.endWith_kept _ d stOk).items rfl).trans (s.admitted_items d 0x02 1)
      · rw [State.endWith_txn]
        exact txn_extend hx _
  · have hexec := exec_of_takes (need := oneSlot) (body := rollbackBody) (c := .rollback d) rfl h
    obtain ⟨hacc, hended⟩ := endWith_after stOk (State.admitted_accepted h) (State.admitted_runs h)
      ((s.admitted d 0x04 1).endTxn_same d.fn) rfl
    refine ⟨_, hexec, hacc, hended, ?_, ?_, ?_⟩
    · exact (State.endWith_txn _ _ _ _).trans (State.endTxn_txn _ _)
    · exact ((State.endWith_kept _ d stOk).items rfl).trans (s.admitted_items d 0x04 1)
    · exact (State.finish_commits _ _ _ _ _ _).trans (s.admitted_commits d 0x04 1)
  · rintro x a rfl h htxn hfallow
    have hexec := exec_of_takes (need := oneSlot) (body := commitBody) (c := .commit d) rfl h
    rw [show oneSlot s d = 1 from rfl] at hexec
    rw [← State.admitted_admin rfl h]
    have hx : (s.admitted d 0x03 1).txn d.fn = some x := (s.admitted_txn d 0x03 1 d.fn).trans htxn
    have hawake : (s.admitted d 0x03 1).isFallow = false := (s.admitted_isFallow d 0x03 1).trans hfallow
    cases hfault : firstFault (s.admitted d 0x03 1) ((s.admitted d 0x03 1).afterCommits (s.admitted d 0x03 1).applyTick)
        d.fn ((s.admitted d 0x03 1).txnItems x) ((s.admitted d 0x03 1).afterCommits (s.admitted d 0x03 1).applyTick) []
        ((s.admitted d 0x03 1).txnItems x) with
    | none =>
      rw [commitBody_passes hx hawake hfault] at hexec
      refine ⟨_, hexec, ?_, ?_, ?_, fun _ =>
        ⟨(s.admitted d 0x03 1).commitOf d x, ?_, rfl, rfl, rfl, ?_, rfl⟩, fun i k hik => by simp at hik⟩
      · exact (State.admitted_accepted h).of_same (.of_parts (fun _ => by rw [State.listCommit_fn])
            (State.listCommit_work _ _ _))
      · exact State.listCommit_txn _ _ _
      · exact (State.listCommit_items _ _ _).trans (s.admitted_items d 0x03 1)
      · exact (State.listCommit_commits _ _ _).trans (congrArg (· ++ _) (s.admitted_commits d 0x03 1))
      · unfold State.commitOf State.applyTick
        rw [State.admitted_tick]
    | some ik =>
      obtain ⟨i, k⟩ := ik
      rw [commitBody_faults hx hawake hfault] at hexec
      obtain ⟨bufs, hbufs⟩ := (s.admitted d 0x03 1).rejectCommit_finish d ((s.admitted d 0x03 1).txnItems x).length i k
      rw [hbufs] at hexec
      have hsame := (s.admitted d 0x03 1).endTxn_same d.fn
      have hruns := State.runs_of_work (State.admitted_runs h) (t := (s.admitted d 0x03 1).endTxn d.fn) rfl
      refine ⟨_, hexec, ?_, ?_, ?_, fun hnone => by simp at hnone, fun i' k' hik => ⟨?_, ?_⟩⟩
      · exact ((State.admitted_accepted h).of_same hsame).of_same (State.finish_same _ _ _ _ _ _)
      · exact (State.finish_txn _ _ _ _ _ _ _).trans (State.endTxn_txn _ _)
      · exact ((State.finish_kept _ _ _ _ _ _).items rfl).trans (s.admitted_items d 0x03 1)
      · exact (State.finish_commits _ _ _ _ _ _).trans (s.admitted_commits d 0x03 1)
      · obtain ⟨rfl, rfl⟩ : i = i' ∧ k = k' := by simpa using hik
        exact State.finish_endedWith hruns (compOf (if k = 3 then stNotPermitted else stRejected)) bufs

/-- Settles O34: CONN_OPEN puts one connection at the number it found (`connOpenBody_opens`). -/
theorem connectionsOpenAndClose : Obligations.ConnectionsOpenAndClose := by
  unfold Obligations.ConnectionsOpenAndClose
  intro s d n
  refine ⟨fun h hn => ?_, fun c h hnum hc hcnum => ?_⟩
  · have hexec := exec_of_takes (need := oneSlot) (body := connOpenBody) (c := .connOpen d) rfl h
    obtain ⟨b, c, result, hbody, hhost, hconns, hcnum, hfields⟩ :=
      connOpenBody_opens ((s.admitted_lowestNum d 0x07 1 _ _).trans hn)
    obtain ⟨hfn, htc, hkind, hstate, hhi, hlo, hmac, hconn, hmtu, hpsn⟩ := hfields
    rw [show oneSlot s d = 1 from rfl, hbody] at hexec
    have hruns : (b.setConn c).runs d := State.runs_of_work (State.admitted_runs h) (congrArg HostIf.work hhost)
    have hafter (k : Nat) : ((b.setConn c).finish d.fn d.ring d.seq ⟨stOk, 0, result⟩ []).conn k =
        (b.setConn c).conn k :=
      State.conn_congr ((State.finish_kept _ _ _ _ _ _).fabric rfl) k
    refine ⟨_, c, hexec, ?_, State.finish_endedWith hruns _ _, ?_, hfn, htc, hkind, hstate, hhi, hlo, hmac, hconn, hmtu,
      hpsn, fun k hk => ?_⟩
    · exact ((State.admitted_accepted h).of_same (.of_host (t := b.setConn c) hhost)).of_same
          (State.finish_same _ _ _ _ _ _)
    · rw [hafter, ← hcnum, State.conn_setConn]
    · rw [hafter, State.conn_setConn_ne _ _ (by rwa [hcnum])]
      unfold State.conn
      rw [hconns, s.admitted_fabric]
  · have hexec : exec (.connClose d) s = .next (((s.admitted d 0x08 1).mapConn (field (d.w 2) 0 21) fun c =>
        { c with state := .closing }).endWith d stOk) := exec_of_takes (need := oneSlot) (body := fun s d =>
      (s.mapConn (field (d.w 2) 0 21) fun c => { c with state := .closing }).endWith d stOk) rfl h
    have hat : (s.admitted d 0x08 1).conn n = some c := (State.conn_congr (s.admitted_fabric d 0x08 1) n).trans hc
    have hmap : ((s.admitted d 0x08 1).mapConn n fun c => { c with state := .closing }) =
        (s.admitted d 0x08 1).setConn { c with state := .closing } := by
      unfold State.mapConn
      rw [hat]
    rw [hnum, hmap] at hexec
    obtain ⟨hacc, hended⟩ := endWith_after stOk (State.admitted_accepted h) (State.admitted_runs h)
      (.of_host (t := (s.admitted d 0x08 1).setConn { c with state := .closing }) rfl) rfl
    have hafter (k : Nat) := State.conn_congr
      ((((s.admitted d 0x08 1).setConn { c with state := .closing }).endWith_kept d stOk).fabric rfl) k
    refine ⟨_, hexec, hacc, hended, ?_, fun k hk => ?_⟩
    · rw [hafter, ← hcnum]
      exact State.conn_setConn _ { c with state := .closing }
    · rw [hafter, State.conn_setConn_ne _ { c with state := .closing } (hk.trans_eq hcnum.symm)]
      exact State.conn_congr (s.admitted_fabric d 0x08 1) k

/-- Settles O35: the functions that a target names take their next state, and the descriptor ends. -/
theorem quiescesAndResumes : Obligations.QuiescesAndResumes := by
  unfold Obligations.QuiescesAndResumes
  intro s d
  refine ⟨fun h => ?_, fun h => ?_, fun h => ?_, ?_, fun peer func q hon => ?_⟩
  · exact ⟨_, exec_of_takes (need := oneSlot) (body := quiesceBody 0 true) (c := .quiesceOwn d) rfl h,
        quiesce_own true h⟩
  · obtain ⟨hacc, hended, hnext⟩ := quiesce_all true h
    refine ⟨_, exec_of_takes (need := oneSlot) (body := quiesceBody 1 true) (c := .quiesceAll d) rfl h, hacc, hended,
        ?_, ?_⟩
    · exact fun f hf => (hnext f).trans (if_pos hf)
    · exact fun f hf => (hnext f).trans (if_neg hf)
  · have hexec := exec_of_takes (need := oneSlot) (body := quiesceBody 2 true) (c := .quiesceRemote d) rfl h
    obtain ⟨q, hhost, hfields⟩ := quiesceBody_remote (s.admitted d 0x09 1) d
    obtain ⟨hfn, hring, hseq, hpeer, hfunc, hq⟩ := hfields
    have hfns (f : Nat) : (quiesceBody 2 true (s.admitted d 0x09 1) d).fn f = (s.admitted d 0x09 1).fn f := by
      unfold State.fn; rw [hhost]
    refine ⟨_, q, hexec, ?_, ?_, hfn, hring, hseq, hpeer, hfunc, hq, fun f => ?_⟩
    · exact (State.admitted_accepted h).of_same (.of_parts
        (t := quiesceBody 2 true (s.admitted d 0x09 1) d) (fun f => congrArg Fn.rings (hfns f)) (by rw [hhost]))
    · refine (congrArg HostIf.remoteQuiesce hhost).trans (congrArg (· ++ [q]) ?_)
      obtain ⟨fns, work, hadm⟩ := s.admitted_host d 0x09 1
      rw [hadm]
    · exact (congrArg Fn.quiesceNext (hfns f)).trans (s.admitted_next d 0x09 1 f)
  · rintro k hk hlt h
    have hexec := exec_of_takes (need := oneSlot) (body := quiesceBody (field (d.w 1) 32 2) false) (c := .resume d) rfl
      (hk ▸ h)
    rw [← hk] at hexec
    obtain rfl | rfl : k = 0 ∨ k = 1 := by omega
    · obtain ⟨hacc, hended, hown, -⟩ := quiesce_own false h
      exact ⟨_, hexec, hacc, hended, fun _ => hown, fun h1 => by omega⟩
    · obtain ⟨hacc, hended, hnext⟩ := quiesce_all false h
      exact ⟨_, hexec, hacc, hended, fun h0 => by omega, fun _ f hf => (hnext f).trans (if_pos hf)⟩
  · refine ⟨_, if_pos hon, congrArg Fn.quiesceNext (s.setQuiesce_fn func q), rfl,
        fun f hf => s.setQuiesce_fn_ne func q hf⟩
end

section
/-! PROOFS. Updates: what INSERT, DELETE, ROWWRITE and ROWDELETE log and queue (R238, R239, R244). -/

namespace Sys2Proof.Machine

/-! ### The insert log -/

/-- What writing codewords leaves of flash as it was: the log, the lost words and the counters. -/
structure SameLog (s t : State) : Prop where
  log : t.flash.log = s.flash.log
  lost : t.flash.lost = s.flash.lost
  counters : t.flash.counters = s.flash.counters

theorem SameLog.trans {s t u : State} (h : SameLog s t) (h' : SameLog t u) : SameLog s u :=
  ⟨h'.log.trans h.log, h'.lost.trans h.lost, h'.counters.trans h.counters⟩

theorem State.writeIn_same {s t : State} {x : Superblock} {ws : List CwData} {p : FlashPlace}
    (h : s.writeIn x ws = some (t, p)) : SameLog s t := by
  unfold State.writeIn at h
  dsimp only at h
  split at h
  · split at h
    · cases h
    · cases h
      exact ⟨rfl, rfl, rfl⟩
  · cases h

theorem State.closeSb_same (s : State) (k : Nat × Nat × Nat) : SameLog s (s.closeSb k) := by
  unfold State.closeSb
  dsimp only
  split <;> exact ⟨rfl, rfl, rfl⟩

theorem State.writeTo_same {s t : State} {o : Option (Nat × Nat × Nat)} {ws : List CwData} {k : Nat × Nat × Nat}
    {p : FlashPlace} (h : s.writeTo o ws = some (t, k, p)) : SameLog s t := by
  unfold State.writeTo at h
  dsimp only at h
  split at h
  next s1 q hhere =>
    cases h
    split at hhere
    · split at hhere
      · exact State.writeIn_same hhere
      · cases hhere
    · cases hhere
  next =>
    split at h
    · cases h
    next x _ =>
      obtain ⟨⟨s1, q⟩, hin, hout⟩ := Option.map_eq_some_iff.1 h
      cases hout
      refine SameLog.trans ?_ (State.writeIn_same hin)
      split
      · exact s.closeSb_same _
      · exact ⟨rfl, rfl, rfl⟩

theorem State.writeLogWords_same {s t : State} {ws : List CwData} {p : FlashPlace}
    (h : s.writeLogWords ws = some (t, p)) : SameLog s t := by
  obtain ⟨⟨s1, k, q⟩, hto, hout⟩ := Option.map_eq_some_iff.1 h
  cases hout
  obtain ⟨hlog, hlost, hcounters⟩ := State.writeTo_same hto
  exact ⟨hlog, hlost, hcounters⟩

section
variable (s : State) (partner : Bool) (f o : Nat) (rec : List Byte) (vec : Option (Nat × Nat × Nat × Nat))

/-- A record joins the log with its bytes. -/
theorem State.logRecord_log :
    ∃ e, (s.logRecord partner f o rec vec).1.flash.log = s.flash.log ++ [e] ∧ e.bytes = rec := by
  unfold State.logRecord
  dsimp only
  split
  next t p hwrite => exact ⟨_, congrArg (· ++ [_]) (State.writeLogWords_same hwrite).log, rfl⟩
  next => exact ⟨_, rfl, rfl⟩

/-- A record takes the next log sequence number, and no lost word or counter changes. -/
theorem State.logRecord_rest : (s.logRecord partner f o rec vec).2 = s.flash.nextLsn ∧
    (s.logRecord partner f o rec vec).1.flash.lost = s.flash.lost ∧
    (s.logRecord partner f o rec vec).1.flash.counters = s.flash.counters := by
  unfold State.logRecord
  dsimp only
  split
  next t p hwrite =>
    obtain ⟨-, hlost, hcounters⟩ := State.writeLogWords_same hwrite
    exact ⟨rfl, hlost, hcounters⟩
  next => exact ⟨rfl, rfl, rfl⟩

end

/-- The log records of an update's items. -/
def State.logItems (s : State) (d : Desc) (us : List UpItem) : State :=
  us.foldl (fun s u => (s.logRecord false d.fn (upObject d) (recBytes u) none).1) s

theorem State.logItems_log (d : Desc) (us : List UpItem) : ∀ s : State,
    (s.logItems d us).flash.log.map (·.bytes) = s.flash.log.map (·.bytes) ++ us.map recBytes := by
  induction us with
  | nil => exact fun s => (List.append_nil _).symm
  | cons u us ih =>
    intro s
    obtain ⟨e, hlog, hbytes⟩ := s.logRecord_log false d.fn (upObject d) (recBytes u) none
    refine (ih _).trans ?_
    rw [hlog, List.map_append, List.map_singleton, hbytes, List.append_assoc]
    rfl

theorem State.logItems_kept (s : State) (d : Desc) (us : List UpItem) : Kept (within [.flash]) s (s.logItems d us) :=
  Kept.foldl (.refl s) fun _ _ hk => kept_logRecord hk rfl

/-! ### The items of an update -/

/-- What an item takes from its descriptor, and from the lists in host memory that the descriptor names. -/
def ItemOf (s : State) (d : Desc) (op i : Nat) (u : UpItem) : Prop :=
  u.op = op ∧ u.fn = d.fn ∧ u.ring = d.ring ∧ u.seq = d.seq ∧ u.item = i ∧ u.obj = upObject d ∧
    u.tick = s.tick.count + 1 ∧ (op = 0x21 → u.attr = BitVec.ofNat 64 (memNat s.hostMem (d.w 3 + 8 * i) 8)) ∧
    (op = 0x27 → u.target = BitVec.ofNat 64 (memNat s.hostMem (d.w 3 + 8 * i) 8)) ∧
    (op = 0x22 ∨ op = 0x28 → u.target = BitVec.ofNat 64 (memNat s.hostMem (d.w 2 + 8 * i) 8))

/-- A list made item by item holds its items in their order. -/
theorem items_of_map {n : Nat} {g : Nat → UpItem} {P : Nat → UpItem → Prop} (hg : ∀ i, P i (g i)) :
    ((List.range n).map g).length = n ∧ ∀ i u, ((List.range n).map g)[i]? = some u → P i u := by
  refine ⟨by simp, fun i u h => ?_⟩
  obtain ⟨hi, rfl⟩ := List.getElem?_eq_some_iff.1 h
  rw [List.getElem_map, List.getElem_range]
  exact hg i

theorem State.upItems_insert {s : State} {d : Desc} {x : Index} (h : s.index d.fn (upObject d) = some x) :
    (s.upItems d 0x21).1 = (List.range (upCount d)).map fun i => (s.insertItem x d i).1 := by
  unfold State.upItems
  simp only [h, List.map_map]
  rfl

theorem State.upItems_row {s : State} {d : Desc} {x : TableDef} (h : s.tableDef d.fn (upObject d) = some x) :
    (s.upItems d 0x27).1 = (List.range (upCount d)).map (s.rowItem x d) := by
  unfold State.upItems
  simp only [h]

theorem State.upItems_of {s : State} {d : Desc} {op : Nat} (hop : op ∈ [0x21, 0x22, 0x27, 0x28])
    (hindex : op = 0x21 → (s.index d.fn (upObject d)).isSome = true)
    (htable : op = 0x27 → (s.tableDef d.fn (upObject d)).isSome = true) :
    (s.upItems d op).1.length = upCount d ∧ ∀ i u, (s.upItems d op).1[i]? = some u → ItemOf s d op i u := by
  simp only [List.mem_cons, List.not_mem_nil, or_false] at hop
  obtain rfl | rfl | rfl | rfl := hop
  · obtain ⟨x, hx⟩ := Option.isSome_iff_exists.1 (hindex rfl)
    rw [s.upItems_insert hx]
    exact items_of_map fun i => ⟨rfl, rfl, rfl, rfl, rfl, rfl, rfl, fun _ => rfl, by simp, by simp⟩
  · exact items_of_map fun i => ⟨rfl, rfl, rfl, rfl, rfl, rfl, rfl, by simp, by simp, fun _ => rfl⟩
  · obtain ⟨x, hx⟩ := Option.isSome_iff_exists.1 (htable rfl)
    rw [s.upItems_row hx]
    exact items_of_map fun i => ⟨rfl, rfl, rfl, rfl, rfl, rfl, rfl, by simp, fun _ => rfl, by simp⟩
  · exact items_of_map fun i => ⟨rfl, rfl, rfl, rfl, rfl, rfl, rfl, by simp, by simp, fun _ => rfl⟩

section
variable (s : State) (d : Desc) (op need : Nat)

theorem State.admitted_upItem (e : Desc) (o i target : Nat) :
    upItem (s.admitted d op need) e o i target = upItem s e o i target := by
  unfold upItem
  rw [s.admitted_replica, s.admitted_tick]

theorem State.admitted_upItems (e : Desc) (o : Nat) : (s.admitted d op need).upItems e o = s.upItems e o := by
  unfold State.upItems State.insertItem State.rowItem
  simp only [s.admitted_upItem, s.admitted_index, s.admitted_tableDef, s.admitted_hostMem]

theorem State.admitted_flashOf (f : Nat) : (s.admitted d op need).flashOf f = s.flashOf f := by
  unfold State.flashOf State.segHdr State.segEntry
  rw [s.admitted_flash, s.admitted_t1]

theorem State.admitted_flashGrant (f : Nat) : (s.admitted d op need).flashGrant f = s.flashGrant f := by
  obtain ⟨fns, work, h⟩ := s.admitted_host d op need
  unfold State.flashGrant State.compEntry
  rw [h]

theorem State.admitted_flashFits (n : Nat) : (s.admitted d op need).flashFits n = s.flashFits n := by
  unfold State.flashFits State.flashHeld State.flashRoom State.setWrites State.volumeOf State.die
  rw [s.admitted_flash]

end

/-- Items join those that the next tick applies. -/
def State.queueItems (s : State) (us : List UpItem) : State :=
  { s with tables := { s.tables with queue := s.tables.queue ++ us } }

/-- A new update that fits its function's flash is logged and queued. -/
theorem updateBody_logs {a : State} {d : Desc} {op : Nat} (hnew : a.applied a.replica d.fn d.ring d.seq = false)
    (hwaits : ∀ u ∈ a.tables.queue, ¬ (u.origin = a.replica ∧ u.fn = d.fn ∧ u.ring = d.ring ∧ u.seq = d.seq))
    (hfits : op = 0x21 → a.flashFits (((a.upItems d op).1.map recCost).sum) = true)
    (hroom : a.flashOf d.fn + ((a.upItems d op).1.map recCost).sum ≤ a.flashGrant d.fn) :
    updateBody op a d = ((a.logItems d (a.upItems d op).1).mapResult a.replica d.fn d.ring d.seq
      fun r => { r with saturated := decide ((a.upItems d op).2 > 0) }).queueItems (a.upItems d op).1 := by
  have hany : (a.tables.queue.any fun u =>
      u.origin == a.replica && u.fn == d.fn && u.ring == d.ring && u.seq == d.seq) = false :=
    List.any_eq_false.2 fun u hu => by simpa [and_assoc] using hwaits u hu
  have hfull : ¬ (op = 0x21 && !a.flashFits (((a.upItems d op).1.map recCost).sum)) = true := by
    intro h
    obtain ⟨hop, hno⟩ := by simpa using h
    rw [hfits hop] at hno
    exact absurd hno (by decide)
  unfold updateBody
  rw [hnew, hany]
  exact (if_neg Bool.false_ne_true).trans ((if_neg Bool.false_ne_true).trans ((if_neg hfull).trans
    (if_neg (Nat.not_lt.2 hroom))))

end Sys2Proof.Machine

open Sys2Proof Sys2Proof.Machine

/-- Settles O32: the items of the descriptor are logged one after another and then queued (`updateBody_logs`). -/
theorem updatesAreLogged : Obligations.UpdatesAreLogged := by
  unfold Obligations.UpdatesAreLogged
  intro s d op c hc h hnew hwaits hinsert hrow hroom
  have hexec : exec c s = .next (updateBody op (s.admitted d op 1) d) ∧ op ∈ [0x21, 0x22, 0x27, 0x28] := by
    simp only [List.mem_cons, List.not_mem_nil, or_false, Prod.mk.injEq] at hc
    obtain ⟨rfl, rfl⟩ | ⟨rfl, rfl⟩ | ⟨rfl, rfl⟩ | ⟨rfl, rfl⟩ := hc
    · exact ⟨exec_of_takes (need := oneSlot) (body := updateBody 0x21) rfl h, by simp⟩
    · exact ⟨exec_of_takes (need := oneSlot) (body := updateBody 0x22) rfl h, by simp⟩
    · exact ⟨exec_of_takes (need := oneSlot) (body := updateBody 0x27) rfl h, by simp⟩
    · exact ⟨exec_of_takes (need := oneSlot) (body := updateBody 0x28) rfl h, by simp⟩
  obtain ⟨hexec, hop⟩ := hexec
  obtain ⟨hlength, hitems⟩ := s.upItems_of hop (fun h => (hinsert h).1) hrow
  rw [updateBody_logs
    (by rw [s.admitted_replica, s.admitted_applied]; exact hnew)
    (by rw [s.admitted_replica, s.admitted_tables]; exact hwaits)
    (by rw [s.admitted_upItems, s.admitted_flashFits]; exact fun h => (hinsert h).2)
    (by rw [s.admitted_upItems, s.admitted_flashOf, s.admitted_flashGrant]; exact hroom), s.admitted_upItems] at hexec
  have hlogged := (s.admitted d op 1).logItems_kept d (s.upItems d op).1
  refine ⟨_, (s.upItems d op).1, hexec, ?_, ?_, hlength, ?_, ?_, ?_, ?_, hitems⟩
  · exact (State.admitted_accepted h).of_same (.of_host (hlogged.host rfl))
  · exact congrArg (·.queue ++ (s.upItems d op).1) ((hlogged.tables rfl).trans (s.admitted_tables d op 1))
  · refine ((s.admitted d op 1).logItems_log d (s.upItems d op).1).trans ?_
    rw [s.admitted_flash]
  · exact (hlogged.t1 rfl).trans (s.admitted_t1 d op 1)
  · exact (hlogged.search rfl).trans (s.admitted_search d op 1)
  · exact (hlogged.hostMem rfl).trans (s.admitted_hostMem d op 1)
end

section
/-! PROOFS. Flash: programs, erases and dies, rotation events, checkpoints, and the refill of lost vectors (10). -/

namespace Sys2Proof.Machine

theorem mem_putBy {α : Type} (key : α → Nat) (x : α) (l : List α) : x ∈ putBy key x l :=
  List.mem_of_find?_eq_some (find?_putBy key x l)

/-! ### Programs and erases -/

theorem State.dieFails_counters (s : State) (d : Nat) : (s.dieFails d).flash.counters = s.flash.counters := by
  unfold State.dieFails
  split <;> rfl

theorem State.badBlock_counters (s : State) (d plane block : Nat) :
    (s.badBlock d plane block).flash.counters = bumpAt s.flash.counters 8 1 := by
  unfold State.badBlock
  dsimp only
  split
  · exact State.dieFails_counters _ d
  · rfl

/-- The data of a superblock whose block has failed moves to another, where one is free. -/
def State.leaveSb (s : State) (x : Superblock) : State :=
  match (s.setSb x).pickSb with
  | some b => ((s.setSb x).moveSb x b).settleLog
  | none => s.setSb x

theorem State.leaveSb_counters (s : State) (x : Superblock) : (s.leaveSb x).flash.counters = s.flash.counters := by
  unfold State.leaveSb
  split <;> rfl

/-- What the ends of FORMATs leave of flash as it was. -/
theorem State.formatEnds_flash (s : State) :
    s.formatEnds.flash.sbs = s.flash.sbs ∧ s.formatEnds.flash.counters = s.flash.counters ∧
      s.formatEnds.flash.jPending = s.flash.jPending ∧ s.formatEnds.flash.words = s.flash.words := by
  unfold State.formatEnds
  dsimp only
  refine ⟨foldl_keeps (fun s : State => s.flash.sbs) ?_ _ s, foldl_keeps (fun s : State => s.flash.counters) ?_ _ s,
    foldl_keeps (fun s : State => s.flash.jPending) ?_ _ s, foldl_keeps (fun s : State => s.flash.words) ?_ _ s⟩ <;>
    (intro a j; rw [(State.finish_kept _ _ _ _ _ _).flash rfl]; rfl)

section
variable {s : State} {p : FlashPlace} {x : Superblock} (hx : x = s.sb p.set p.plane p.block)
include hx

/-- A page of the stream that has been programmed. -/
theorem exec_programDone_ok (hstate : x.state = .open_ ∨ x.state = .full) (hpage : p.page ≤ x.page)
    (hdata : p.page < streamPages) (hnew : p.page ∉ x.programmed) : exec (.programDone p true) s =
    .next ((s.setSb { x with programmed := x.programmed ++ [p.page] }).jot 3
      [p.set, p.plane, p.block, p.page]).settleLog := by
  subst hx
  have hwritten : ((s.sb p.set p.plane p.block).state == .open_ || (s.sb p.set p.plane p.block).state == .full) =
      true := by
    simpa using hstate
  refine congrArg Host.Outcome.next ((if_neg ?_).trans (if_pos rfl))
  simp [hwritten, hpage, hdata, hnew]

/-- A page of the stream whose program has failed. -/
theorem exec_programDone_failed (hstate : x.state = .open_ ∨ x.state = .full) (hpage : p.page ≤ x.page)
    (hdata : p.page < streamPages) (hnew : p.page ∉ x.programmed) :
    ∃ t, exec (.programDone p false) s = .next t ∧ t.flash.counters = bumpAt s.flash.counters 8 1 := by
  subst hx
  have hwritten : ((s.sb p.set p.plane p.block).state == .open_ || (s.sb p.set p.plane p.block).state == .full) =
      true := by
    simpa using hstate
  refine ⟨(s.badBlock (pageDie p.set p.block p.page) p.plane p.block).leaveSb
      { s.sb p.set p.plane p.block with state := .full },
    congrArg Host.Outcome.next ((if_neg ?_).trans ((if_neg Bool.false_ne_true).trans ?_)), ?_⟩
  · simp [hwritten, hpage, hdata, hnew]
  · unfold State.leaveSb
    rfl
  · exact (State.leaveSb_counters _ _).trans (s.badBlock_counters _ _ _)

/-- A superblock that has been erased: free, with one erase more. -/
def Superblock.erased (x : Superblock) : Superblock :=
  { x with erases := x.erases + 1, state := .free, page := 0, off := 0, programmed := [], suspended := false }

theorem exec_eraseDone (hstate : x.state = .erasing ∨ x.state = .unknown) : exec (.eraseDone p []) s =
    .next (((if x.state = .unknown then s.bumpFlash 9 1 else s).setSb x.erased).jot 2
      [p.set, p.plane, p.block]).formatEnds := by
  subst hx
  obtain h | h := hstate
  · refine congrArg Host.Outcome.next ((if_pos (by simp [h])).trans ?_)
    simp [h, Superblock.erased]
  · refine congrArg Host.Outcome.next ((if_pos (by simp [h])).trans ?_)
    simp [h, Superblock.erased]

end

/-! ### Dies -/

theorem State.die_dieTo (s : State) (d : Nat) (st : DieState) : (s.dieTo d st).die d = { s.die d with state := st } :=
  State.die_setDie_of s (x := { s.die d with state := st }) (s.die_id d)

theorem State.die_dieTo_ne (s : State) {d k : Nat} (st : DieState) (h : k ≠ d) : (s.dieTo d st).die k = s.die k :=
  State.die_setDie_ne s { s.die d with state := st } (h.trans_eq (s.die_id d).symm)

/-- The rebuild of a die set is over. -/
def endRebuild (set : Nat) (dies : List Die) : List Die :=
  dies.map fun y => if setOfDie y.id = set then { y with rebuild := false } else y

/-- The dies whose set is rebuilt, in a state whose die `d` has just been retired. -/
theorem die_endRebuild {s t : State} {d : Nat}
    (h : t.flash.dies = endRebuild (setOfDie d) (s.dieTo d .retired).flash.dies) :
    (t.die d).state = .retired ∧ (t.die d).rebuild = false := by
  have hkey : ((fun y : Die => y.id == d) ∘
      fun y : Die => if setOfDie y.id = setOfDie d then { y with rebuild := false } else y) = fun y => y.id == d := by
    funext y
    simp only [Function.comp_apply]
    split <;> rfl
  have hid := s.die_id d
  have hdie : (s.dieTo d .retired).flash.dies.find? (fun y => y.id == d) = some { s.die d with state := .retired } := by
    have hput := find?_putBy Die.id { s.die d with state := .retired } s.flash.dies
    rwa [show ({ s.die d with state := .retired } : Die).id = d from hid] at hput
  unfold State.die
  rw [h, endRebuild, List.find?_map, hkey, hdie, Option.map_some, Option.getD_some,
    if_pos (congrArg setOfDie hid)]
  exact ⟨rfl, rfl⟩

theorem exec_dieRetired {s : State} {d : Nat} (hfailed : (s.die d).state = .failed)
    (hrebuild : (s.die d).rebuild = true) :
    ∃ s1 t : State, exec (.dieRetired d) s = .next t ∧
        t.flash.dies = endRebuild (setOfDie d) (s1.dieTo d .retired).flash.dies ∧
      t.events = (s1.dieTo d .retired).events := by
  refine ⟨_, _, congrArg Host.Outcome.next (if_neg ?_), rfl, rfl⟩
  simp [hfailed, hrebuild]

/-! ### Segments -/

theorem segOf_key {s : State} {f o l : Nat} {g : Segment} (h : s.segOf f o l = some g) :
    g ∈ s.flash.segs ∧ g.fn = f ∧ g.obj = o ∧ g.list = l := by
  have hkey := List.find?_some h
  simp only [Bool.and_eq_true, beq_iff_eq] at hkey
  exact ⟨List.mem_of_find?_eq_some h, hkey.1.1, hkey.1.2, hkey.2⟩

/-- A segment put back stands among the segments, if its list had one. -/
theorem mem_setSeg {s : State} {g h : Segment} (hmem : g ∈ s.flash.segs)
    (hkey : h.fn = g.fn ∧ h.obj = g.obj ∧ h.list = g.list) : h ∈ (s.setSeg h).flash.segs := by
  refine List.mem_map.2 ⟨g, hmem, if_pos ?_⟩
  simp [hkey]

/-! ### Messages that go out -/

theorem State.sendStream_out (s : State) (n psns : Nat) (mk : Conn → LPkt) (m : Option (Nat × Nat)) :
    (s.sendStream n psns mk m).fabric.out = s.fabric.out := by
  unfold State.sendStream
  split
  · rfl
  · dsimp only
    split <;> rfl

theorem State.sendBatch_out (s : State) (n addr : Nat) (body final : List Byte) (sig : Word64) :
    (s.sendBatch n addr body final sig).fabric.out = s.fabric.out := by
  unfold State.sendBatch
  split
  · rfl
  · dsimp only
    split <;>
      exact (State.sendStream_out _ _ _ _ _).trans
        (foldl_keeps (fun s : State => s.fabric.out) (fun s x => State.sendStream_out s _ _ _ _) _ _)

theorem State.sendPlan_out (s : State) (tc node : Nat) (bytes : List Byte) :
    (s.sendPlan tc node bytes).fabric.out = s.fabric.out ++ [⟨tc, node, bytes⟩] := by
  unfold State.sendPlan
  dsimp only
  split
  · rfl
  · split
    · exact State.sendBatch_out _ _ _ _ _ _
    · rfl

theorem State.sendPlan_kept (s : State) (tc node : Nat) (bytes : List Byte) :
    Kept (within [.fabric, .egress]) s (s.sendPlan tc node bytes) := kept_sendPlan (.refl s) rfl rfl

/-! ### The refill of lost vectors -/

/-- The refill of a lost word takes a new state. -/
def State.setLost (s : State) (w : LostWord) (st : RefillState) : State :=
  { s with flash := { s.flash with lost := s.flash.lost.map fun y => if y == w then { y with refill := st } else y } }

theorem mem_setLost {s : State} {w : LostWord} (st : RefillState) (h : w ∈ s.flash.lost) :
    { w with refill := st } ∈ (s.setLost w st).flash.lost := by
  refine List.mem_map.2 ⟨w, h, if_pos ?_⟩
  simp

/-- A row that the partner has lost too leaves its vector lost. -/
theorem State.refillRow_lost {s : State} {x : Index} {r : RefillRow} {w : LostWord} {k : Word64}
    (hw : s.lostOf x.fn x.obj r.vid = some w) (hasked : w.refill = .asked k) (hlost : r.lost = true) :
    s.refillRow x r = (s.bumpFlash 5 1).setLost w .gaveUp := by
  unfold State.refillRow
  rw [hw]
  dsimp only
  rw [hasked]
  dsimp only
  rw [hlost]
  rfl

/-- The log record of a row that the partner has returned. -/
def State.refillRec (s : State) (x : Index) (r : RefillRow) : List Byte :=
  recBytes { origin := s.replica, fn := x.fn, ring := 0, seq := 0, item := 0, op := 0x21, obj := x.obj, cls := 0
             target := BitVec.ofNat 64 (field r.vid.toNat 32 22), pass := 0, scale := r.scale, attr := r.vid
             payload := bytesAt r.row 0 (rowBytes x.vfmt x.dims), dfmt := 0, tick := s.tick.count, held := false }

/-- A row that matches the CRC that its lost codeword had is logged, and the log record kept for its vector. -/
theorem State.refillRow_good {s : State} {x : Index} {r : RefillRow} {w : LostWord} {k : Word64}
    (hw : s.lostOf x.fn x.obj r.vid = some w) (hasked : w.refill = .asked k) (hlost : r.lost = false)
    (hcrc : crc32c (bytesAt (r.row.take (rowBytes x.vfmt x.dims)) 0 (vecStride x)) = w.crc.toNat) :
    s.refillRow x r = (((s.logRecord false x.fn x.obj (s.refillRec x r) none).1.jot 9
      [r.vid.toNat, logLocator s.flash.nextLsn]).bumpFlash 4 1).setLost w
        (.refilled s.flash.nextLsn (s.tick.count + 2)) := by
  have hlsn := (s.logRecord_rest false x.fn x.obj (s.refillRec x r) none).1
  unfold State.refillRow
  rw [hw]
  dsimp only
  rw [hasked]
  dsimp only
  rw [hlost, if_pos (by simp [hcrc])]
  rw [← hlsn]
  rfl

theorem lostOf_mem {s : State} {f o : Nat} {vid : Word64} {w : LostWord} (h : s.lostOf f o vid = some w) :
    w ∈ s.flash.lost := List.mem_of_find?_eq_some h

theorem exec_refillResponse {s : State} {fn index : Nat} {x : Index} (hx : s.index fn index = some x) (r : RefillRow) :
    exec (.refillResponse fn index [r]) s = .next (s.refillRow x r) := by
  show execRefillResponse fn index [r] s = _
  unfold execRefillResponse
  rw [hx]
  rfl

theorem exec_flashReadServiceRequest {s : State} {fn index p : Nat} {x : Index} (hx : s.index fn index = some x)
    (hp : s.partner = some p) (ids : List Word64) : exec (.flashReadServiceRequest fn index ids) s =
      .next (s.sendPlan 1 p (refillBytes fn index (vecStride x) (ids.map (s.serviceRow x)))) := by
  show execFlashReadServiceRequest fn index ids s = _
  unfold execFlashReadServiceRequest
  rw [hx, hp]

theorem exec_segmentAgeWarn {s : State} {fn index list : Nat} {g : Segment} (hg : s.segOf fn index list = some g) :
    exec (.segmentAgeWarn fn index list) s =
      .next (if !g.warned && s.segAge g * 10 > 9 * s.ticksOfDays (s.cfg 4 0 0) then
        (s.setSeg { g with warned := true }).raiseNamed .segmentWarn [fn, index, list] else s) := by
  show execSegmentAgeWarn fn index list s = _
  unfold execSegmentAgeWarn
  rw [hg]

/-- The event of a segment past its bound is due: none was raised yet, or none for a day. -/
theorem exec_segmentPastBound {s : State} {fn index list : Nat} {g : Segment} (hg : s.segOf fn index list = some g)
    (hpast : s.segAge g > s.ticksOfDays (s.cfg 4 0 0))
    (hdue : ∀ k, g.pastTick = some k → k.toNat + s.ticksOfDays 1 ≤ s.tick.count.toNat) :
    exec (.segmentPastBound fn index list) s =
      .next (((s.setSeg { g with pastTick := some s.tick.count }).bumpFlash 10 1).raiseNamed .segmentPast
        [fn, index, list]) := by
  show execSegmentPastBound fn index list s = _
  unfold execSegmentPastBound
  rw [hg]
  dsimp only
  refine congrArg Host.Outcome.next (if_pos ?_)
  rw [Bool.and_eq_true, decide_eq_true hpast, and_iff_left rfl]
  split
  next k hk => exact decide_eq_true (hdue k hk)
  next => rfl

end Sys2Proof.Machine

open Sys2Proof Sys2Proof.Machine

/-- Settles O40: each command changes its superblock or die and journals it; moved data leaves the rest. -/
theorem flashProgramsErasesAndDies : Obligations.FlashProgramsErasesAndDies := by
  unfold Obligations.FlashProgramsErasesAndDies
  intro s p x hx
  refine ⟨fun hstate hpage hdata hnew => ⟨?_, exec_programDone_failed hx hstate hpage hdata hnew⟩, fun hstate => ?_,
    fun d => ⟨fun hgood => ?_, fun hfailed hrebuild => ?_⟩⟩
  · refine ⟨_, exec_programDone_ok hx hstate hpage hdata hnew, mem_putBy _ _ _, ⟨_, rfl, rfl, rfl⟩, rfl,
        fun e he hdur => ?_⟩
    exact ⟨_, List.mem_map.2 ⟨e, he, rfl⟩, rfl, by simp [hdur]⟩
  · refine ⟨_, exec_eraseDone hx hstate, ?_⟩
    obtain ⟨hsbs, hcounters, hjournal, hwords⟩ :=
      (((if x.state = .unknown then s.bumpFlash 9 1 else s).setSb x.erased).jot 2
        [p.set, p.plane, p.block]).formatEnds_flash
    rw [hsbs, hcounters, hjournal, hwords]
    refine ⟨mem_putBy _ _ _, ?_, ?_, ?_⟩
    · split <;> rfl
    · split <;> exact ⟨_, rfl, rfl, rfl⟩
    · split <;> rfl
  · refine ⟨_, congrArg Host.Outcome.next (if_pos hgood), s.die_dieTo d .failed, ⟨_, rfl, rfl⟩,
        fun k hk => s.die_dieTo_ne _ hk⟩
  · obtain ⟨s1, t, hexec, hdies, hevents⟩ := exec_dieRetired hfailed hrebuild
    obtain ⟨hstate, hover⟩ := die_endRebuild hdies
    refine ⟨t, hexec, hstate, hover, ?_⟩
    rw [hevents]
    exact ⟨_, List.mem_append_right _ (List.mem_singleton_self _), rfl⟩

/-- Settles O41: each command under its guard; a refilled row is logged before its lost word is marked. -/
theorem flashUpkeep : Obligations.FlashUpkeep := by
  unfold Obligations.FlashUpkeep
  intro s fn index list
  refine ⟨fun g hg => ?_, fun hdue => ?_, fun hdue => ?_, fun hdue => ?_, fun ids x p hx hp => ?_,
    fun x r w k hx hw hasked => ?_⟩
  · obtain ⟨hmem, -, -, -⟩ := segOf_key hg
    refine ⟨fun hwarned hage => ?_, fun hwarned => ?_, fun hpast hdue => ?_⟩
    · refine ⟨_, (exec_segmentAgeWarn hg).trans (congrArg Host.Outcome.next
          (if_pos (by simpa [hwarned] using hage))), ?_⟩
      exact ⟨mem_setSeg (h := { g with warned := true }) hmem ⟨rfl, rfl, rfl⟩, ⟨_, rfl, rfl⟩, rfl⟩
    · exact (exec_segmentAgeWarn hg).trans (congrArg Host.Outcome.next (if_neg (by simp [hwarned])))
    · refine ⟨_, exec_segmentPastBound hg hpast hdue, ?_⟩
      exact ⟨mem_setSeg (h := { g with pastTick := some s.tick.count }) hmem ⟨rfl, rfl, rfl⟩, ⟨_, rfl, rfl⟩, rfl⟩
  · exact ⟨_, _, congrArg Host.Outcome.next (if_pos hdue), rfl, rfl, rfl, rfl⟩
  · exact congrArg Host.Outcome.next (if_neg (ne_true_of_eq_false hdue))
  · exact ⟨_, congrArg Host.Outcome.next (if_pos hdue), rfl⟩
  · refine ⟨_, exec_flashReadServiceRequest hx hp ids, (s.sendPlan_kept _ _ _).flash rfl, ?_⟩
    rw [State.sendPlan_out]
    exact List.mem_append_right _ (List.mem_singleton_self _)
  · refine ⟨fun hlost hcrc => ?_, fun hlost => ?_⟩
    · obtain ⟨-, hkept, hcounters⟩ := s.logRecord_rest false x.fn x.obj (s.refillRec x r) none
      obtain ⟨e, hlog, -⟩ := s.logRecord_log false x.fn x.obj (s.refillRec x r) none
      refine ⟨_, exec_refillResponse hx r, ?_⟩
      rw [State.refillRow_good hw hasked hlost hcrc]
      refine ⟨congrArg (bumpAt · 4 1) hcounters, mem_setLost _ ?_, ?_⟩
      · exact hkept ▸ lostOf_mem hw
      · exact (congrArg List.length hlog).trans (by simp)
    · refine ⟨_, exec_refillResponse hx r, ?_⟩
      rw [State.refillRow_lost hw hasked hlost]
      exact ⟨rfl, mem_setLost (s := s.bumpFlash 5 1) _ (lostOf_mem hw), rfl⟩
end

section
/-! PROOFS. Plans and sheaf moves: the end of a validation, and how moves start and end (R49, R51, R156, R162, R168,
R170). -/

namespace Sys2Proof.Machine

/-! ### The end of a validation -/

/-- What the end of a validation leaves of the plan. -/
def State.validated (s : State) (v : Staging) : State :=
  let x := s.validate v.image (v.image.length / 64)
  { s with plan := { s.plan with
      staging := if x.1 == 0 then some { image := v.image, valid := true } else none
      validating := none, reason := x.1, section_ := x.2.1, record := x.2.2 } }

theorem exec_planValidationDone {s : State} {v : Staging} (h : s.plan.validating = some v) :
    ∃ result, exec .planValidationDone s = .next ((s.validated v).finish v.fn v.ring v.seq
      { status := if (s.validated v).plan.reason == 0 then stOk else stPlanMismatch, flags := 0,
          result := result } []) := by
  show ∃ result, execPlanValidationDone s = _
  unfold execPlanValidationDone
  rw [h]
  exact ⟨_, rfl⟩

/-! ### Moves -/

theorem moveAt_key {s : State} {num : Nat} {m : Move} (h : s.moveAt num = some m) : m ∈ s.tiers.moves ∧ m.num = num :=
  ⟨List.mem_of_find?_eq_some h, by simpa using List.find?_some h⟩

theorem exec_sheafMoveStart {s : State} {num : Nat} {r : MoveRec} (hrun : s.running = true)
    (hr : s.moveRec num = some r)
    (hnew : s.moveAt num = none) (hissue : r.issue ≠ 0xFFFFFFFF) (hsrc : r.srcTier ≠ 0) (hdst : r.dstTier ≠ 0)
    (hshed : ¬ (r.fn = 0 ∧ r.cls = 0xFE ∧ 2 ∈ s.tiers.shed)) : exec (.sheafMoveStart num) s =
      .next { s with tiers := { s.tiers with moves := s.tiers.moves ++ [
        { num := num, tile := none, landing := 0, dst := 0, aux := 0, stile := r.stile, value := r.value, staged := none
          retried := false, tick := s.tick.count }] } } := by
  show execSheafMoveStart num s = _
  unfold execSheafMoveStart
  rw [hr]
  refine congrArg Host.Outcome.next (if_neg ?_)
  simpa [hrun, hnew, hissue, hsrc, hdst, and_assoc] using hshed

/-- No move of a number is left once it has been dropped. -/
theorem ne_of_mem_dropMove {s : State} {num : Nat} {x : Move} (h : x ∈ (s.dropMove num).tiers.moves) : x.num ≠ num := by
  simpa using (List.mem_filter.1 h).2

theorem mem_setMove {s : State} {m x : Move} (hm : m ∈ s.tiers.moves) (hnum : m.num = x.num) :
    x ∈ (s.setMove x).tiers.moves :=
  List.mem_map.2 ⟨m, hm, if_pos (by simp [hnum])⟩

theorem State.classBump_kept (s : State) (f c i n : Nat) : Kept (within [.obs]) s (s.classBump f c i n) :=
  kept_classBump (.refl s) rfl

/-! ### The signal of a move -/

section
variable (s : State) (m : Move)

/-- The landing of a move marked on the tile that started it, if one did. -/
def State.moveMarks (s : State) (m : Move) : State :=
  match m.tile with | some t => s.boardLanded t m.landing | none => s

theorem State.moveMarks_kept : Kept (within [.mesh]) s (s.moveMarks m) := by
  unfold State.moveMarks
  split
  · exact kept_boardLanded (.refl s) rfl
  · exact .refl s

theorem State.moveSignals_eq : s.moveSignals m =
    if m.value = 0 then s.moveMarks m else (s.moveMarks m).planSignal m.stile m.value := rfl

theorem State.moveSignals_kept : Kept (within [.host, .events, .stiles, .mesh]) s (s.moveSignals m) :=
  kept_moveSignals (.refl s) rfl rfl rfl rfl

theorem State.moveSignals_stile (h : m.value ≠ 0) :
    ((s.moveSignals m).stile m.stile).count = min ((s.stile m.stile).count + m.value) stileMax := by
  rw [s.moveSignals_eq, if_neg h]
  refine (congrArg Stile.count (State.stile_stileApply (s.moveMarks m) m.stile [.signal m.value])).trans ?_
  rw [stileCycle_signal, State.stile_congr (congrArg (·.table) ((s.moveMarks_kept m).stiles rfl))]

theorem State.moveSignals_stile_ne {k : Nat} (h : k ≠ m.stile) : (s.moveSignals m).stile k = s.stile k := by
  have hmarks := State.stile_congr (congrArg (·.table) ((s.moveMarks_kept m).stiles rfl)) k
  rw [s.moveSignals_eq]
  split
  · exact hmarks
  · exact (State.stile_stileApply_ne _ _ h).trans hmarks

theorem State.moveSignals_none (h : m.value = 0) : (s.moveSignals m).stiles = s.stiles := by
  rw [s.moveSignals_eq, if_pos h]
  exact (s.moveMarks_kept m).stiles rfl

end

/-! ### How a move ends -/

section
variable {s : State} {num : Nat} {m : Move} {r : MoveRec} (hm : s.moveAt num = some m) (hr : s.moveRec num = some r)
include hm hr

theorem State.moveLands_lands {hb sp p : List Byte} {b : Binding} (hstaged : m.staged = none)
    (htick : m.tick.toNat ≤ s.tick.count.toNat) (hsource : s.moveSource r = some (hb, sp, b, true))
    (hcheck : sheafCheck hb sp r.srcTier b = .ok p) :
    s.moveLands num false = ((s.dropMove num).landAt r m hb p).moveSignals m := by
  unfold State.moveLands
  rw [hm, hr]
  dsimp only
  rw [if_neg (by simp [hstaged, htick]), hsource]
  dsimp only
  rw [if_neg (by decide), hcheck]

/-- What lands with an error fails. -/
theorem State.moveLands_poisoned (hstaged : m.staged = none) (htick : m.tick.toNat ≤ s.tick.count.toNat) :
    s.moveLands num true = s.moveFails r m := by
  unfold State.moveLands
  rw [hm, hr]
  dsimp only
  rw [if_neg (by simp [hstaged, htick])]
  split
  · rfl
  · exact if_pos rfl

/-- A move fails as it lands with an error, or at the deadline of its source tier. -/
theorem exec_moveFails {c : Instr} (hc : c = .sheafLanding (.plan num) true ∨ c = .sheafMoveDeadline (.plan num))
    (hstaged : m.staged = none) (htick : m.tick.toNat ≤ s.tick.count.toNat) :
    ∃ t, exec c s = .next t ∧ (r.srcTier = 2 ∨ r.srcTier = 3 → t = s.moveFails r m) := by
  obtain rfl | rfl := hc
  · exact ⟨_, rfl, fun _ => State.moveLands_poisoned hm hr hstaged htick⟩
  · refine ⟨_, rfl, fun htier => ?_⟩
    dsimp only
    rw [hm, hr]
    exact if_pos (by simp [htier, htick])

theorem exec_sheafCommit {hb p : List Byte} {i : Nat} (hstaged : m.staged = some (hb, p)) (htile : m.tile = some i) :
    exec (.sheafCommit num) s = .next (if (s.tile i).fenced then s.dropMove num
      else if stagedOk hb p then ((s.dropMove num).landAt r m hb p).moveSignals m
      else ((((s.dropMove num).setTile { s.tile i with
          counts := addCounts (s.tile i).counts { Counts0 with range := 1 } }).total 4 1).raiseNamed .tileFault
        [(s.physTile i).1, (s.physTile i).2, i])) := by
  show execSheafCommit num s = _
  unfold execSheafCommit
  rw [hm, hr]
  dsimp only
  rw [hstaged, htile]

end

theorem State.moveFails_flash {s : State} {r : MoveRec} {m : Move} (h : r.srcTier = 2) :
    s.moveFails r m = (s.dropMove m.num).classBump r.fn r.cls 10 1 := by
  unfold State.moveFails
  rw [h]
  rfl

theorem State.moveFails_shared {s : State} {r : MoveRec} {m : Move} (h : r.srcTier = 3) : s.moveFails r m =
    if m.retried then (s.dropMove m.num).raiseNamed .sheafFault [r.src]
    else s.setMove { m with retried := true, tick := s.tick.count + 1 } := by
  unfold State.moveFails
  rw [h]
  rfl

theorem State.landAt_t1 (s : State) {r : MoveRec} (m : Move) (hb p : List Byte) (h : r.dstTier = 1) :
    s.landAt r m hb p =
    { s with t1 := memWriteBytes s.t1 r.dst (shBytes (committed (shOf hb) p s.tick.count) ++ p) } := by
  unfold State.landAt
  rw [h]
  rfl

theorem State.landAt_kept (s : State) (r : MoveRec) (m : Move) (hb p : List Byte) :
    Kept (within [.events, .mesh, .flash, .t1, .hostMem]) s (s.landAt r m hb p) :=
        kept_landAt (.refl s) rfl rfl rfl rfl rfl

/-- What a move that lands in stacked memory leaves: its sheaf there, and its stile signalled. -/
theorem landed_t1 {s : State} {num : Nat} {m : Move} {r : MoveRec} {hb p : List Byte} {t : State}
    (ht : t = ((s.dropMove num).landAt r m hb p).moveSignals m) (hdst : r.dstTier = 1) :
    t.t1 = memWriteBytes s.t1 r.dst (shBytes (committed (shOf hb) p s.tick.count) ++ p) ∧
      (m.value ≠ 0 → (t.stile m.stile).count = min ((s.stile m.stile).count + m.value) stileMax) ∧
      (∀ k, k ≠ m.stile → t.stile k = s.stile k) ∧ (m.value = 0 → t.stiles = s.stiles) := by
  have ht1 : ((s.dropMove num).landAt r m hb p).t1 =
      memWriteBytes s.t1 r.dst (shBytes (committed (shOf hb) p s.tick.count) ++ p) := by
    rw [(s.dropMove num).landAt_t1 m hb p hdst]
    dsimp only [State.dropMove]
  have hstiles : ((s.dropMove num).landAt r m hb p).stiles = s.stiles :=
      ((s.dropMove num).landAt_kept r m hb p).stiles rfl
  have hstile (k : Nat) : ((s.dropMove num).landAt r m hb p).stile k = s.stile k :=
    State.stile_congr (congrArg (·.table) hstiles) k
  generalize (s.dropMove num).landAt r m hb p = a at ht ht1 hstiles hstile
  subst ht
  refine ⟨((a.moveSignals_kept m).t1 rfl).trans ht1, fun h => ?_, fun k hk => ?_, fun h => ?_⟩
  · rw [a.moveSignals_stile m h, hstile]
  · rw [a.moveSignals_stile_ne m hk, hstile]
  · rw [a.moveSignals_none m h, hstiles]

/-- A move that lands, wherever it lands, is under way no longer. -/
theorem ne_of_mem_landed {s : State} {num : Nat} {m x : Move} {r : MoveRec} {hb p : List Byte}
    (h : x ∈ (((s.dropMove num).landAt r m hb p).moveSignals m).tiers.moves) : x.num ≠ num := by
  rw [(State.moveSignals_kept _ m).tiers rfl, (State.landAt_kept _ r m hb p).tiers rfl] at h
  exact ne_of_mem_dropMove h

theorem selectAt_mem {s : State} {f g : Nat} {q : Word64} {j x : SelectJob} (h : s.selectAt f g q = some j)
    (hkey : x.fn = j.fn ∧ x.ring = j.ring ∧ x.seq = j.seq) : x ∈ (s.setSelect x).search.selects := by
  refine List.mem_map.2 ⟨j, List.mem_of_find?_eq_some h, if_pos ?_⟩
  simp [hkey]

theorem exec_selectLanding {s : State} {f g : Nat} {q : Word64} {j : SelectJob} (h : s.selectAt f g q = some j)
    (hlanded : j.landed = false) (hfirst : j.retried = false) : exec (.sheafLanding (.select f g q) false) s =
      .next (s.setSelect { j with
        landed := true, tick := s.tick.count, input := memReadBytes s.hostMem j.iaddr (j.rows * j.stride) }) := by
  show execSheafLanding (.select f g q) false s = _
  unfold execSheafLanding
  dsimp only
  rw [h]
  exact congrArg Host.Outcome.next ((if_neg (by simp [hlanded, hfirst])).trans (if_pos rfl))

end Sys2Proof.Machine

open Sys2Proof Sys2Proof.Machine

/-- Settles O36: the outcome is written before the descriptor ends; a due move joins those under way. -/
theorem planValidationEndsAndMovesStart : Obligations.PlanValidationEndsAndMovesStart := by
  unfold Obligations.PlanValidationEndsAndMovesStart
  intro s
  refine ⟨fun v hv => ?_, fun num r hrun hr hnew hissue hsrc hdst hshed => ?_⟩
  · obtain ⟨result, hexec⟩ := exec_planValidationDone hv
    refine ⟨_, hexec, ?_⟩
    rw [(State.finish_kept _ _ _ _ _ _).plan rfl]
    refine ⟨rfl, rfl, rfl, fun h => if_pos (beq_iff_eq.2 h), fun h => if_neg fun hok => h (beq_iff_eq.1 hok),
      fun w hw hdone => ?_⟩
    obtain ⟨w', c, hat, hended, hstatus⟩ := State.finish_ends (s := s.validated v) hw hdone
      { status := if (s.validated v).plan.reason == 0 then stOk else stPlanMismatch, flags := 0, result := result } []
    exact ⟨w', c, hat, hended, hstatus.trans (by simp only [beq_iff_eq])⟩
  · exact ⟨_, _, exec_sheafMoveStart hrun hr hnew hissue hsrc hdst hshed, rfl, rfl, rfl, rfl, rfl, rfl, rfl, rfl, rfl⟩

/-- Settles O37: a move that lands ends, is written and then signals (`landed_t1`); one that fails, by its tier. -/
theorem sheavesLand : Obligations.SheavesLand := by
  unfold Obligations.SheavesLand
  intro s num m r hm hr
  obtain ⟨hmem, hnum⟩ := moveAt_key hm
  refine ⟨fun hb sp p b hstaged htile htick hsource hcheck hdst => ?_, fun c hc hstaged htick => ?_,
    fun hb p i hstaged htile => ?_, fun f g q j hj hlanded hfirst => ?_⟩
  · refine ⟨_, congrArg Host.Outcome.next (State.moveLands_lands hm hr hstaged htick hsource hcheck), ?_⟩
    obtain ⟨ht1, hsignal, hothers, hsilent⟩ := landed_t1 (s := s) (num := num) (m := m) (hb := hb) (p := p) rfl hdst
    exact ⟨ht1, fun x hx => ne_of_mem_landed hx, hsignal, hothers, hsilent⟩
  · obtain ⟨t, hexec, ht⟩ := exec_moveFails hm hr hc hstaged htick
    refine ⟨t, hexec, fun htier => ?_, fun htier => ?_, fun htier hfirst => ?_, fun htier hretried => ?_⟩
    · rw [ht htier]
      obtain h | h := htier
      · have hkept := (s.dropMove m.num).classBump_kept r.fn r.cls 10 1
        rw [State.moveFails_flash h]
        exact ⟨hkept.t1 rfl, hkept.stiles rfl, hkept.mesh rfl⟩
      · rw [State.moveFails_shared h]
        split <;> exact ⟨rfl, rfl, rfl⟩
    · rw [ht (.inl htier), State.moveFails_flash htier, hnum]
      refine ⟨fun x hx => ?_, rfl⟩
      rw [((s.dropMove num).classBump_kept r.fn r.cls 10 1).tiers rfl] at hx
      exact ne_of_mem_dropMove hx
    · rw [ht (.inr htier), State.moveFails_shared htier, if_neg (ne_true_of_eq_false hfirst)]
      exact ⟨rfl, mem_setMove (x := { m with retried := true, tick := s.tick.count + 1 }) hmem rfl⟩
    · rw [ht (.inr htier), State.moveFails_shared htier, if_pos hretried]
      exact ⟨fun x hx => ne_of_mem_dropMove hx, State.raiseNamed_length ..⟩
  · refine ⟨_, exec_sheafCommit hm hr hstaged htile, ?_, fun hfenced => ?_, fun hclear hbad => ?_,
        fun hclear hok hdst => ?_⟩
    · split
      · exact fun x hx => ne_of_mem_dropMove hx
      · split
        · exact fun x hx => ne_of_mem_landed hx
        · exact fun x hx => ne_of_mem_dropMove hx
    · rw [if_pos hfenced]
      exact ⟨rfl, rfl, rfl, rfl⟩
    · rw [if_neg (ne_true_of_eq_false hclear), if_neg (ne_true_of_eq_false hbad)]
      exact ⟨rfl, rfl, State.raiseNamed_length ..⟩
    · rw [if_neg (ne_true_of_eq_false hclear), if_pos hok]
      obtain ⟨ht1, hsignal, -, -⟩ := landed_t1 (s := s) (num := num) (m := m) (hb := hb) (p := p) rfl hdst
      exact ⟨ht1, hsignal⟩
  · exact ⟨_, _, exec_selectLanding hj hlanded hfirst, selectAt_mem hj (by exact ⟨rfl, rfl, rfl⟩), rfl, rfl, rfl,
        rfl, rfl⟩
end

section
/-! PROOFS. Shard queries and their results, and how flash reads come back (R55, R200, R203, R253, R254, R259, R261). -/

namespace Sys2Proof.Machine

/-! ### Shard queries and results -/

theorem exec_shardQuery {s : State} {payload : List Byte} {x : Index}
    (hx : s.index (askOf 0 payload).fn (askOf 0 payload).index = some x) : exec (.shardQuery payload) s =
      .next (if x.digest = some (askOf x.dims payload).digest then s.addJob (askOf x.dims payload) false 0
        else s.giveResult (askOf x.dims payload) none (emptyRes x.shard 0x20 s.tick.count)) := by
  show execShardQuery payload s = _
  unfold execShardQuery
  dsimp only
  rw [hx]

theorem exec_shardQuery_none {s : State} {payload : List Byte}
    (hx : s.index (askOf 0 payload).fn (askOf 0 payload).index = none) : ∃ shard, exec (.shardQuery payload) s =
      .next (s.giveResult (askOf 0 payload) none (emptyRes shard 0x20 s.tick.count)) := by
  show ∃ shard, execShardQuery payload s = _
  unfold execShardQuery
  dsimp only
  rw [hx]
  exact ⟨_, rfl⟩

/-- Whether a front query waits for a shard's result. -/
def FrontQuery.wants (f : Nat) (q : Word64) (r : ShardRes) (p : FrontQuery) : Bool :=
  p.ask.fn == f && p.ask.seq == q && p.sent && p.shards.any fun e => e.1 == r.shard && e.2.2.2.isNone

/-- A front query with a shard's result in its place. -/
def FrontQuery.took (p : FrontQuery) (r : ShardRes) : FrontQuery :=
  { p with shards := p.shards.map fun e =>
      if e.1 == r.shard && e.2.2.2.isNone then (e.1, e.2.1, e.2.2.1, some r) else e }

section
variable {s : State} {payload : List Byte} {q : Word64} {f : Nat} {r : ShardRes}
    (hpayload : shardResOf payload = (q, f, r))
include hpayload

theorem exec_shardResult : exec (.shardResult payload) s = .next (s.takeResult f q none r) := by
  show execShardResult payload s = _
  unfold execShardResult
  rw [hpayload]

theorem exec_shardResult_some {p : FrontQuery} (h : s.search.front.find? (FrontQuery.wants f q r) = some p) :
    exec (.shardResult payload) s = .next (s.setFront (p.took r)) := by
  delta FrontQuery.wants at h
  rw [exec_shardResult hpayload]
  unfold State.takeResult
  simp only [Bool.and_true]
  rw [h]
  rfl

theorem exec_shardResult_none (h : s.search.front.find? (FrontQuery.wants f q r) = none) :
    exec (.shardResult payload) s = .next s := by
  delta FrontQuery.wants at h
  rw [exec_shardResult hpayload]
  unfold State.takeResult
  simp only [Bool.and_true]
  rw [h]

end

/-! ### Flash reads -/

theorem readAt_key {s : State} {id : Nat} {r : FlashRead} (h : s.readAt id = some r) : r ∈ s.flash.reads ∧ r.id = id :=
  ⟨List.mem_of_find?_eq_some h, by simpa using List.find?_some h⟩

theorem mem_setRead {s : State} {r x : FlashRead} (hr : r ∈ s.flash.reads) (hid : r.id = x.id) :
    x ∈ (s.setRead x).flash.reads :=
  List.mem_map.2 ⟨r, hr, if_pos (by simp [hid])⟩

theorem job_key {s : State} {id : Nat} {j : ShardJob} (h : s.job id = some j) : j ∈ s.search.shard ∧ j.id = id :=
  ⟨List.mem_of_find?_eq_some h, by simpa using List.find?_some h⟩

theorem mem_setJob {s : State} {j x : ShardJob} (hj : j ∈ s.search.shard) (hid : j.id = x.id) :
    x ∈ (s.setJob x).search.shard :=
  List.mem_map.2 ⟨j, hj, if_pos (by simp [hid])⟩

theorem exec_flashReadIssue {s : State} {id : Nat} {r : FlashRead} (hr : s.readAt id = some r)
    (hissued : r.issued = false)
    (hmay : s.mayIssue r = true) : ∃ issued, exec (.flashReadIssue id) s =
      let s1 := ((s.setRead { r with issued := true }).bumpFlash 11 1).suspendErases r.set true
      .next { s1 with flash := { s1.flash with issued := issued } } := by
  show ∃ issued, execFlashReadIssue id s = _
  unfold execFlashReadIssue
  rw [hr]
  dsimp only
  exact ⟨_, congrArg Host.Outcome.next (if_neg (by simp [hissued, hmay]))⟩

/-- A read that is not issued in time, or is late, is counted and missed. -/
theorem exec_readMissed {s : State} {id k : Nat} {r : FlashRead} {c : Instr} (hr : s.readAt id = some r)
    (hc : (c = .flashReadNotIssued id ∧ k = 7 ∧ r.issued = false) ∨
      (c = .flashReadDeadline id ∧ k = 6 ∧ r.issued = true ∧ r.returned = false)) :
    exec c s = .next ((s.bumpFlash k 1).readMissed r) := by
  obtain ⟨rfl, rfl, hissued⟩ | ⟨rfl, rfl, hissued, hreturned⟩ := hc
  · show execFlashReadNotIssued id s = _
    unfold execFlashReadNotIssued
    rw [hr]
    exact congrArg Host.Outcome.next (if_neg (ne_true_of_eq_false hissued))
  · show execFlashReadDeadline id s = _
    unfold execFlashReadDeadline
    rw [hr]
    exact congrArg Host.Outcome.next (if_pos (by simp [hissued, hreturned]))

/-- What a missed read leaves of flash: all but the reads that it takes away, itself among them. -/
theorem State.readMissed_flash (s : State) (r : FlashRead) : (s.readMissed r).flash.counters = s.flash.counters ∧
    (s.readMissed r).flash.words = s.flash.words ∧ r ∉ (s.readMissed r).flash.reads := by
  unfold State.readMissed
  split
  · exact ⟨rfl, rfl, fun h => by simpa using (List.mem_filter.1 h).2⟩
  · split
    · exact ⟨rfl, rfl, fun h => by simpa using (List.mem_filter.1 h).2⟩
    · exact ⟨rfl, rfl, fun h => by simpa using (List.mem_filter.1 h).2⟩

/-- What a missed read leaves of its query: its candidate gleaned, or, under STRICT, waiting on. -/
theorem State.readMissed_job {s : State} {r : FlashRead} {j : ShardJob} (h : s.job r.job = some j) :
    ∃ x ∈ (s.readMissed r).search.shard, x.id = j.id ∧
      (s.strict r.fn r.cls = false → x.gleaned = j.gleaned + 1 ∧ ∀ w ∈ x.waits, w.cand ≠ r.cand) ∧
      (s.strict r.fn r.cls = true → x.gleaned = j.gleaned ∧ ∀ w ∈ x.waits, w.cand = r.cand → w.failed = true) := by
  obtain ⟨hmem, -⟩ := job_key h
  unfold State.readMissed
  rw [h]
  dsimp only
  cases hstrict : s.strict r.fn r.cls with
  | true =>
    rw [if_pos rfl]
    refine ⟨_, mem_setJob (x := { j with waits := _ }) hmem rfl, rfl, fun h => absurd h (by decide), fun _ => ⟨rfl, ?_⟩⟩
    intro w hw hcand
    obtain ⟨y, -, rfl⟩ := List.mem_map.1 hw
    by_cases hy : y.cand = r.cand
    · rw [if_pos (by simpa using hy)]
    · rw [if_neg (by simpa using hy)] at hcand
      exact absurd hcand hy
  | false =>
    rw [if_neg (by decide)]
    refine ⟨_, mem_setJob hmem rfl, rfl, fun _ => ⟨rfl, fun w hw => ?_⟩, fun h => absurd h (by decide)⟩
    simpa using (List.mem_filter.1 hw).2

section
variable {s : State} {id : Nat} {r : FlashRead} (hr : s.readAt id = some r) (hissued : r.issued = true)
  (hreturned : r.returned = false) (hnew : s.flash.rebuilt.contains r.at_ = false) (hplace : s.placeReads r.at_ = true)
include hr hissued hreturned hnew hplace

/-- A piece that decodes and passes its checks is kept for its candidate. -/
theorem exec_flashReadReturn_good {errors : Nat} {decoded : Bool} {cw : Codeword} (hgood : errors ≤ 96 ∨ decoded = true)
    (hcw : s.cwAt r.at_ = some cw) (htag : cw.tag = s.readTag r)
    (hlog : (s.logAt r.at_).isSome = true → crc32c cw.user = cw.crc.toNat) :
        exec (.flashReadReturn id errors decoded) s =
      .next ((((if 0 < errors then s.bumpFlash 0 1 else s).setRead { r with returned := true }).pieceHere r cw).readOver
        r.set id) := by
  show execFlashReadReturn id errors decoded s = _
  unfold execFlashReadReturn
  rw [hr]
  dsimp only
  rw [if_neg (by simp [hissued, hreturned]), hnew, hplace, if_neg (by obtain h | h := hgood <;> simp [h]), hcw]
  dsimp only
  rw [if_neg (by simpa [htag] using hlog)]
  simp only [Bool.not_false, Bool.true_and, decide_eq_true_eq]

/-- A codeword that cannot be decoded is read again, three times. -/
theorem exec_flashReadReturn_again {errors : Nat} (herrors : 96 < errors) (hretries : r.retries < 3) :
    exec (.flashReadReturn id errors false) s =
      .next (((s.setRead { r with retries := r.retries + 1 }).bumpFlash 1 1).bumpFlash 11 1) := by
  show execFlashReadReturn id errors false s = _
  unfold execFlashReadReturn
  rw [hr]
  dsimp only
  rw [if_neg (by simp [hissued, hreturned]), hnew, hplace, if_pos (by simp [herrors]), if_pos (by simp [hretries])]

end

/-- A candidate that waits, with a piece of its block. -/
def RerankWait.took (w : RerankWait) (r : FlashRead) (cw : Codeword) : RerankWait :=
  { w with got := w.got ++ [(r.piece, cw.user)], scale := cw.scale, norm := cw.norm, crc := cw.crc }

/-- A query one of whose candidates has a piece more. -/
def ShardJob.took (j : ShardJob) (w : RerankWait) (r : FlashRead) (cw : Codeword) : ShardJob :=
  { j with waits := j.waits.map fun y => if y.cand == w.cand then w.took r cw else y }

section
variable {j : ShardJob} {w : RerankWait} {r : FlashRead} {cw : Codeword}
  (hw : (j.waits.find? fun y => y.cand == r.cand) = some w)
include hw

/-- A piece of a block of which further pieces are still to come. -/
theorem State.pieceHere_waits {s : State} (hj : s.job r.job = some j) (hmore : w.got.length + 1 ≠ w.readIds.length) :
    s.pieceHere r cw = s.setJob (j.took w r cw) := by
  unfold State.pieceHere
  rw [hj]
  dsimp only
  rw [hw]
  exact if_neg (by simp [hmore])

theorem ShardJob.took_got {y : RerankWait} (hy : y ∈ (j.took w r cw).waits) (hcand : y.cand = r.cand) :
    y.got = w.got ++ [(r.piece, cw.user)] := by
  have hwcand : w.cand = r.cand := by simpa using List.find?_some hw
  obtain ⟨z, -, rfl⟩ := List.mem_map.1 hy
  by_cases hz : z.cand = w.cand
  · rw [if_pos (by simpa using hz)]
    rfl
  · rw [if_neg (by simpa using hz)] at hcand
    exact absurd (hcand.trans hwcand.symm) hz

end

/-! ### Reconstruction and loss -/

theorem exec_reconstructed {s : State} {p : FlashPlace} {cw : Codeword} (h : s.cwAt p = some cw) :
    exec (.flashReconstructDone p []) s =
      let s1 := (s.endRecon p).bumpFlash 2 1
      .next { s1 with flash := { s1.flash with rebuilt := (s1.flash.rebuilt.filter (· != p)) ++ [p] } } := by
  show execFlashReconstructDone p [] s = _
  unfold execFlashReconstructDone
  rw [h]
  rfl

/-- A codeword that is lost leaves what is rebuilt and what is stored, and raises its event. -/
theorem State.loseWord_rest (s : State) (w : Codeword) : (s.loseWord w).flash.rebuilt = s.flash.rebuilt ∧
    (s.loseWord w).flash.words = s.flash.words ∧ ∃ e, (s.loseWord w).events = s.events ++ [e] ∧
        e.cause = .mediaLost := by
  unfold State.loseWord
  dsimp only
  split
  · exact ⟨rfl, rfl, _, rfl, rfl⟩
  · split <;> exact ⟨rfl, rfl, _, rfl, rfl⟩

/-- Events are not taken back while codewords are lost. -/
theorem mem_events_loseWords {e : Event} : ∀ (l : List Codeword) (s : State), e ∈ s.events →
    e ∈ (l.foldl State.loseWord s).events
  | [], _, h => h
  | w :: l, s, h => by
    obtain ⟨-, -, e', hevents, -⟩ := s.loseWord_rest w
    exact mem_events_loseWords l (s.loseWord w) (hevents ▸ List.mem_append_left _ h)

theorem loseWords_event {l : List Codeword} (hl : l ≠ []) (s : State) :
    ∃ e ∈ (l.foldl State.loseWord s).events, e.cause = .mediaLost := by
  cases l with
  | nil => exact absurd rfl hl
  | cons w l =>
    obtain ⟨-, -, e, hevents, hcause⟩ := s.loseWord_rest w
    exact ⟨e, mem_events_loseWords l (s.loseWord w) (hevents ▸ List.mem_append_right _ (List.mem_singleton_self e)),
        hcause⟩

/-- The codewords that are lost with one that cannot be rebuilt, itself among them. -/
theorem exec_reconstructFails {s : State} {p : FlashPlace} {cw : Codeword} (h : s.cwAt p = some cw) (k : Nat)
    (ks : List Nat) :
    ∃ l, l ≠ [] ∧ exec (.flashReconstructDone p (k :: ks)) s = .next (l.foldl State.loseWord (s.endRecon p)) := by
  show ∃ l, l ≠ [] ∧ execFlashReconstructDone p (k :: ks) s = _
  unfold execFlashReconstructDone
  rw [h]
  refine ⟨_, ?_, rfl⟩
  refine List.ne_nil_of_mem (a := cw) (List.mem_filter.2 ⟨List.mem_of_find?_eq_some h, ?_⟩)
  simp
  omega

end Sys2Proof.Machine

open Sys2Proof Sys2Proof.Machine

/-- Settles O38: a query is held or answered by its digest; a result goes to the first front query that wants it. -/
theorem shardQueriesAndResults : Obligations.ShardQueriesAndResults := by
  unfold Obligations.ShardQueriesAndResults
  intro s payload
  refine ⟨fun x hx => ⟨_, exec_shardQuery hx, fun hsame => ?_, fun hother => ?_⟩, fun hnone => ?_, fun q f r hpayload =>
    ⟨fun p hp => ?_, fun hnone => exec_shardResult_none hpayload hnone⟩⟩
  · rw [if_pos hsame]
    exact ⟨rfl, _, rfl, rfl, rfl, rfl, rfl⟩
  · rw [if_neg hother]
    exact ⟨rfl, rfl⟩
  · obtain ⟨shard, hexec⟩ := exec_shardQuery_none hnone
    exact ⟨_, _, hexec, rfl, rfl, rfl⟩
  · refine ⟨_, exec_shardResult_some hpayload hp, ?_, ?_⟩
    · exact List.mem_map.2 ⟨p, List.mem_of_find?_eq_some hp, if_pos (by simp [FrontQuery.same, FrontQuery.took])⟩
    · exact List.length_map _

/-- Settles O39: each outcome of a read, and of a reconstruction, under the guards that its clause states. -/
theorem flashReadsComeBack : Obligations.FlashReadsComeBack := by
  unfold Obligations.FlashReadsComeBack
  intro s id r hr
  obtain ⟨hmem, hid⟩ := readAt_key hr
  refine ⟨fun hissued hmay => ?_, fun c k hc => ?_,
    fun errors decoded cw j w hissued hreturned hnew hplace hgood hcw htag hlog hj hw hmore => ?_,
    fun errors hissued hreturned hnew hplace herrors hretries => ?_,
        fun p cw hcw => ⟨?_, fun k ks => ?_⟩⟩
  · obtain ⟨issued, hexec⟩ := exec_flashReadIssue hr hissued hmay
    exact ⟨_, hexec, mem_setRead (x := { r with issued := true }) hmem rfl, rfl, rfl, rfl⟩
  · obtain ⟨hcounters, hwords, hgone⟩ := (s.bumpFlash k 1).readMissed_flash r
    exact ⟨_, exec_readMissed hr hc, hcounters, hgone, hwords,
        fun j hj => State.readMissed_job (s := s.bumpFlash k 1) hj⟩
  · have hexec := exec_flashReadReturn_good hr hissued hreturned hnew hplace hgood hcw htag hlog
    have hbumped : (if 0 < errors then s.bumpFlash 0 1 else s).search = s.search ∧
        (if 0 < errors then s.bumpFlash 0 1 else s).flash.reads = s.flash.reads ∧
        (if 0 < errors then s.bumpFlash 0 1 else s).flash.words = s.flash.words ∧
        (if 0 < errors then s.bumpFlash 0 1 else s).flash.counters =
          if 0 < errors then bumpAt s.flash.counters 0 1 else s.flash.counters := by
      split <;> exact ⟨rfl, rfl, rfl, rfl⟩
    obtain ⟨hsearch, hreads, hwords, hcounters⟩ := hbumped
    generalize (if 0 < errors then s.bumpFlash 0 1 else s) = a at hexec hsearch hreads hwords hcounters
    have hja : (a.setRead { r with returned := true }).job r.job = some j := by
      rw [← hj]
      unfold State.job
      rw [show (a.setRead { r with returned := true }).search = s.search from hsearch]
    rw [State.pieceHere_waits hw hja hmore] at hexec
    refine ⟨_, j.took w r cw, ?_, hexec, rfl, fun y hy hcand => ShardJob.took_got hw hy hcand, hcounters, ?_, hwords⟩
    · exact mem_setJob (x := j.took w r cw) (job_key hja).1 rfl
    · exact mem_setRead (s := a) (r := r) (x := { r with returned := true }) (hreads.symm ▸ hmem) rfl
  · exact ⟨_, exec_flashReadReturn_again hr hissued hreturned hnew hplace herrors hretries,
      mem_setRead (x := { r with retries := r.retries + 1 }) hmem rfl, rfl, rfl⟩
  · exact ⟨_, exec_reconstructed hcw, List.mem_append_right _ (List.mem_singleton_self _), rfl, rfl, rfl⟩
  · obtain ⟨l, hl, hexec⟩ := exec_reconstructFails hcw k ks
    refine ⟨_, hexec, loseWords_event hl _, ?_, ?_⟩
    · exact foldl_keeps (fun s : State => s.flash.rebuilt) (fun s w => (s.loseWord_rest w).1) l (s.endRecon p)
    · exact foldl_keeps (fun s : State => s.flash.words) (fun s w => (s.loseWord_rest w).2.1) l (s.endRecon p)
end
